-- ==== Sys2Proof/Word.lean ====
section
/-! DEFINITION. The plainest value types of the OVK-7290: bytes, words, and the little-endian packing of R247. -/

namespace Sys2Proof

/-- One byte. -/
abbrev Byte := BitVec 8
/-- A 32-bit word: an MFP header word, an FP32 pattern, a descriptor word. -/
abbrev W32 := BitVec 32
/-- A 64-bit word: a scalar register, a 64-bit BAR0 access. -/
abbrev W64 := BitVec 64

end Sys2Proof
end

