-- ==== Sys2Proof/Syntax.lean ====
section
/-! DEFINITION. The commands of the OVK-7290: one constructor of `Instr` for each row of the table of
operations and events, with the row's operands, and the data types those operands are made of. -/

namespace Sys2Proof

/-- An MFP frame (R65): the fields of the eight header words, the payload bytes and, when FLAGS.ENC is 1, the
16-byte trailer of R417. `badTail` is the mark of R111 that the frame carries at its tail. -/
structure Frame where
  type     : Nat
  cls      : Nat
  allot    : Nat
  dstEp    : Nat
  srcEp    : Nat
  tag      : Nat
  status   : Nat
  flags    : Nat
  len      : Nat
  mapEpoch : Nat
  mbrEpoch : Nat
  w5       : Nat
  w6       : Nat
  w7       : Nat
  payload  : List Byte
  trailer  : List Byte
  badTail  : Bool
deriving DecidableEq, Repr

/-- Who reaches BAR0 (R487): PF0, a Gardener, or an Iferic session. -/
inductive Requester where
  | pf0
  | gardener (die : Nat)
  | iferic (session : Nat)
  | vf (a : Nat)
deriving DecidableEq, Repr

/-- A port of a Trellis (R96): a fabric port by its leader lane, a cluster port, the memory-side port or the
die-bridge port of a die. As an ingress, `bridge d` is the bridge port of the die that the frame enters. -/
inductive TPort where
  | fabric (lane : Nat)
  | cluster (c : Nat)
  | memSide (die : Nat)
  | bridge (die : Nat)
deriving DecidableEq, Repr

/-- A scratchpad bank (R145): bank b of a cluster, or bank i of core k of a cluster. The banks of a core share an owner: a
command about ownership that names one of them acts on all eight (R149). -/
inductive BankId where
  | cluster (c b : Nat)
  | core (c k i : Nat)
deriving DecidableEq, Repr

/-- What executes Clepor: core 0-255 of the package (R11) or the Gardener of a die (R241). -/
inductive UnitId where
  | core (n : Nat)
  | gardener (die : Nat)
deriving DecidableEq, Repr

/-- The issuer of an NMU command other than a program (R170): a command window, whose descriptor lies in
NMU_CMD_DESC, or the tier logic or the versioned-region logic with the eight words it issues. -/
inductive NmuSrc where
  | window (w : Nat)
  | logic (words : List Nat)
deriving DecidableEq, Repr

/-- What one receiver learnt of its lane during TRAIN (R50, R53): training succeeded, polarity was inverted, the
skew in UI and the insertion loss in 0.1 dB. -/
structure LaneResult where
  trained : Bool
  polInv  : Bool
  skewUi  : Nat
  loss    : Nat
deriving DecidableEq, Repr

/-- Why a lane counts as degrading within its window (R59). -/
inductive DegradeCause where
  | uncorr
  | near
deriving DecidableEq, Repr

/-- What enumeration finds behind a tier-2 link (R124, R125). -/
inductive CxlFinding where
  | memory (capBytes latMed latMax speed width : Nat)
  | unsupported (reason : Nat)
deriving DecidableEq, Repr

/-- How an SPDM request reaches the responder (R412, R413): PF0's DOE mailbox, or the fabric mailbox of a
requester; `session` is the SPDM session that secures it, if any. -/
inductive SpdmVia where
  | doe (session : Option Nat)
  | fabric (ep : Nat) (session : Option Nat)
deriving DecidableEq, Repr

/-- A neighbour query that the management port answers (R481). -/
inductive NeighbourQuery where
  | arp (ipv4 : Nat)
  | neighbourDiscovery (ipv6 : Nat)
  | icmpEcho (ipv6 : Bool) (addr : Nat) (data : List Byte)
deriving DecidableEq, Repr

/-- What an IEEE 1588 message brings to the clock (R483, R484): an Announce data set of a master, or a
completed offset measurement with the calendar time it implies. -/
inductive PtpMsg where
  | announce (domain : Nat) (dataset : Nat) (master : Nat)
  | measurement (domain : Nat) (master : Nat) (offsetNs : Int) (calNs : Nat)
deriving DecidableEq, Repr

/-- The outcome of testing one unit in the weeding pass (R467). -/
inductive TestResult where
  | pass
  | coreFail
  | bankRows (rows : List Nat)
  | cellFail
  | engineFail
  | storeFail (word : Nat)
deriving DecidableEq, Repr

/-- The commands of the block: one constructor per row of the table of operations and events. -/
inductive Instr where
  -- Clepor instructions (chapter 12): `u` is the unit that fetches the instruction
  | add (u : UnitId) (rd ra rb : BitVec 5) (imm : W32)
  | sub (u : UnitId) (rd ra rb : BitVec 5) (imm : W32)
  | mul (u : UnitId) (rd ra rb : BitVec 5) (imm : W32)
  | div (u : UnitId) (rd ra rb : BitVec 5) (imm : W32)
  | and (u : UnitId) (rd ra rb : BitVec 5) (imm : W32)
  | or (u : UnitId) (rd ra rb : BitVec 5) (imm : W32)
  | xor (u : UnitId) (rd ra rb : BitVec 5) (imm : W32)
  | sll (u : UnitId) (rd ra rb : BitVec 5) (imm : W32)
  | srl (u : UnitId) (rd ra rb : BitVec 5) (imm : W32)
  | sra (u : UnitId) (rd ra rb : BitVec 5) (imm : W32)
  | slt (u : UnitId) (rd ra rb : BitVec 5) (imm : W32)
  | sltu (u : UnitId) (rd ra rb : BitVec 5) (imm : W32)
  | li (u : UnitId) (rd : BitVec 5) (imm : BitVec 45)
  | lih (u : UnitId) (rd : BitVec 5) (imm : BitVec 45)
  | bCc (u : UnitId) (ra rb : BitVec 5) (cond : BitVec 3) (off : W32)
  | bpany (u : UnitId) (p : BitVec 3) (off : W32)
  | bl (u : UnitId) (ra : BitVec 5) (off : W32)
  | jr (u : UnitId) (ra : BitVec 5) (off : W32)
  | endProg (u : UnitId) (ra rb : BitVec 5)
  | fault (u : UnitId) (off : W32)
  | nop (u : UnitId)
  | ld (u : UnitId) (rd ra : BitVec 5) (sz : BitVec 2) (imm : W32)
  | st (u : UnitId) (ra rb : BitVec 5) (sz : BitVec 2) (imm : W32)
  | vld (u : UnitId) (eng : BitVec 2) (vd va : BitVec 5) (n : BitVec 16)
  | vst (u : UnitId) (eng : BitVec 2) (vd va : BitVec 5) (n : BitVec 16)
  | vldH (u : UnitId) (eng : BitVec 2) (vd va : BitVec 5)
  | vstH (u : UnitId) (eng : BitVec 2) (vd va : BitVec 5)
  | tld (u : UnitId) (td : BitVec 3) (sa : BitVec 5)
  | tst (u : UnitId) (td : BitVec 3) (sa : BitVec 5)
  | tstH (u : UnitId) (td : BitVec 3) (sa : BitVec 5)
  | tzero (u : UnitId) (td : BitVec 3)
  | badd (u : UnitId) (rd ra rb : BitVec 5) (sz : BitVec 2) (imm : W32)
  | bfadd (u : UnitId) (rd ra rb : BitVec 5) (imm : W32)
  | bswap (u : UnitId) (rd ra rb : BitVec 5) (sz : BitVec 2) (imm : W32)
  | vadd (u : UnitId) (eng : BitVec 2) (vd va vb : BitVec 5) (pred : BitVec 3) (pneg : Bool)
  | vsub (u : UnitId) (eng : BitVec 2) (vd va vb : BitVec 5) (pred : BitVec 3) (pneg : Bool)
  | vmul (u : UnitId) (eng : BitVec 2) (vd va vb : BitVec 5) (pred : BitVec 3) (pneg : Bool)
  | vfma (u : UnitId) (eng : BitVec 2) (vd va vb vc : BitVec 5) (pred : BitVec 3) (pneg : Bool)
  | vmax (u : UnitId) (eng : BitVec 2) (vd va vb : BitVec 5) (pred : BitVec 3) (pneg : Bool)
  | vmin (u : UnitId) (eng : BitVec 2) (vd va vb : BitVec 5) (pred : BitVec 3) (pneg : Bool)
  | vbcast (u : UnitId) (eng : BitVec 2) (vd sa : BitVec 5) (pred : BitVec 3) (pneg : Bool)
  | vsel (u : UnitId) (eng : BitVec 2) (vd va vb : BitVec 5) (pred : BitVec 3) (pneg : Bool)
  | vcmpCc (u : UnitId) (eng : BitVec 2) (pd va vb : BitVec 5) (pred : BitVec 3) (pneg : Bool) (fn : BitVec 6)
  | vmovS (u : UnitId) (eng : BitVec 2) (sd va : BitVec 5) (lane : BitVec 16)
  | vins (u : UnitId) (eng : BitVec 2) (vd sa : BitVec 5) (lane : BitVec 16)
  | vtrow (u : UnitId) (eng : BitVec 2) (vd ta tb : BitVec 5) (row : BitVec 16)
  | pand (u : UnitId) (eng : BitVec 2) (pd pa pb : BitVec 5)
  | por (u : UnitId) (eng : BitVec 2) (pd pa pb : BitVec 5)
  | pnot (u : UnitId) (eng : BitVec 2) (pd pa : BitVec 5)
  | vexp (u : UnitId) (eng : BitVec 2) (vd va : BitVec 5) (pred : BitVec 3) (pneg : Bool)
  | vrcp (u : UnitId) (eng : BitVec 2) (vd va : BitVec 5) (pred : BitVec 3) (pneg : Bool)
  | vredmax (u : UnitId) (eng : BitVec 2) (vd va : BitVec 5) (pred : BitVec 3) (pneg : Bool)
  | vredsum (u : UnitId) (eng : BitVec 2) (vd va : BitVec 5) (pred : BitVec 3) (pneg : Bool)
  | vredamax (u : UnitId) (eng : BitVec 2) (vd va : BitVec 5) (pred : BitVec 3) (pneg : Bool)
  | mma (u : UnitId) (td : BitVec 3) (sa sb sc : BitVec 5) (mode : BitVec 4) (kblk : BitVec 6) (acc xb trb : Bool)
  | tscale (u : UnitId) (td : BitVec 3) (sa : BitVec 5)
  | tadd (u : UnitId) (td : BitVec 3) (ta : BitVec 5)
  | vq (u : UnitId) (eng : BitVec 2) (vd va : BitVec 5) (fn : BitVec 6)
  | vdq (u : UnitId) (eng : BitVec 2) (vd va : BitVec 5) (fn : BitVec 6)
  | vqerr (u : UnitId) (eng : BitVec 2) (vd va : BitVec 5) (fn : BitVec 6)
  | abias (u : UnitId) (eng : BitVec 2) (vd va sb sc : BitVec 5) (pred : BitVec 3) (pneg : Bool)
  | astat (u : UnitId) (eng : BitVec 2) (vd va vb : BitVec 5) (pred : BitVec 3) (pneg : Bool)
  | aprune (u : UnitId) (eng : BitVec 2) (vd va sb : BitVec 5) (pred : BitVec 3) (pneg : Bool)
  | cpin (u : UnitId) (ctr : BitVec 4) (sa sb sc : BitVec 5) (cls : BitVec 3)
  | cpout (u : UnitId) (ctr : BitVec 4) (sa sb sc : BitVec 5) (cls : BitVec 3) (fn : BitVec 6) (imm : BitVec 16)
  | cppp (u : UnitId) (ctr : BitVec 4) (sa sb sc : BitVec 5) (cls : BitVec 3)
  | patom (u : UnitId) (ctr : BitVec 4) (sa sb sc : BitVec 5) (fn : BitVec 6)
  | nmu (u : UnitId) (ctr : BitVec 4) (sa sb : BitVec 5)
  | wacq (u : UnitId) (sa sb : BitVec 5) (win : BitVec 16)
  | wrel (u : UnitId) (sb : BitVec 5) (win : BitVec 16)
  | put (u : UnitId) (eng : BitVec 2) (ch rb : BitVec 5) (imm : W32)
  | take (u : UnitId) (eng : BitVec 2) (ch rb : BitVec 5) (imm : W32)
  | wait (u : UnitId) (eng : BitVec 2) (rd ctr rb : BitVec 5) (imm : W32)
  | aset (u : UnitId) (ctr rb : BitVec 5) (imm : W32)
  | aget (u : UnitId) (rd ctr : BitVec 5)
  | rake (u : UnitId) (ctr : BitVec 4) (sa : BitVec 5)
  | sieve (u : UnitId) (ctr : BitVec 4) (sa : BitVec 5)
  | rpart (u : UnitId) (ctr : BitVec 4) (sa : BitVec 5) (grp : BitVec 16)
  | sappend (u : UnitId) (ctr : BitVec 4) (sa sb : BitVec 5)
  | sblk (u : UnitId) (sa sb sc : BitVec 5)
  | sinfo (u : UnitId) (sa : BitVec 5) (n : BitVec 16)
  | sprune (u : UnitId) (ctr : BitVec 4) (sa : BitVec 5)
  | ropen (u : UnitId) (ctr : BitVec 4) (sa sb : BitVec 5)
  | rclose (u : UnitId) (ctr : BitVec 4) (sa sb sc : BitVec 5)
  | rpub (u : UnitId) (ctr : BitVec 4) (sa sb sc : BitVec 5) (fn : BitVec 6)
  | xcfg (u : UnitId) (sa sb : BitVec 5)
  | xstat (u : UnitId) (sa : BitVec 5)
  | rdsctx (u : UnitId) (rd rb : BitVec 5) (imm : W32)
  | rdpstat (u : UnitId) (rd : BitVec 5)
  | wrpstat (u : UnitId) (rb : BitVec 5) (imm : W32)
  | rdflt (u : UnitId) (rd : BitVec 5)
  | rdtime (u : UnitId) (rd : BitVec 5)
  | rdwrate (u : UnitId) (rd : BitVec 5)
  | rgrd (u : UnitId) (rd ra : BitVec 5) (sz : BitVec 2) (imm : W32)
  | rgwr (u : UnitId) (ra rb : BitVec 5) (sz : BitVec 2) (imm : W32)
  | undefOp (u : UnitId) (w : W64)
  -- start-up, resets and firmware (chapters 22 and 23)
  | powerOn
  | timeBaseLock
  | startUpMemoryDone (failedStacks : List (Nat × Nat))
  | startUpMarchDone (c : Nat) (clusterRows : List (Nat × Nat)) (coreRows : List (Nat × Nat × Nat))
  | powerOff
  | endpointReset
  | pf0Flr
  | vfFlr (a : Nat)
  | tdiUnlock (a : Nat)
  | reload (who : Requester) (v : Nat)
  | commitSvn (who : Requester)
  | registerWrite (who : Requester) (off size val : Nat)
  | rcRead (who : Requester) (off size : Nat)
  | timNowRead (who : Requester)
  | genIntWrite (who : Requester) (v : Nat)
  -- time, supplies and power (chapters 2 and 24)
  | alertHoldExpiry (block : Nat)
  | measuringWindowEnd (rates : List Nat)
  | dieSyncLost (skewNs : Nat)
  | supplyMonitorSample (site mv : Nat) (temp : Int)
  | vddAonOutOfRange
  | vddRetLoss
  | powerSample (rails : List (Nat × Nat))
  | avsUpdate
  | avsStep
  | refclkLoss
  | refclkReturn
  | tamperAssert
  -- the Trellis and the ports (chapters 3 and 5)
  | cellUncorrectable (die : Nat) (frame : Option Nat)
  | portEnable (p : Nat)
  | portDisable (p : Nat)
  | trainingFramesDetected (p lanes : Nat)
  | laneTrainingDone (p : Nat) (lanes : List LaneResult)
  | laneMapAgreed (p partnerGood partnerWidth : Nat)
  | measureDone (p rttUi : Nat)
  | capabilityReceived (p : Nat) (blocks : List (List Nat))
  | portAccept (p : Nat)
  | bringupStepTimeout (p : Nat)
  | portRetrain (p : Nat)
  | laneDegrading (lane : Nat) (cause : DegradeCause)
  | lossOfSignal (lane : Nat)
  | uncorrectableCodeword (lane : Nat) (frame : Option Nat)
  | resyncMarker (p cls senderCells : Nat)
  | partnerCreditReceived (p cls cells : Nat)
  | frameAdmission (ingress : TPort) (f : Frame)
  | frameTailArrival (die id : Nat) (payload : List Byte) (damaged : Bool)
  | egressSend (port : TPort)
  | trlPortLlWrite (p v : Nat)
  -- memory frames at the home and the device's own requests (chapter 4)
  | read (die : Nat) (src : TPort) (f : Frame)
  | write (f : Frame)
  | atomic (die : Nat) (src : TPort) (f : Frame)
  | combineEntryGrant (die entry : Nat)
  | cowCopyDone (page : Nat)
  | readResp (f : Frame)
  | writeAck (f : Frame)
  | copyDataPush (f : Frame)
  | copyDataPull (f : Frame)
  | evictNotice (f : Frame)
  | nak (f : Frame)
  | requestTimeout (tag : Nat)
  | invoke (f : Frame)
  | invokeAssemblyTimeout (core : Nat)
  | warm (f : Frame)
  | warmHoldExpiry (session : Nat)
  | lend (f : Frame)
  | withdraw (f : Frame)
  | withdrawComplete (entry : Nat)
  -- coherence (chapter 9)
  | rdShared (f : Frame)
  | rdOwn (f : Frame)
  | upgrade (f : Frame)
  | snoopResp (f : Frame)
  | writeback (f : Frame)
  | snoopTimeout (tag : Nat)
  | reclaim (agent : Nat)
  | reclaimWalkDone (agent : Nat)
  | cohAgentWrite (agent v : Nat)
  | recall (w : Nat)
  | recallDone (w : Nat)
  -- reduction, membership and mirror frames (chapters 17 and 20)
  | reducePart (f : Frame)
  | heartbeat (f : Frame)
  | suspect (f : Frame)
  | propose (f : Frame)
  | accept (f : Frame)
  | reject (f : Frame)
  | commit (f : Frame)
  | epochJoin (f : Frame)
  | fetch (f : Frame)
  | map (f : Frame)
  | pushRow (f : Frame)
  | pushRecord (f : Frame)
  | pushClose (f : Frame)
  | pushCopy (f : Frame)
  | pushCopyDone (f : Frame)
  -- pool memory, tiers and objects (chapter 6)
  | memSpanWrite (i v : Nat)
  | stackFailure (stack channel : Nat)
  | cxlEnable (link : Nat)
  | cxlLinkReady (link : Nat) (found : CxlFinding)
  | cxlDisable (link : Nat)
  | cxlDrainDone (link : Nat)
  | cxlLinkFailure (link : Nat)
  | objectCreate (w : Nat)
  | objectDestroy (w : Nat)
  | setPolicy (w : Nat)
  | promote (w : Nat)
  | demote (w : Nat)
  | window (w : Nat)
  | pageCopyDone (page : Nat)
  | windowLayerLoaded (win slot : Nat)
  -- scratchpad banks (chapter 7)
  | bankOwnershipWrite (bank : BankId) (v : Nat)
  | bankHandoverDone (bank : BankId)
  | coldFrameEntry (bank : BankId)
  | coldFrameWakeDone (bank : BankId)
  | marchStart (c v : Nat)
  | marchDone (c : Nat) (failRows uncorrWords : List Nat)
  | tbtStart (v : Nat)
  | tbtDone (failUnit : Option Nat)
  -- near-memory units (chapter 8)
  | nmuFill (src : NmuSrc)
  | nmuCopy (src : NmuSrc)
  | nmuCompare (src : NmuSrc)
  | nmuReduce (src : NmuSrc)
  | nmuAtomic (src : NmuSrc)
  | nmuBurstGrant (nmu cmd : Nat)
  | nmuBurstEnd (nmu : Nat)
  | refreshDue (nmu : Nat)
  | nmuCommandComplete (cmd : Nat)
  -- versioned regions (chapter 10)
  | createRegion (w : Nat)
  | destroyRegion (w : Nat)
  | regionOpen (w : Nat)
  | regionClose (w : Nat)
  | versionRetireDone (r slot : Nat)
  | publish (w : Nat)
  | publishRecallDone (r : Nat)
  -- programs and invocations (chapter 11)
  | load (w : Nat)
  | loadComplete (w : Nat)
  | unload (w : Nat)
  | dispatch (core : Nat)
  | resultSend (core : Nat)
  | runLimitExpiry (core : Nat)
  -- sessions (chapter 15)
  | sessionCreate (w : Nat)
  | sessionClose (w : Nat)
  | sessionCloseComplete (session : Nat)
  | setPlan (w : Nat)
  | sessionRead (w : Nat)
  | pruneRecordApply (session : Nat)
  -- expanders, Rake, Sieve and reduce engine (chapters 16 and 17)
  | expanderBlockDecoded (core : Nat)
  | expEgrWrite (i v : Nat)
  | rksGrpWrite (g v : Nat)
  | abandon (g : Nat)
  | roundTimeout (g : Nat)
  | rakeRowComplete (c : Nat)
  | sieveComplete (c : Nat)
  -- allotments (chapter 18)
  | altEnable (a : Nat)
  | altDisable (a : Nat)
  | allotmentResetStart (a : Nat)
  | allotmentResetEnd (a : Nat)
  | notifyPop (a : Nat)
  | notifyTokenRefill (a : Nat)
  | vectorUnmask (entry : Nat)
  | mapInstall
  | drainWindowEnd
  -- security (chapter 19)
  | lifecycleDeploy (who : Requester) (v : Nat)
  | lifecycleReturn (who : Requester) (v : Nat)
  | returnFillsDone
  | getVersion (via : SpdmVia)
  | getCapabilities (via : SpdmVia) (msg : List Byte)
  | negotiateAlgorithms (via : SpdmVia) (msg : List Byte)
  | getDigests (via : SpdmVia) (msg : List Byte)
  | getCertificate (via : SpdmVia) (slot off len : Nat)
  | challenge (via : SpdmVia) (msg : List Byte)
  | getMeasurements (via : SpdmVia) (index : Nat) (signed : Bool) (msg : List Byte)
  | keyExchange (via : SpdmVia) (ek : List Byte) (msg : List Byte)
  | finish (via : SpdmVia) (requesterPk : List Byte) (proof : List Byte)
  | spdmHeartbeat (via : SpdmVia)
  | keyUpdate (via : SpdmVia) (op : Nat)
  | endSession (via : SpdmVia)
  | chunkSend (via : SpdmVia) (seq : Nat) (last : Bool) (chunk : List Byte)
  | chunkGet (via : SpdmVia) (seq : Nat)
  | getReport (via : SpdmVia) (a : Nat) (nonce : List Byte)
  | provisionFabric (via : SpdmVia) (a gen : Nat) (key : List Byte)
  | roll (via : SpdmVia) (a : Nat)
  | retireOld (via : SpdmVia) (a : Nat)
  | signatureDone
  | spdmAnswerExpiry (ep : Nat)
  | tenantRemove (who : Requester) (a : Nat)
  | credProgram (i : Nat)
  | credRevoke (i : Nat)
  | ifrHello (lane : Nat) (nonce ek : List Byte) (cred : Nat)
  | ifrAuth (session : Nat) (sig : List Byte)
  | ifrAuthTimeout (session : Nat)
  | ifrClose (session : Nat)
  | ifrSessionIdle (session : Nat)
  | ifrRegRead (session seq off size : Nat)
  | ifrRegWrite (session seq off size val : Nat)
  | ifrAlmanacRead (session seq off len : Nat)
  | ifrFwReload (session seq : Nat) (off : Nat) (chunk : List Byte) (start : Bool)
  | ifrAllotRemove (session seq a : Nat)
  | ifrCredAdd (session seq slot : Nat) (pk : List Byte) (role : Nat)
  | ifrCredRevoke (session seq slot : Nat)
  | ifrLifecycle (session seq target confirm : Nat)
  | ifrReport (session seq a : Nat) (nonce : List Byte)
  -- membership timers and commands (chapter 20)
  | heartbeatWindow
  | deadDeclaration (i : Nat)
  | proposalPhaseExpiry
  | decideDeadline
  | found
  | join (ep : Nat)
  | joinTimeout
  | rejoin
  | sendMap
  | attach (w : Nat)
  | attachComplete (w : Nat)
  -- Almanac, weeding pass and calibration block (chapter 21)
  | almanacEvent
  | repeatWindowEnd (i : Nat)
  | checkpointTimer
  | histogramSample
  | erase (who : Requester)
  | eraseDone
  | flush
  | histClear
  | almRdData (who : Requester)
  | weedingPassStart
  | weedingUnitTest (kind unit : Nat) (result : TestResult)
  | weedingStarve
  | wdpDisable
  | calWrite (who : Requester) (v : Nat)
  -- management port and calendar time (chapter 22)
  | mgtLaneLinkUp (lane speed : Nat)
  | mgtSpeedTryExpiry (lane : Nat)
  | mgtNeighbourQuery (lane : Nat) (q : NeighbourQuery)
  | ptpMessage (lane : Nat) (msg : PtpMsg)
  | ptpMasterLost
  | ptpHoldoverExpiry
  -- the rows that close the table
  | dieSyncRegained (skewNs : Nat)
  | vddAonRestored
  | mgtLaneLinkLoss (lane : Nat)
  | tdiConfigLocked (a : Nat)
  | tdiRun (a : Nat)
  | localCopyArrival (copy bytes : Nat)
  | snapshotWindow
  | calibrationWriteDone
  | reloadDone
deriving DecidableEq, Repr

end Sys2Proof
end

