-- ==== Sys2Proof/Decode.lean ====
section
/-! DEFINITION. The table of operations gives no row any bits, so no table word spells a command. The instructions of a
Clepor program have 64-bit words (R243, R244): their encoder and their decoder, which is total and refuses every word
whose MAJOR and MINOR pair is undefined. -/

namespace Sys2Proof

/-- The command that a word of the table spells: none, since the table gives its rows no bits. -/
def decodeTableWord (_nbits _w : Nat) : Option Instr := none

/-! ## Instruction formats (R243): bits left out of a format are 0 -/

def bit1 (b : Bool) : BitVec 1 := if b then 1 else 0
def bitAt (w : W64) (i : Nat) : Bool := w.getLsbD i
def majorOf (w : W64) : Nat := (w.extractLsb' 58 6).toNat
def minorOf (w : W64) : Nat := (w.extractLsb' 52 6).toNat

/-- MAJOR, MINOR, ENG and the 50 bits of a format. -/
def encWord (major minor : BitVec 6) (eng : BitVec 2) (rest : BitVec 50) : W64 := (major ++ minor ++ eng ++ rest).cast rfl

def encS (major minor : BitVec 6) (eng : BitVec 2) (rd ra rb : BitVec 5) (sz : BitVec 2) (imm : W32) : W64 :=
  encWord major minor eng (rd ++ ra ++ rb ++ sz ++ (0 : BitVec 1) ++ imm)

def encL (major minor : BitVec 6) (rd : BitVec 5) (imm : BitVec 45) : W64 := encWord major minor 0 (rd ++ imm)

def encB (major minor : BitVec 6) (ra rb : BitVec 5) (cond : BitVec 3) (off : W32) : W64 :=
  encWord major minor 0 (ra ++ rb ++ cond ++ (0 : BitVec 5) ++ off)

def encV (major minor : BitVec 6) (eng : BitVec 2) (vd va vb : BitVec 5) (pred : BitVec 3) (vc : BitVec 5) (pneg : Bool)
    (fn : BitVec 6) (imm : BitVec 16) : W64 :=
  encWord major minor eng (vd ++ va ++ vb ++ pred ++ vc ++ bit1 pneg ++ fn ++ (0 : BitVec 4) ++ imm)

def encM (major minor : BitVec 6) (td : BitVec 3) (sa sb sc : BitVec 5) (mode : BitVec 4) (kblk : BitVec 6)
    (acc xb trb : Bool) : W64 :=
  encWord major minor 0
    (td ++ sa ++ sb ++ sc ++ mode ++ kblk ++ bit1 acc ++ bit1 xb ++ bit1 trb ++ (0 : BitVec 19))

def encD (major minor : BitVec 6) (sa sb sc : BitVec 5) (ctr : BitVec 4) (cls : BitVec 3) (fn : BitVec 6)
    (imm : BitVec 16) : W64 :=
  encWord major minor 0 (sa ++ sb ++ sc ++ (0 : BitVec 3) ++ ctr ++ cls ++ fn ++ (0 : BitVec 3) ++ imm)

/-- The word of an instruction; a command that is no instruction has none. -/
def encodeInstr : Instr → Option W64
  | .add _ rd ra rb imm => some (encS 1 0 0 rd ra rb 0 imm)
  | .sub _ rd ra rb imm => some (encS 1 1 0 rd ra rb 0 imm)
  | .mul _ rd ra rb imm => some (encS 1 2 0 rd ra rb 0 imm)
  | .div _ rd ra rb imm => some (encS 1 3 0 rd ra rb 0 imm)
  | .and _ rd ra rb imm => some (encS 1 4 0 rd ra rb 0 imm)
  | .or _ rd ra rb imm => some (encS 1 5 0 rd ra rb 0 imm)
  | .xor _ rd ra rb imm => some (encS 1 6 0 rd ra rb 0 imm)
  | .sll _ rd ra rb imm => some (encS 1 7 0 rd ra rb 0 imm)
  | .srl _ rd ra rb imm => some (encS 1 8 0 rd ra rb 0 imm)
  | .sra _ rd ra rb imm => some (encS 1 9 0 rd ra rb 0 imm)
  | .slt _ rd ra rb imm => some (encS 1 10 0 rd ra rb 0 imm)
  | .sltu _ rd ra rb imm => some (encS 1 11 0 rd ra rb 0 imm)
  | .li _ rd imm => some (encL 2 0 rd imm)
  | .lih _ rd imm => some (encL 2 1 rd imm)
  | .bCc _ ra rb cond off => some (encB 3 0 ra rb cond off)
  | .bpany _ p off => some (encB 3 1 0 0 p off)
  | .bl _ ra off => some (encB 3 2 ra 0 0 off)
  | .jr _ ra off => some (encB 3 3 ra 0 0 off)
  | .endProg _ ra rb => some (encB 3 4 ra rb 0 0)
  | .fault _ off => some (encB 3 5 0 0 0 off)
  | .nop _ => some (encB 3 6 0 0 0 0)
  | .ld _ rd ra sz imm => some (encS 4 0 0 rd ra 0 sz imm)
  | .st _ ra rb sz imm => some (encS 4 1 0 0 ra rb sz imm)
  | .vld _ eng vd va n => some (encV 5 0 eng vd va 0 0 0 false 0 n)
  | .vst _ eng vd va n => some (encV 5 1 eng vd va 0 0 0 false 0 n)
  | .vldH _ eng vd va => some (encV 5 2 eng vd va 0 0 0 false 0 0)
  | .vstH _ eng vd va => some (encV 5 3 eng vd va 0 0 0 false 0 0)
  | .tld _ td sa => some (encM 6 0 td sa 0 0 0 0 false false false)
  | .tst _ td sa => some (encM 6 1 td sa 0 0 0 0 false false false)
  | .tstH _ td sa => some (encM 6 2 td sa 0 0 0 0 false false false)
  | .tzero _ td => some (encM 6 3 td 0 0 0 0 0 false false false)
  | .badd _ rd ra rb sz imm => some (encS 7 0 0 rd ra rb sz imm)
  | .bfadd _ rd ra rb imm => some (encS 7 1 0 rd ra rb 0 imm)
  | .bswap _ rd ra rb sz imm => some (encS 7 2 0 rd ra rb sz imm)
  | .vadd _ eng vd va vb pred pneg => some (encV 8 0 eng vd va vb pred 0 pneg 0 0)
  | .vsub _ eng vd va vb pred pneg => some (encV 8 1 eng vd va vb pred 0 pneg 0 0)
  | .vmul _ eng vd va vb pred pneg => some (encV 8 2 eng vd va vb pred 0 pneg 0 0)
  | .vfma _ eng vd va vb vc pred pneg => some (encV 8 3 eng vd va vb pred vc pneg 0 0)
  | .vmax _ eng vd va vb pred pneg => some (encV 8 4 eng vd va vb pred 0 pneg 0 0)
  | .vmin _ eng vd va vb pred pneg => some (encV 8 5 eng vd va vb pred 0 pneg 0 0)
  | .vbcast _ eng vd sa pred pneg => some (encV 8 6 eng vd sa 0 pred 0 pneg 0 0)
  | .vsel _ eng vd va vb pred pneg => some (encV 8 7 eng vd va vb pred 0 pneg 0 0)
  | .vcmpCc _ eng pd va vb pred pneg fn => some (encV 8 8 eng pd va vb pred 0 pneg fn 0)
  | .vmovS _ eng sd va lane => some (encV 8 9 eng sd va 0 0 0 false 0 lane)
  | .vins _ eng vd sa lane => some (encV 8 10 eng vd sa 0 0 0 false 0 lane)
  | .vtrow _ eng vd ta tb row => some (encV 8 11 eng vd ta tb 0 0 false 0 row)
  | .pand _ eng pd pa pb => some (encV 8 12 eng pd pa pb 0 0 false 0 0)
  | .por _ eng pd pa pb => some (encV 8 13 eng pd pa pb 0 0 false 0 0)
  | .pnot _ eng pd pa => some (encV 8 14 eng pd pa 0 0 0 false 0 0)
  | .vexp _ eng vd va pred pneg => some (encV 9 0 eng vd va 0 pred 0 pneg 0 0)
  | .vrcp _ eng vd va pred pneg => some (encV 9 1 eng vd va 0 pred 0 pneg 0 0)
  | .vredmax _ eng vd va pred pneg => some (encV 9 2 eng vd va 0 pred 0 pneg 0 0)
  | .vredsum _ eng vd va pred pneg => some (encV 9 3 eng vd va 0 pred 0 pneg 0 0)
  | .vredamax _ eng vd va pred pneg => some (encV 9 4 eng vd va 0 pred 0 pneg 0 0)
  | .mma _ td sa sb sc mode kblk acc xb trb => some (encM 10 0 td sa sb sc mode kblk acc xb trb)
  | .tscale _ td sa => some (encM 10 1 td sa 0 0 0 0 false false false)
  | .tadd _ td ta => some (encM 10 2 td ta 0 0 0 0 false false false)
  | .vq _ eng vd va fn => some (encV 11 0 eng vd va 0 0 0 false fn 0)
  | .vdq _ eng vd va fn => some (encV 11 1 eng vd va 0 0 0 false fn 0)
  | .vqerr _ eng vd va fn => some (encV 11 2 eng vd va 0 0 0 false fn 0)
  | .abias _ eng vd va sb sc pred pneg => some (encV 12 0 eng vd va sb pred sc pneg 0 0)
  | .astat _ eng vd va vb pred pneg => some (encV 12 1 eng vd va vb pred 0 pneg 0 0)
  | .aprune _ eng vd va sb pred pneg => some (encV 12 2 eng vd va sb pred 0 pneg 0 0)
  | .cpin _ ctr sa sb sc cls => some (encD 13 0 sa sb sc ctr cls 0 0)
  | .cpout _ ctr sa sb sc cls fn imm => some (encD 13 1 sa sb sc ctr cls fn imm)
  | .cppp _ ctr sa sb sc cls => some (encD 13 2 sa sb sc ctr cls 0 0)
  | .patom _ ctr sa sb sc fn => some (encD 13 3 sa sb sc ctr 0 fn 0)
  | .nmu _ ctr sa sb => some (encD 13 4 sa sb 0 ctr 0 0 0)
  | .wacq _ sa sb win => some (encD 13 5 sa sb 0 0 0 0 win)
  | .wrel _ sb win => some (encD 13 6 0 sb 0 0 0 0 win)
  | .put _ eng ch rb imm => some (encS 14 0 eng 0 ch rb 0 imm)
  | .take _ eng ch rb imm => some (encS 14 1 eng 0 ch rb 0 imm)
  | .wait _ eng rd ctr rb imm => some (encS 14 2 eng rd ctr rb 0 imm)
  | .aset _ ctr rb imm => some (encS 14 3 0 0 ctr rb 0 imm)
  | .aget _ rd ctr => some (encS 14 4 0 rd ctr 0 0 0)
  | .rake _ ctr sa => some (encD 15 0 sa 0 0 ctr 0 0 0)
  | .sieve _ ctr sa => some (encD 15 1 sa 0 0 ctr 0 0 0)
  | .rpart _ ctr sa grp => some (encD 15 2 sa 0 0 ctr 0 0 grp)
  | .sappend _ ctr sa sb => some (encD 16 0 sa sb 0 ctr 0 0 0)
  | .sblk _ sa sb sc => some (encD 16 1 sa sb sc 0 0 0 0)
  | .sinfo _ sa n => some (encD 16 2 sa 0 0 0 0 0 n)
  | .sprune _ ctr sa => some (encD 16 3 sa 0 0 ctr 0 0 0)
  | .ropen _ ctr sa sb => some (encD 16 4 sa sb 0 ctr 0 0 0)
  | .rclose _ ctr sa sb sc => some (encD 16 5 sa sb sc ctr 0 0 0)
  | .rpub _ ctr sa sb sc fn => some (encD 16 6 sa sb sc ctr 0 fn 0)
  | .xcfg _ sa sb => some (encD 17 0 sa sb 0 0 0 0 0)
  | .xstat _ sa => some (encD 17 1 sa 0 0 0 0 0 0)
  | .rdsctx _ rd rb imm => some (encS 18 0 0 rd 0 rb 0 imm)
  | .rdpstat _ rd => some (encS 18 1 0 rd 0 0 0 0)
  | .wrpstat _ rb imm => some (encS 18 2 0 0 0 rb 0 imm)
  | .rdflt _ rd => some (encS 18 3 0 rd 0 0 0 0)
  | .rdtime _ rd => some (encS 18 4 0 rd 0 0 0 0)
  | .rdwrate _ rd => some (encS 18 5 0 rd 0 0 0 0)
  | .rgrd _ rd ra sz imm => some (encS 19 0 0 rd ra 0 sz imm)
  | .rgwr _ ra rb sz imm => some (encS 19 1 0 0 ra rb sz imm)
  | .undefOp _ w => some w
  | _ => none

/-! ## Decoding -/

/-- MAJOR 0x1. -/
def decScalar (u : UnitId) (minor : Nat) (w : W64) : Option Instr :=
  match minor with
  | 0 => some (.add u (w.extractLsb' 45 5) (w.extractLsb' 40 5) (w.extractLsb' 35 5) (w.extractLsb' 0 32))
  | 1 => some (.sub u (w.extractLsb' 45 5) (w.extractLsb' 40 5) (w.extractLsb' 35 5) (w.extractLsb' 0 32))
  | 2 => some (.mul u (w.extractLsb' 45 5) (w.extractLsb' 40 5) (w.extractLsb' 35 5) (w.extractLsb' 0 32))
  | 3 => some (.div u (w.extractLsb' 45 5) (w.extractLsb' 40 5) (w.extractLsb' 35 5) (w.extractLsb' 0 32))
  | 4 => some (.and u (w.extractLsb' 45 5) (w.extractLsb' 40 5) (w.extractLsb' 35 5) (w.extractLsb' 0 32))
  | 5 => some (.or u (w.extractLsb' 45 5) (w.extractLsb' 40 5) (w.extractLsb' 35 5) (w.extractLsb' 0 32))
  | 6 => some (.xor u (w.extractLsb' 45 5) (w.extractLsb' 40 5) (w.extractLsb' 35 5) (w.extractLsb' 0 32))
  | 7 => some (.sll u (w.extractLsb' 45 5) (w.extractLsb' 40 5) (w.extractLsb' 35 5) (w.extractLsb' 0 32))
  | 8 => some (.srl u (w.extractLsb' 45 5) (w.extractLsb' 40 5) (w.extractLsb' 35 5) (w.extractLsb' 0 32))
  | 9 => some (.sra u (w.extractLsb' 45 5) (w.extractLsb' 40 5) (w.extractLsb' 35 5) (w.extractLsb' 0 32))
  | 10 => some (.slt u (w.extractLsb' 45 5) (w.extractLsb' 40 5) (w.extractLsb' 35 5) (w.extractLsb' 0 32))
  | 11 => some (.sltu u (w.extractLsb' 45 5) (w.extractLsb' 40 5) (w.extractLsb' 35 5) (w.extractLsb' 0 32))
  | _ => none

/-- MAJOR 0x2. -/
def decImm (u : UnitId) (minor : Nat) (w : W64) : Option Instr :=
  match minor with
  | 0 => some (.li u (w.extractLsb' 45 5) (w.extractLsb' 0 45))
  | 1 => some (.lih u (w.extractLsb' 45 5) (w.extractLsb' 0 45))
  | _ => none

/-- MAJOR 0x3. -/
def decBranch (u : UnitId) (minor : Nat) (w : W64) : Option Instr :=
  match minor with
  | 0 => some (.bCc u (w.extractLsb' 45 5) (w.extractLsb' 40 5) (w.extractLsb' 37 3) (w.extractLsb' 0 32))
  | 1 => some (.bpany u (w.extractLsb' 37 3) (w.extractLsb' 0 32))
  | 2 => some (.bl u (w.extractLsb' 45 5) (w.extractLsb' 0 32))
  | 3 => some (.jr u (w.extractLsb' 45 5) (w.extractLsb' 0 32))
  | 4 => some (.endProg u (w.extractLsb' 45 5) (w.extractLsb' 40 5))
  | 5 => some (.fault u (w.extractLsb' 0 32))
  | 6 => some (.nop u)
  | _ => none

/-- MAJOR 0x4. -/
def decSpad (u : UnitId) (minor : Nat) (w : W64) : Option Instr :=
  match minor with
  | 0 => some (.ld u (w.extractLsb' 45 5) (w.extractLsb' 40 5) (w.extractLsb' 33 2) (w.extractLsb' 0 32))
  | 1 => some (.st u (w.extractLsb' 40 5) (w.extractLsb' 35 5) (w.extractLsb' 33 2) (w.extractLsb' 0 32))
  | _ => none

/-- MAJOR 0x5. -/
def decVecSpad (u : UnitId) (minor : Nat) (w : W64) : Option Instr :=
  match minor with
  | 0 => some (.vld u (w.extractLsb' 50 2) (w.extractLsb' 45 5) (w.extractLsb' 40 5) (w.extractLsb' 0 16))
  | 1 => some (.vst u (w.extractLsb' 50 2) (w.extractLsb' 45 5) (w.extractLsb' 40 5) (w.extractLsb' 0 16))
  | 2 => some (.vldH u (w.extractLsb' 50 2) (w.extractLsb' 45 5) (w.extractLsb' 40 5))
  | 3 => some (.vstH u (w.extractLsb' 50 2) (w.extractLsb' 45 5) (w.extractLsb' 40 5))
  | _ => none

/-- MAJOR 0x6. -/
def decTileSpad (u : UnitId) (minor : Nat) (w : W64) : Option Instr :=
  match minor with
  | 0 => some (.tld u (w.extractLsb' 47 3) (w.extractLsb' 42 5))
  | 1 => some (.tst u (w.extractLsb' 47 3) (w.extractLsb' 42 5))
  | 2 => some (.tstH u (w.extractLsb' 47 3) (w.extractLsb' 42 5))
  | 3 => some (.tzero u (w.extractLsb' 47 3))
  | _ => none

/-- MAJOR 0x7. -/
def decBankAtomic (u : UnitId) (minor : Nat) (w : W64) : Option Instr :=
  match minor with
  | 0 => some (.badd u (w.extractLsb' 45 5) (w.extractLsb' 40 5) (w.extractLsb' 35 5) (w.extractLsb' 33 2) (w.extractLsb' 0 32))
  | 1 => some (.bfadd u (w.extractLsb' 45 5) (w.extractLsb' 40 5) (w.extractLsb' 35 5) (w.extractLsb' 0 32))
  | 2 => some (.bswap u (w.extractLsb' 45 5) (w.extractLsb' 40 5) (w.extractLsb' 35 5) (w.extractLsb' 33 2) (w.extractLsb' 0 32))
  | _ => none

/-- MAJOR 0x8. -/
def decVector (u : UnitId) (minor : Nat) (w : W64) : Option Instr :=
  match minor with
  | 0 => some (.vadd u (w.extractLsb' 50 2) (w.extractLsb' 45 5) (w.extractLsb' 40 5) (w.extractLsb' 35 5) (w.extractLsb' 32 3) (bitAt w 26))
  | 1 => some (.vsub u (w.extractLsb' 50 2) (w.extractLsb' 45 5) (w.extractLsb' 40 5) (w.extractLsb' 35 5) (w.extractLsb' 32 3) (bitAt w 26))
  | 2 => some (.vmul u (w.extractLsb' 50 2) (w.extractLsb' 45 5) (w.extractLsb' 40 5) (w.extractLsb' 35 5) (w.extractLsb' 32 3) (bitAt w 26))
  | 3 => some (.vfma u (w.extractLsb' 50 2) (w.extractLsb' 45 5) (w.extractLsb' 40 5) (w.extractLsb' 35 5) (w.extractLsb' 27 5) (w.extractLsb' 32 3) (bitAt w 26))
  | 4 => some (.vmax u (w.extractLsb' 50 2) (w.extractLsb' 45 5) (w.extractLsb' 40 5) (w.extractLsb' 35 5) (w.extractLsb' 32 3) (bitAt w 26))
  | 5 => some (.vmin u (w.extractLsb' 50 2) (w.extractLsb' 45 5) (w.extractLsb' 40 5) (w.extractLsb' 35 5) (w.extractLsb' 32 3) (bitAt w 26))
  | 6 => some (.vbcast u (w.extractLsb' 50 2) (w.extractLsb' 45 5) (w.extractLsb' 40 5) (w.extractLsb' 32 3) (bitAt w 26))
  | 7 => some (.vsel u (w.extractLsb' 50 2) (w.extractLsb' 45 5) (w.extractLsb' 40 5) (w.extractLsb' 35 5) (w.extractLsb' 32 3) (bitAt w 26))
  | 8 => some (.vcmpCc u (w.extractLsb' 50 2) (w.extractLsb' 45 5) (w.extractLsb' 40 5) (w.extractLsb' 35 5) (w.extractLsb' 32 3) (bitAt w 26) (w.extractLsb' 20 6))
  | 9 => some (.vmovS u (w.extractLsb' 50 2) (w.extractLsb' 45 5) (w.extractLsb' 40 5) (w.extractLsb' 0 16))
  | 10 => some (.vins u (w.extractLsb' 50 2) (w.extractLsb' 45 5) (w.extractLsb' 40 5) (w.extractLsb' 0 16))
  | 11 => some (.vtrow u (w.extractLsb' 50 2) (w.extractLsb' 45 5) (w.extractLsb' 40 5) (w.extractLsb' 35 5) (w.extractLsb' 0 16))
  | 12 => some (.pand u (w.extractLsb' 50 2) (w.extractLsb' 45 5) (w.extractLsb' 40 5) (w.extractLsb' 35 5))
  | 13 => some (.por u (w.extractLsb' 50 2) (w.extractLsb' 45 5) (w.extractLsb' 40 5) (w.extractLsb' 35 5))
  | 14 => some (.pnot u (w.extractLsb' 50 2) (w.extractLsb' 45 5) (w.extractLsb' 40 5))
  | _ => none

/-- MAJOR 0x9. -/
def decSpecial (u : UnitId) (minor : Nat) (w : W64) : Option Instr :=
  match minor with
  | 0 => some (.vexp u (w.extractLsb' 50 2) (w.extractLsb' 45 5) (w.extractLsb' 40 5) (w.extractLsb' 32 3) (bitAt w 26))
  | 1 => some (.vrcp u (w.extractLsb' 50 2) (w.extractLsb' 45 5) (w.extractLsb' 40 5) (w.extractLsb' 32 3) (bitAt w 26))
  | 2 => some (.vredmax u (w.extractLsb' 50 2) (w.extractLsb' 45 5) (w.extractLsb' 40 5) (w.extractLsb' 32 3) (bitAt w 26))
  | 3 => some (.vredsum u (w.extractLsb' 50 2) (w.extractLsb' 45 5) (w.extractLsb' 40 5) (w.extractLsb' 32 3) (bitAt w 26))
  | 4 => some (.vredamax u (w.extractLsb' 50 2) (w.extractLsb' 45 5) (w.extractLsb' 40 5) (w.extractLsb' 32 3) (bitAt w 26))
  | _ => none

/-- MAJOR 0xa. -/
def decMatrix (u : UnitId) (minor : Nat) (w : W64) : Option Instr :=
  match minor with
  | 0 => some (.mma u (w.extractLsb' 47 3) (w.extractLsb' 42 5) (w.extractLsb' 37 5) (w.extractLsb' 32 5) (w.extractLsb' 28 4) (w.extractLsb' 22 6) (bitAt w 21) (bitAt w 20) (bitAt w 19))
  | 1 => some (.tscale u (w.extractLsb' 47 3) (w.extractLsb' 42 5))
  | 2 => some (.tadd u (w.extractLsb' 47 3) (w.extractLsb' 42 5))
  | _ => none

/-- MAJOR 0xb. -/
def decQuant (u : UnitId) (minor : Nat) (w : W64) : Option Instr :=
  match minor with
  | 0 => some (.vq u (w.extractLsb' 50 2) (w.extractLsb' 45 5) (w.extractLsb' 40 5) (w.extractLsb' 20 6))
  | 1 => some (.vdq u (w.extractLsb' 50 2) (w.extractLsb' 45 5) (w.extractLsb' 40 5) (w.extractLsb' 20 6))
  | 2 => some (.vqerr u (w.extractLsb' 50 2) (w.extractLsb' 45 5) (w.extractLsb' 40 5) (w.extractLsb' 20 6))
  | _ => none

/-- MAJOR 0xc. -/
def decAttention (u : UnitId) (minor : Nat) (w : W64) : Option Instr :=
  match minor with
  | 0 => some (.abias u (w.extractLsb' 50 2) (w.extractLsb' 45 5) (w.extractLsb' 40 5) (w.extractLsb' 35 5) (w.extractLsb' 27 5) (w.extractLsb' 32 3) (bitAt w 26))
  | 1 => some (.astat u (w.extractLsb' 50 2) (w.extractLsb' 45 5) (w.extractLsb' 40 5) (w.extractLsb' 35 5) (w.extractLsb' 32 3) (bitAt w 26))
  | 2 => some (.aprune u (w.extractLsb' 50 2) (w.extractLsb' 45 5) (w.extractLsb' 40 5) (w.extractLsb' 35 5) (w.extractLsb' 32 3) (bitAt w 26))
  | _ => none

/-- MAJOR 0xd. -/
def decFabric (u : UnitId) (minor : Nat) (w : W64) : Option Instr :=
  match minor with
  | 0 => some (.cpin u (w.extractLsb' 28 4) (w.extractLsb' 45 5) (w.extractLsb' 40 5) (w.extractLsb' 35 5) (w.extractLsb' 25 3))
  | 1 => some (.cpout u (w.extractLsb' 28 4) (w.extractLsb' 45 5) (w.extractLsb' 40 5) (w.extractLsb' 35 5) (w.extractLsb' 25 3) (w.extractLsb' 19 6) (w.extractLsb' 0 16))
  | 2 => some (.cppp u (w.extractLsb' 28 4) (w.extractLsb' 45 5) (w.extractLsb' 40 5) (w.extractLsb' 35 5) (w.extractLsb' 25 3))
  | 3 => some (.patom u (w.extractLsb' 28 4) (w.extractLsb' 45 5) (w.extractLsb' 40 5) (w.extractLsb' 35 5) (w.extractLsb' 19 6))
  | 4 => some (.nmu u (w.extractLsb' 28 4) (w.extractLsb' 45 5) (w.extractLsb' 40 5))
  | 5 => some (.wacq u (w.extractLsb' 45 5) (w.extractLsb' 40 5) (w.extractLsb' 0 16))
  | 6 => some (.wrel u (w.extractLsb' 40 5) (w.extractLsb' 0 16))
  | _ => none

/-- MAJOR 0xe. -/
def decToken (u : UnitId) (minor : Nat) (w : W64) : Option Instr :=
  match minor with
  | 0 => some (.put u (w.extractLsb' 50 2) (w.extractLsb' 40 5) (w.extractLsb' 35 5) (w.extractLsb' 0 32))
  | 1 => some (.take u (w.extractLsb' 50 2) (w.extractLsb' 40 5) (w.extractLsb' 35 5) (w.extractLsb' 0 32))
  | 2 => some (.wait u (w.extractLsb' 50 2) (w.extractLsb' 45 5) (w.extractLsb' 40 5) (w.extractLsb' 35 5) (w.extractLsb' 0 32))
  | 3 => some (.aset u (w.extractLsb' 40 5) (w.extractLsb' 35 5) (w.extractLsb' 0 32))
  | 4 => some (.aget u (w.extractLsb' 45 5) (w.extractLsb' 40 5))
  | _ => none

/-- MAJOR 0xf. -/
def decCluster (u : UnitId) (minor : Nat) (w : W64) : Option Instr :=
  match minor with
  | 0 => some (.rake u (w.extractLsb' 28 4) (w.extractLsb' 45 5))
  | 1 => some (.sieve u (w.extractLsb' 28 4) (w.extractLsb' 45 5))
  | 2 => some (.rpart u (w.extractLsb' 28 4) (w.extractLsb' 45 5) (w.extractLsb' 0 16))
  | _ => none

/-- MAJOR 0x10. -/
def decSession (u : UnitId) (minor : Nat) (w : W64) : Option Instr :=
  match minor with
  | 0 => some (.sappend u (w.extractLsb' 28 4) (w.extractLsb' 45 5) (w.extractLsb' 40 5))
  | 1 => some (.sblk u (w.extractLsb' 45 5) (w.extractLsb' 40 5) (w.extractLsb' 35 5))
  | 2 => some (.sinfo u (w.extractLsb' 45 5) (w.extractLsb' 0 16))
  | 3 => some (.sprune u (w.extractLsb' 28 4) (w.extractLsb' 45 5))
  | 4 => some (.ropen u (w.extractLsb' 28 4) (w.extractLsb' 45 5) (w.extractLsb' 40 5))
  | 5 => some (.rclose u (w.extractLsb' 28 4) (w.extractLsb' 45 5) (w.extractLsb' 40 5) (w.extractLsb' 35 5))
  | 6 => some (.rpub u (w.extractLsb' 28 4) (w.extractLsb' 45 5) (w.extractLsb' 40 5) (w.extractLsb' 35 5) (w.extractLsb' 19 6))
  | _ => none

/-- MAJOR 0x11. -/
def decExpander (u : UnitId) (minor : Nat) (w : W64) : Option Instr :=
  match minor with
  | 0 => some (.xcfg u (w.extractLsb' 45 5) (w.extractLsb' 40 5))
  | 1 => some (.xstat u (w.extractLsb' 45 5))
  | _ => none

/-- MAJOR 0x12. -/
def decSpecialReg (u : UnitId) (minor : Nat) (w : W64) : Option Instr :=
  match minor with
  | 0 => some (.rdsctx u (w.extractLsb' 45 5) (w.extractLsb' 35 5) (w.extractLsb' 0 32))
  | 1 => some (.rdpstat u (w.extractLsb' 45 5))
  | 2 => some (.wrpstat u (w.extractLsb' 35 5) (w.extractLsb' 0 32))
  | 3 => some (.rdflt u (w.extractLsb' 45 5))
  | 4 => some (.rdtime u (w.extractLsb' 45 5))
  | 5 => some (.rdwrate u (w.extractLsb' 45 5))
  | _ => none

/-- MAJOR 0x13. -/
def decRegBlock (u : UnitId) (minor : Nat) (w : W64) : Option Instr :=
  match minor with
  | 0 => some (.rgrd u (w.extractLsb' 45 5) (w.extractLsb' 40 5) (w.extractLsb' 33 2) (w.extractLsb' 0 32))
  | 1 => some (.rgwr u (w.extractLsb' 40 5) (w.extractLsb' 35 5) (w.extractLsb' 33 2) (w.extractLsb' 0 32))
  | _ => none

/-- The instruction that a unit fetches with a word: UNDEF_OP where the pair is undefined (R244). -/
def decodeInstr (u : UnitId) (w : W64) : Instr :=
  ((match majorOf w with
  | 1 => decScalar u (minorOf w) w
  | 2 => decImm u (minorOf w) w
  | 3 => decBranch u (minorOf w) w
  | 4 => decSpad u (minorOf w) w
  | 5 => decVecSpad u (minorOf w) w
  | 6 => decTileSpad u (minorOf w) w
  | 7 => decBankAtomic u (minorOf w) w
  | 8 => decVector u (minorOf w) w
  | 9 => decSpecial u (minorOf w) w
  | 10 => decMatrix u (minorOf w) w
  | 11 => decQuant u (minorOf w) w
  | 12 => decAttention u (minorOf w) w
  | 13 => decFabric u (minorOf w) w
  | 14 => decToken u (minorOf w) w
  | 15 => decCluster u (minorOf w) w
  | 16 => decSession u (minorOf w) w
  | 17 => decExpander u (minorOf w) w
  | 18 => decSpecialReg u (minorOf w) w
  | 19 => decRegBlock u (minorOf w) w
  | _ => none : Option Instr)).getD (.undefOp u w)

end Sys2Proof
end

