-- ==== Sys2Proof/Config.lean ====
section
/-! DEFINITION. What an implementation fixes and the manual does not state, as constants without a body: nothing can
be proved of their values, so a claim holds whatever they are. The assumption log lists each of them. -/

namespace Sys2Proof.Config

/-- A fresh free value: the counter `Dev.free` selects one for each use (arbitration choices of R32, values the
manual calls undefined, random numbers). -/
opaque freeNat : Nat → Nat

/-- What the hardware's own faults do to stored or carried bits: a tier-1 or tier-2 line (512 x frame + line) whose error can
be corrected or not (R124, R169), a scratchpad word (byte address / 8) likewise (R146), corrected symbols of a lane's next
codeword (R64), a word of a program store (R222). -/
inductive Upset where
  | line (key : Nat) (hard : Bool)
  | word (key : Nat) (hard : Bool)
  | symbols (lane n : Nat)
  | code (key : Nat)
deriving DecidableEq, Repr

/-- The upsets of a nanosecond, by the counter of free values and the time: which bits fail, and when, is in no rule. -/
opaque upsets : Nat → Nat → List Upset

/-- AES-256-XTS of a line under the key of a memory key slot (R167): key slot, tweak (pool address bits [55:7]), plaintext. -/
opaque xtsSeal : Nat → Nat → List Byte → List Byte

/-- The 8 system check bytes over 64 bytes of ciphertext (R167). -/
opaque checkBytes : List Byte → List Byte

/-- A byte of undefined data: which data it is, and its place (R144). -/
opaque freeByte : Nat → Nat → Byte

/-- SHAKE256 with a 512-bit output (R406, R408, R468, R478). -/
opaque shake256 : List Byte → Nat

/-- Verification under SLH-DSA-SHAKE-256s: public key, message, signature (R426, R478). -/
opaque slhVerify : Nat → List Byte → List Byte → Bool

/-- Signature under SLH-DSA-SHAKE-256s with the identity key derived from a seed (R406, R410). -/
opaque slhSign : Nat → List Byte → List Byte

/-- The public identity key derived from a seed (R406). -/
opaque slhPublic : Nat → Nat

/-- ML-KEM-1024 encapsulation: encapsulation key and randomness give the ciphertext and the shared secret. -/
opaque kemEncaps : List Byte → Nat → List Byte × Nat

/-- Key derivation: a secret and a label give a key (R412, R424). -/
opaque kdf : Nat → Nat → Nat

/-- AES-256-GCM: key, nonce, additional data and plaintext give the ciphertext and the 96-bit tag (R417). -/
opaque gcmSeal : Nat → Nat → List Byte → List Byte → List Byte × List Byte

/-- AES-256-GCM: key, nonce, additional data, ciphertext and tag give the plaintext when the tag is right (R417). -/
opaque gcmOpen : Nat → Nat → List Byte → List Byte → List Byte → Option (List Byte)

/-- SHA-384, the SPDM transcript hash (R412). -/
opaque sha384 : List Byte → Nat

/-- The certificate chain in the fuse-ROM area (R407). -/
opaque certChain : List Byte

/-- The bytes of an SPDM response, whose format the manual leaves to the SPDM standard: response and body. -/
opaque spdmBytes : Nat → List Byte → List Byte

/-- The hash that indexes the directory sets (R198), which the manual does not give. -/
opaque dirHash : Nat → Nat

/-- Which of the results that R288 admits `vexp` gives for an FP32 pattern. -/
opaque vexpPick : W32 → Nat

/-- Which of the results that R288 admits `vrcp` gives for an FP32 pattern. -/
opaque vrcpPick : W32 → Nat

/-- The element codes of a block with a NaN scale (R282, R283), which no rule states: format, values, element. -/
opaque nanCode : Nat → List W32 → Nat → Nat

/-- The digest of the accepted firmware signer that the boot ROM holds (R478). -/
opaque signerDigest : Nat

/-- The digest of the boot ROM of both Gardeners (measurement 1, R408). -/
opaque bootRomDigest : Nat

/-- Bits [62:61] of ALT_V_STATUS for a STATE and an NQ whose bits there disagree: R402's table gives them to both. -/
opaque vStatusOverlap : Nat → Nat → Nat

/-- The PCI vendor ID of Ramoskeno (R1). -/
opaque vendorId : BitVec 16

end Sys2Proof.Config
end

