-- ==== Sys2Proof/Machine/Kv.lean ====
section
/-! DEFINITION. Finite maps keyed by numbers, as lists of pairs with rising keys: how the model holds sparse tables. -/

namespace Sys2Proof.Machine

/-- A finite map from numbers, as an association list. -/
abbrev Kv (α : Type) := List (Nat × α)

/-- The entry at a key, if there is one. -/
def kvGet? {α : Type} : Kv α → Nat → Option α
  | [], _ => none
  | (k, v) :: t, j => if k = j then some v else kvGet? t j

/-- The entry at a key, or a value for an absent one. -/
def kvGetD {α : Type} (m : Kv α) (j : Nat) (z : α) : α := (kvGet? m j).getD z

/-- Write an entry, in key order. -/
def kvPut {α : Type} : Kv α → Nat → α → Kv α
  | [], j, x => [(j, x)]
  | (k, v) :: t, j, x =>
    if k = j then (j, x) :: t
    else if j < k then (j, x) :: (k, v) :: t
    else (k, v) :: kvPut t j x

/-- Remove the entry at a key. -/
def kvDel {α : Type} (m : Kv α) (j : Nat) : Kv α := m.filter fun e => e.1 != j

/-- Apply a function to the entry at a key, where there is one. -/
def kvMod {α : Type} (m : Kv α) (j : Nat) (f : α → α) : Kv α :=
  match kvGet? m j with
  | none => m
  | some v => kvPut m j (f v)

/-- Keep the entries that a test accepts. -/
def kvFilter {α : Type} (m : Kv α) (p : Nat → α → Bool) : Kv α := m.filter fun e => p e.1 e.2

/-- Map every entry. -/
def kvMap {α β : Type} (m : Kv α) (f : Nat → α → β) : Kv β := m.map fun e => (e.1, f e.1 e.2)

/-- The keys. -/
def kvKeys {α : Type} (m : Kv α) : List Nat := m.map Prod.fst

/-- The smallest number below `n` that is no key, if there is one. -/
def kvFree {α : Type} (m : Kv α) (n : Nat) : Option Nat :=
  (List.range n).find? fun i => (kvGet? m i).isNone

end Sys2Proof.Machine
end

