-- ==== Sys2Proof/Machine/Bar.lean ====
section
/-! DEFINITION. The register map of PF0 BAR0: one descriptor per register and per field, read off the field maps of
the chapters (the chapter is named at each register), and the table that raw accesses use. -/

namespace Sys2Proof.Machine

/-- How software reaches a field (00, under R6; R491 for RWL). -/
inductive Acc where
  | ro | rw | rc | w1c | wo | rwl
deriving DecidableEq, Repr

/-- A register of BAR0: its base offset, the two strides with their counts, its width in bytes, its reset value, and
which rule gives the part of the reset value that depends on the index (0: none). -/
structure Reg where
  base  : Nat
  s1    : Nat
  n1    : Nat
  s2    : Nat
  n2    : Nat
  bytes : Nat
  rst   : Nat
  kind  : Nat
deriving DecidableEq, Repr

/-- A field of a register: bits `hi` down to `lo`. -/
structure Fld where
  reg : Reg
  hi  : Nat
  lo  : Nat
  acc : Acc
deriving DecidableEq, Repr

/-- A row of the register table: the register, its number in the table and its named fields. -/
structure RegRow where
  reg  : Reg
  flds : List Fld
deriving DecidableEq, Repr

namespace Bar

/-- Time base (chapter 02). -/
def TIM_NOW : Reg := ⟨0x100000, 0x0, 1, 0x0, 1, 8, 0x0, 0⟩
def TIM_NOW_NS : Fld := ⟨TIM_NOW, 63, 0, .ro⟩

/-- Latched upper half (chapter 02). -/
def TIM_NOW_HI_SHADOW : Reg := ⟨0x100008, 0x0, 1, 0x0, 1, 4, 0x0, 0⟩
def TIM_NOW_HI_SHADOW_NS_HI : Fld := ⟨TIM_NOW_HI_SHADOW, 31, 0, .ro⟩

/-- Time base and monitor status (chapter 02). -/
def TIM_STATUS : Reg := ⟨0x100010, 0x0, 1, 0x0, 1, 4, 0x0, 0⟩
def TIM_STATUS_DIE_SKEW_NS : Fld := ⟨TIM_STATUS, 31, 16, .ro⟩
def TIM_STATUS_WRATE_LOW : Fld := ⟨TIM_STATUS, 3, 3, .w1c⟩
def TIM_STATUS_DIE_SYNC : Fld := ⟨TIM_STATUS, 2, 2, .ro⟩
def TIM_STATUS_REFCLK_OK : Fld := ⟨TIM_STATUS, 1, 1, .ro⟩
def TIM_STATUS_LOCK : Fld := ⟨TIM_STATUS, 0, 0, .ro⟩

/-- Wave monitor control (chapter 02). -/
def TIM_WMON_CTL : Reg := ⟨0x100018, 0x0, 1, 0x0, 1, 4, 0x40A, 0⟩
def TIM_WMON_CTL_ENABLE : Fld := ⟨TIM_WMON_CTL, 10, 10, .rw⟩
def TIM_WMON_CTL_WINDOW_US : Fld := ⟨TIM_WMON_CTL, 9, 0, .rw⟩

/-- Package wave rate (chapter 02). -/
def TIM_WRATE_PKG : Reg := ⟨0x100020, 0x0, 1, 0x0, 1, 8, 0x0, 0⟩
def TIM_WRATE_PKG_SEQ : Fld := ⟨TIM_WRATE_PKG, 63, 48, .ro⟩
def TIM_WRATE_PKG_MAX : Fld := ⟨TIM_WRATE_PKG, 47, 32, .ro⟩
def TIM_WRATE_PKG_MEAN : Fld := ⟨TIM_WRATE_PKG, 31, 16, .ro⟩
def TIM_WRATE_PKG_MIN : Fld := ⟨TIM_WRATE_PKG, 15, 0, .ro⟩

/-- Low wave-rate alert (chapter 02). -/
def TIM_WRATE_ALERT : Reg := ⟨0x100028, 0x0, 1, 0x0, 1, 4, 0x0, 0⟩
def TIM_WRATE_ALERT_THRESHOLD : Fld := ⟨TIM_WRATE_ALERT, 15, 0, .rw⟩

/-- Wave rate of cluster n (chapter 02). -/
def TIM_WRATE_CLU : Reg := ⟨0x100100, 0x8, 16, 0x0, 1, 8, 0xFFFF0000, 0⟩
def TIM_WRATE_CLU_LOWEST : Fld := ⟨TIM_WRATE_CLU, 31, 16, .rc⟩
def TIM_WRATE_CLU_RATE : Fld := ⟨TIM_WRATE_CLU, 15, 0, .ro⟩

/-- Supply monitor site n (chapter 02). -/
def PWR_VMON : Reg := ⟨0x1700100, 0x4, 64, 0x0, 1, 4, 0x0, 0⟩
def PWR_VMON_TEMP : Fld := ⟨PWR_VMON, 31, 16, .ro⟩
def PWR_VMON_MV : Fld := ⟨PWR_VMON, 15, 0, .ro⟩

/-- Degradation thresholds (chapter 03). -/
def LNK_DEGRADE_CTL : Reg := ⟨0x200000, 0x0, 1, 0x0, 1, 4, 0x403E864, 0⟩
def LNK_DEGRADE_CTL_UNCORR_MAX : Fld := ⟨LNK_DEGRADE_CTL, 31, 24, .rw⟩
def LNK_DEGRADE_CTL_NEAR_MAX : Fld := ⟨LNK_DEGRADE_CTL, 23, 8, .rw⟩
def LNK_DEGRADE_CTL_WINDOW_MS : Fld := ⟨LNK_DEGRADE_CTL, 7, 0, .rw⟩

/-- Port configuration (chapter 03). -/
def LNK_PORT_CFG : Reg := ⟨0x210000, 0x40, 192, 0x0, 1, 4, 0x11300203, 1⟩
def LNK_PORT_CFG_PROP_PS_PER_M : Fld := ⟨LNK_PORT_CFG, 28, 16, .rw⟩
def LNK_PORT_CFG_ROLE : Fld := ⟨LNK_PORT_CFG, 10, 10, .ro⟩
def LNK_PORT_CFG_AUTO_RETRAIN : Fld := ⟨LNK_PORT_CFG, 9, 9, .rw⟩
def LNK_PORT_CFG_ENABLE : Fld := ⟨LNK_PORT_CFG, 8, 8, .rw⟩
def LNK_PORT_CFG_MIN_WIDTH : Fld := ⟨LNK_PORT_CFG, 3, 2, .rw⟩
def LNK_PORT_CFG_WIDTH : Fld := ⟨LNK_PORT_CFG, 1, 0, .rw⟩

/-- Port commands (chapter 03). -/
def LNK_PORT_CTL : Reg := ⟨0x210008, 0x40, 192, 0x0, 1, 4, 0x0, 0⟩
def LNK_PORT_CTL_RETRAIN : Fld := ⟨LNK_PORT_CTL, 1, 1, .wo⟩
def LNK_PORT_CTL_ACCEPT : Fld := ⟨LNK_PORT_CTL, 0, 0, .wo⟩

/-- Port status (chapter 03). -/
def LNK_PORT_STATUS : Reg := ⟨0x210010, 0x40, 192, 0x0, 1, 8, 0x0, 0⟩
def LNK_PORT_STATUS_PARTNER_EP : Fld := ⟨LNK_PORT_STATUS, 63, 48, .ro⟩
def LNK_PORT_STATUS_LOAD_TYPE : Fld := ⟨LNK_PORT_STATUS, 47, 40, .ro⟩
def LNK_PORT_STATUS_HOLD_REASON : Fld := ⟨LNK_PORT_STATUS, 39, 36, .ro⟩
def LNK_PORT_STATUS_STATE : Fld := ⟨LNK_PORT_STATUS, 35, 32, .ro⟩
def LNK_PORT_STATUS_LANE_MAP : Fld := ⟨LNK_PORT_STATUS, 31, 24, .ro⟩
def LNK_PORT_STATUS_WIDTH_UP : Fld := ⟨LNK_PORT_STATUS, 23, 22, .ro⟩
def LNK_PORT_STATUS_RETRAINS : Fld := ⟨LNK_PORT_STATUS, 15, 8, .rc⟩
def LNK_PORT_STATUS_FLUSHED : Fld := ⟨LNK_PORT_STATUS, 7, 4, .rc⟩
def LNK_PORT_STATUS_DEGRADING : Fld := ⟨LNK_PORT_STATUS, 3, 3, .ro⟩
def LNK_PORT_STATUS_LOSS_HIGH : Fld := ⟨LNK_PORT_STATUS, 2, 2, .ro⟩
def LNK_PORT_STATUS_LEND : Fld := ⟨LNK_PORT_STATUS, 1, 1, .ro⟩
def LNK_PORT_STATUS_EXPANDER : Fld := ⟨LNK_PORT_STATUS, 0, 0, .ro⟩

/-- Channel measurement (chapter 03). -/
def LNK_PORT_MEAS : Reg := ⟨0x210018, 0x40, 192, 0x0, 1, 8, 0x0, 0⟩
def LNK_PORT_MEAS_RTT_UI : Fld := ⟨LNK_PORT_MEAS, 63, 48, .ro⟩
def LNK_PORT_MEAS_LENGTH_DM : Fld := ⟨LNK_PORT_MEAS, 47, 36, .ro⟩
def LNK_PORT_MEAS_SKEW_UI : Fld := ⟨LNK_PORT_MEAS, 31, 24, .ro⟩
def LNK_PORT_MEAS_LOSS : Fld := ⟨LNK_PORT_MEAS, 8, 0, .ro⟩

/-- Partner capability words (chapter 03). -/
def LNK_PORT_PARTNER : Reg := ⟨0x210020, 0x40, 192, 0x4, 4, 4, 0x0, 0⟩
def LNK_PORT_PARTNER_WORD : Fld := ⟨LNK_PORT_PARTNER, 31, 0, .ro⟩

/-- Lane status (chapter 03). -/
def LNK_LANE_STATUS : Reg := ⟨0x220000, 0x20, 192, 0x0, 1, 4, 0x0, 0⟩
def LNK_LANE_STATUS_LOSS : Fld := ⟨LNK_LANE_STATUS, 24, 16, .ro⟩
def LNK_LANE_STATUS_POL_INV : Fld := ⟨LNK_LANE_STATUS, 4, 4, .ro⟩
def LNK_LANE_STATUS_GOOD : Fld := ⟨LNK_LANE_STATUS, 3, 3, .ro⟩
def LNK_LANE_STATUS_POSITION : Fld := ⟨LNK_LANE_STATUS, 2, 0, .ro⟩

/-- Lane FEC counters (chapter 03). -/
def LNK_LANE_ERR : Reg := ⟨0x220008, 0x20, 192, 0x0, 1, 8, 0x0, 0⟩
def LNK_LANE_ERR_UNCORR : Fld := ⟨LNK_LANE_ERR, 63, 48, .rc⟩
def LNK_LANE_ERR_NEAR : Fld := ⟨LNK_LANE_ERR, 47, 32, .rc⟩
def LNK_LANE_ERR_CORR : Fld := ⟨LNK_LANE_ERR, 31, 0, .rc⟩

/-- Endpoint identity (chapter 04). -/
def LNK_MFP_ID : Reg := ⟨0x230000, 0x0, 1, 0x0, 1, 4, 0x0, 0⟩
def LNK_MFP_ID_ENDPOINT : Fld := ⟨LNK_MFP_ID, 15, 0, .rw⟩

/-- Protocol bounds (chapter 04). -/
def LNK_MFP_CTL : Reg := ⟨0x230008, 0x0, 1, 0x0, 1, 4, 0x3201000, 0⟩
def LNK_MFP_CTL_REQ_TIMEOUT_US : Fld := ⟨LNK_MFP_CTL, 31, 19, .rw⟩
def LNK_MFP_CTL_COPY_RESEND_MAX : Fld := ⟨LNK_MFP_CTL, 15, 8, .rw⟩

/-- Dropped and discarded frames (chapter 04). -/
def LNK_MFP_DROP : Reg := ⟨0x230010, 0x0, 1, 0x0, 1, 8, 0x0, 0⟩
def LNK_MFP_DROP_MALFORMED : Fld := ⟨LNK_MFP_DROP, 63, 48, .rc⟩
def LNK_MFP_DROP_STALE_MBR : Fld := ⟨LNK_MFP_DROP, 47, 32, .rc⟩
def LNK_MFP_DROP_AUTH_FAIL : Fld := ⟨LNK_MFP_DROP, 31, 16, .rc⟩
def LNK_MFP_DROP_LATE : Fld := ⟨LNK_MFP_DROP, 15, 0, .rc⟩

/-- NAKs sent (chapter 04). -/
def LNK_MFP_NAK : Reg := ⟨0x230018, 0x0, 1, 0x0, 1, 8, 0x0, 0⟩
def LNK_MFP_NAK_REMAP : Fld := ⟨LNK_MFP_NAK, 63, 48, .rc⟩
def LNK_MFP_NAK_BUSY : Fld := ⟨LNK_MFP_NAK, 47, 32, .rc⟩
def LNK_MFP_NAK_ACCESS : Fld := ⟨LNK_MFP_NAK, 31, 16, .rc⟩
def LNK_MFP_NAK_OTHER : Fld := ⟨LNK_MFP_NAK, 15, 0, .rc⟩

/-- Combining control (chapter 04). -/
def TRL_COMB_CTL : Reg := ⟨0x408000, 0x0, 1, 0x0, 1, 4, 0x3, 0⟩
def TRL_COMB_CTL_FADD_EN : Fld := ⟨TRL_COMB_CTL, 1, 1, .rw⟩
def TRL_COMB_CTL_READ_EN : Fld := ⟨TRL_COMB_CTL, 0, 0, .rw⟩

/-- Combining status of die d (chapter 04). -/
def TRL_COMB_STATUS : Reg := ⟨0x408010, 0x8, 2, 0x0, 1, 8, 0x0, 0⟩
def TRL_COMB_STATUS_IN_USE : Fld := ⟨TRL_COMB_STATUS, 62, 48, .ro⟩
def TRL_COMB_STATUS_FULL : Fld := ⟨TRL_COMB_STATUS, 47, 32, .rc⟩
def TRL_COMB_STATUS_JOINED : Fld := ⟨TRL_COMB_STATUS, 31, 0, .rc⟩

/-- Cell counts of die d (chapter 05). -/
def TRL_CELLS : Reg := ⟨0x400000, 0x8, 2, 0x0, 1, 8, 0x6000005C2860000, 0⟩
def TRL_CELLS_USABLE : Fld := ⟨TRL_CELLS, 58, 40, .ro⟩
def TRL_CELLS_SPARE : Fld := ⟨TRL_CELLS, 34, 20, .ro⟩
def TRL_CELLS_FREE : Fld := ⟨TRL_CELLS, 18, 0, .ro⟩

/-- Buffer configuration (chapter 05). -/
def TRL_CFG : Reg := ⟨0x400010, 0x0, 1, 0x0, 1, 4, 0x88000, 0⟩
def TRL_CFG_CUT_THROUGH : Fld := ⟨TRL_CFG, 19, 19, .rw⟩
def TRL_CFG_EVICT_FLOOR : Fld := ⟨TRL_CFG, 18, 0, .rw⟩

/-- Lossless budget of die d (chapter 05). -/
def TRL_LL_STATUS : Reg := ⟨0x400020, 0x8, 2, 0x0, 1, 8, 0x58000, 0⟩
def TRL_LL_STATUS_COMMITTED : Fld := ⟨TRL_LL_STATUS, 50, 32, .ro⟩
def TRL_LL_STATUS_BUDGET : Fld := ⟨TRL_LL_STATUS, 18, 0, .ro⟩

/-- Marking and notices of die d (chapter 05). -/
def TRL_BAD : Reg := ⟨0x400030, 0x8, 2, 0x0, 1, 8, 0x0, 0⟩
def TRL_BAD_TAIL_MARKED : Fld := ⟨TRL_BAD, 63, 32, .rc⟩
def TRL_BAD_NOTICE_LOST : Fld := ⟨TRL_BAD, 31, 16, .rc⟩
def TRL_BAD_LL_REFUSED : Fld := ⟨TRL_BAD, 15, 0, .rc⟩

/-- Lossless credit per lane (chapter 05). -/
def TRL_PORT_LL : Reg := ⟨0x410000, 0x40, 192, 0x0, 1, 8, 0x10004000800100, 0⟩
def TRL_PORT_LL_TC7 : Fld := ⟨TRL_PORT_LL, 59, 48, .rw⟩
def TRL_PORT_LL_TC6 : Fld := ⟨TRL_PORT_LL, 43, 32, .rw⟩
def TRL_PORT_LL_TC5 : Fld := ⟨TRL_PORT_LL, 27, 16, .rw⟩
def TRL_PORT_LL_TC4 : Fld := ⟨TRL_PORT_LL, 11, 0, .rw⟩

/-- Evictable credit per lane (chapter 05). -/
def TRL_PORT_EV : Reg := ⟨0x410008, 0x40, 192, 0x0, 1, 8, 0x80008000800080, 0⟩
def TRL_PORT_EV_TC3 : Fld := ⟨TRL_PORT_EV, 59, 48, .rw⟩
def TRL_PORT_EV_TC2 : Fld := ⟨TRL_PORT_EV, 43, 32, .rw⟩
def TRL_PORT_EV_TC1 : Fld := ⟨TRL_PORT_EV, 27, 16, .rw⟩
def TRL_PORT_EV_TC0 : Fld := ⟨TRL_PORT_EV, 11, 0, .rw⟩

/-- Occupancy of port p (chapter 05). -/
def TRL_PORT_OCC : Reg := ⟨0x410010, 0x40, 192, 0x0, 1, 8, 0x0, 0⟩
def TRL_PORT_OCC_IN_CELLS : Fld := ⟨TRL_PORT_OCC, 50, 32, .ro⟩
def TRL_PORT_OCC_OUT_CELLS : Fld := ⟨TRL_PORT_OCC, 18, 0, .ro⟩

/-- Peak occupancy of port p (chapter 05). -/
def TRL_PORT_PEAK : Reg := ⟨0x410018, 0x40, 192, 0x0, 1, 8, 0x0, 0⟩
def TRL_PORT_PEAK_IN_PEAK : Fld := ⟨TRL_PORT_PEAK, 50, 32, .rc⟩
def TRL_PORT_PEAK_OUT_PEAK : Fld := ⟨TRL_PORT_PEAK, 18, 0, .rc⟩

/-- Multicast group g of die d (chapter 05). -/
def TRL_MCAST : Reg := ⟨0x420000, 0x10000, 2, 0x10, 4096, 16, 0x0, 0⟩
def TRL_MCAST_OWNER : Fld := ⟨TRL_MCAST, 107, 100, .rw⟩
def TRL_MCAST_VALID : Fld := ⟨TRL_MCAST, 98, 98, .rw⟩
def TRL_MCAST_BRIDGE : Fld := ⟨TRL_MCAST, 97, 97, .rw⟩
def TRL_MCAST_LOCAL : Fld := ⟨TRL_MCAST, 96, 96, .rw⟩
def TRL_MCAST_PORTS : Fld := ⟨TRL_MCAST, 95, 0, .rw⟩

/-- Route of endpoint e on die d (chapter 05). -/
def TRL_ROUTE : Reg := ⟨0x480000, 0x40000, 2, 0x4, 65536, 4, 0x0, 2⟩
def TRL_ROUTE_VALID : Fld := ⟨TRL_ROUTE, 31, 31, .rw⟩
def TRL_ROUTE_BRIDGE : Fld := ⟨TRL_ROUTE, 30, 30, .rw⟩
def TRL_ROUTE_PORT : Fld := ⟨TRL_ROUTE, 7, 0, .rw⟩

/-- Traffic of queue (p, c) (chapter 05). -/
def TRL_QCNT : Reg := ⟨0x440000, 0x80, 192, 0x10, 8, 16, 0x0, 0⟩
def TRL_QCNT_PUSHED : Fld := ⟨TRL_QCNT, 127, 96, .rc⟩
def TRL_QCNT_TX_FRAMES : Fld := ⟨TRL_QCNT, 95, 64, .rc⟩
def TRL_QCNT_TX_BYTES : Fld := ⟨TRL_QCNT, 63, 0, .rc⟩

/-- Egress scheduler of port p (chapter 05). -/
def QOS_SCHED : Reg := ⟨0x600000, 0x40, 192, 0x0, 1, 8, 0x10101010000000A, 0⟩
def QOS_SCHED_W3 : Fld := ⟨QOS_SCHED, 63, 56, .rw⟩
def QOS_SCHED_W2 : Fld := ⟨QOS_SCHED, 55, 48, .rw⟩
def QOS_SCHED_W1 : Fld := ⟨QOS_SCHED, 47, 40, .rw⟩
def QOS_SCHED_W0 : Fld := ⟨QOS_SCHED, 39, 32, .rw⟩
def QOS_SCHED_EV_MIN_PCT : Fld := ⟨QOS_SCHED, 6, 0, .rw⟩

/-- Egress shaper of queue (p, c) (chapter 05). -/
def QOS_SHAPE : Reg := ⟨0x608000, 0x40, 192, 0x8, 8, 8, 0x1000000000000, 0⟩
def QOS_SHAPE_BURST : Fld := ⟨QOS_SHAPE, 63, 32, .rw⟩
def QOS_SHAPE_RATE : Fld := ⟨QOS_SHAPE, 15, 0, .rw⟩

/-- Policer of allotment a on die d (chapter 05). -/
def QOS_POLICE : Reg := ⟨0x610000, 0x800, 2, 0x8, 256, 8, 0x10000000000000, 0⟩
def QOS_POLICE_BURST : Fld := ⟨QOS_POLICE, 63, 32, .rw⟩
def QOS_POLICE_RATE : Fld := ⟨QOS_POLICE, 15, 0, .rw⟩

/-- Evictable share of allotment a on die d (chapter 05). -/
def QOS_ALT_SHARE : Reg := ⟨0x611000, 0x800, 2, 0x8, 256, 8, 0x60000, 0⟩
def QOS_ALT_SHARE_EV_SHARE : Fld := ⟨QOS_ALT_SHARE, 18, 0, .rw⟩

/-- Occupancy and policing of allotment a on die d (chapter 05). -/
def QOS_ALT_CNT : Reg := ⟨0x612000, 0x1000, 2, 0x10, 256, 16, 0x0, 0⟩
def QOS_ALT_CNT_POLICED : Fld := ⟨QOS_ALT_CNT, 127, 96, .rc⟩
def QOS_ALT_CNT_OVER_KIB : Fld := ⟨QOS_ALT_CNT, 95, 64, .rc⟩
def QOS_ALT_CNT_LL_CELLS : Fld := ⟨QOS_ALT_CNT, 50, 32, .ro⟩
def QOS_ALT_CNT_EV_CELLS : Fld := ⟨QOS_ALT_CNT, 18, 0, .ro⟩

/-- Migration control (chapter 06). -/
def MEM_TIER_CFG : Reg := ⟨0x800000, 0x0, 1, 0x0, 1, 8, 0x3E80407D0004000, 0⟩
def MEM_TIER_CFG_HOT_WINDOW_US : Fld := ⟨MEM_TIER_CFG, 63, 48, .rw⟩
def MEM_TIER_CFG_HOT_COUNT : Fld := ⟨MEM_TIER_CFG, 47, 40, .rw⟩
def MEM_TIER_CFG_WARM_HOLD_MS : Fld := ⟨MEM_TIER_CFG, 39, 24, .rw⟩
def MEM_TIER_CFG_LOW_WATER : Fld := ⟨MEM_TIER_CFG, 23, 0, .rw⟩

/-- Free frames (chapter 06). -/
def MEM_TIER_STATUS : Reg := ⟨0x800008, 0x0, 1, 0x0, 1, 8, 0x8EE00000000000, 0⟩
def MEM_TIER_STATUS_T1_FREE : Fld := ⟨MEM_TIER_STATUS, 55, 32, .ro⟩
def MEM_TIER_STATUS_T2_FREE : Fld := ⟨MEM_TIER_STATUS, 28, 0, .ro⟩

/-- Migration counters (chapter 06). -/
def MEM_TIER_CNT : Reg := ⟨0x800010, 0x0, 1, 0x0, 1, 16, 0x0, 0⟩
def MEM_TIER_CNT_PROMOTED : Fld := ⟨MEM_TIER_CNT, 127, 96, .rc⟩
def MEM_TIER_CNT_DEMOTED : Fld := ⟨MEM_TIER_CNT, 95, 64, .rc⟩
def MEM_TIER_CNT_WRITEBACK : Fld := ⟨MEM_TIER_CNT, 63, 32, .rc⟩
def MEM_TIER_CNT_WARM_NOSESS : Fld := ⟨MEM_TIER_CNT, 31, 16, .rc⟩
def MEM_TIER_CNT_WARM_SHORT : Fld := ⟨MEM_TIER_CNT, 15, 0, .rc⟩

/-- Command arguments (chapter 06). -/
def MEM_OBJ_ARG : Reg := ⟨0x800100, 0x40, 3, 0x8, 3, 8, 0x0, 0⟩
def MEM_OBJ_ARG_ARG : Fld := ⟨MEM_OBJ_ARG, 63, 0, .rw⟩

/-- Command (chapter 06). -/
def MEM_OBJ_CMD : Reg := ⟨0x800118, 0x40, 3, 0x0, 1, 4, 0x0, 0⟩
def MEM_OBJ_CMD_OP : Fld := ⟨MEM_OBJ_CMD, 7, 0, .wo⟩

/-- Command result (chapter 06). -/
def MEM_OBJ_RESULT : Reg := ⟨0x800120, 0x40, 3, 0x0, 1, 8, 0x8000000000000000, 0⟩
def MEM_OBJ_RESULT_DONE : Fld := ⟨MEM_OBJ_RESULT, 63, 63, .ro⟩
def MEM_OBJ_RESULT_STATUS : Fld := ⟨MEM_OBJ_RESULT, 39, 32, .ro⟩
def MEM_OBJ_RESULT_OBJ : Fld := ⟨MEM_OBJ_RESULT, 13, 0, .ro⟩

/-- Object entry (chapter 06). -/
def MEM_OBJ : Reg := ⟨0x810000, 0x10, 16384, 0x0, 1, 16, 0x0, 0⟩
def MEM_OBJ_ALLOT : Fld := ⟨MEM_OBJ, 127, 120, .ro⟩
def MEM_OBJ_VALID : Fld := ⟨MEM_OBJ, 119, 119, .ro⟩
def MEM_OBJ_POLICY : Fld := ⟨MEM_OBJ, 118, 117, .ro⟩
def MEM_OBJ_HOME_DIE : Fld := ⟨MEM_OBJ, 116, 115, .ro⟩
def MEM_OBJ_VERSIONED : Fld := ⟨MEM_OBJ, 114, 114, .ro⟩
def MEM_OBJ_BASE_PAGE : Fld := ⟨MEM_OBJ, 103, 64, .ro⟩
def MEM_OBJ_PAGES : Fld := ⟨MEM_OBJ, 63, 36, .ro⟩
def MEM_OBJ_T1_PAGES : Fld := ⟨MEM_OBJ, 35, 8, .ro⟩
def MEM_OBJ_LOST : Fld := ⟨MEM_OBJ, 2, 2, .ro⟩
def MEM_OBJ_MIGRATING : Fld := ⟨MEM_OBJ, 1, 1, .ro⟩
def MEM_OBJ_STREAM_SRC : Fld := ⟨MEM_OBJ, 0, 0, .ro⟩

/-- Hosted span (chapter 06). -/
def MEM_SPAN : Reg := ⟨0x860000, 0x8, 512, 0x0, 1, 8, 0x0, 0⟩
def MEM_SPAN_VALID : Fld := ⟨MEM_SPAN, 63, 63, .rw⟩
def MEM_SPAN_SPAN : Fld := ⟨MEM_SPAN, 47, 32, .rw⟩
def MEM_SPAN_ALLOT : Fld := ⟨MEM_SPAN, 7, 0, .rw⟩

/-- Lent range (chapter 06). -/
def MEM_LEND : Reg := ⟨0x870000, 0x10, 1024, 0x0, 1, 16, 0x0, 0⟩
def MEM_LEND_VALID : Fld := ⟨MEM_LEND, 127, 127, .ro⟩
def MEM_LEND_ALLOT : Fld := ⟨MEM_LEND, 126, 119, .ro⟩
def MEM_LEND_LENDER_EP : Fld := ⟨MEM_LEND, 118, 103, .ro⟩
def MEM_LEND_POOL_PAGE : Fld := ⟨MEM_LEND, 102, 63, .ro⟩
def MEM_LEND_LOCAL_PAGE : Fld := ⟨MEM_LEND, 62, 23, .ro⟩
def MEM_LEND_PAGES : Fld := ⟨MEM_LEND, 22, 0, .ro⟩

/-- Tier-2 link control (chapter 06). -/
def MEM_CXL_CTL : Reg := ⟨0x880000, 0x40, 8, 0x0, 1, 4, 0x0, 0⟩
def MEM_CXL_CTL_ENABLE : Fld := ⟨MEM_CXL_CTL, 0, 0, .rw⟩

/-- Tier-2 link status (chapter 06). -/
def MEM_CXL_STATUS : Reg := ⟨0x880008, 0x40, 8, 0x0, 1, 16, 0x0, 0⟩
def MEM_CXL_STATUS_LAT_MAX_NS : Fld := ⟨MEM_CXL_STATUS, 127, 112, .ro⟩
def MEM_CXL_STATUS_LAT_MED_NS : Fld := ⟨MEM_CXL_STATUS, 111, 96, .ro⟩
def MEM_CXL_STATUS_USED_PAGES : Fld := ⟨MEM_CXL_STATUS, 67, 40, .ro⟩
def MEM_CXL_STATUS_CAP_PAGES : Fld := ⟨MEM_CXL_STATUS, 39, 12, .ro⟩
def MEM_CXL_STATUS_DRAIN_STUCK : Fld := ⟨MEM_CXL_STATUS, 11, 11, .ro⟩
def MEM_CXL_STATUS_SPEED : Fld := ⟨MEM_CXL_STATUS, 10, 9, .ro⟩
def MEM_CXL_STATUS_WIDTH : Fld := ⟨MEM_CXL_STATUS, 8, 7, .ro⟩
def MEM_CXL_STATUS_REASON : Fld := ⟨MEM_CXL_STATUS, 6, 4, .ro⟩
def MEM_CXL_STATUS_STATE : Fld := ⟨MEM_CXL_STATUS, 3, 0, .ro⟩

/-- Tier-1 stack status (chapter 06). -/
def MEM_STACK_STATUS : Reg := ⟨0x890000, 0x8, 12, 0x0, 1, 8, 0xBE800FFFFFFFF, 0⟩
def MEM_STACK_STATUS_FAILED : Fld := ⟨MEM_STACK_STATUS, 63, 63, .ro⟩
def MEM_STACK_STATUS_FREE : Fld := ⟨MEM_STACK_STATUS, 51, 32, .ro⟩
def MEM_STACK_STATUS_CHAN_OK : Fld := ⟨MEM_STACK_STATUS, 31, 0, .ro⟩

/-- Home endpoint of span s (chapter 06). -/
def MEM_HOME : Reg := ⟨0x900000, 0x4, 65536, 0x0, 1, 4, 0x0, 0⟩
def MEM_HOME_VALID : Fld := ⟨MEM_HOME, 31, 31, .rw⟩
def MEM_HOME_ENDPOINT : Fld := ⟨MEM_HOME, 15, 0, .rw⟩

/-- Cluster bank b of cluster c (chapter 07). -/
def CLU_BANK : Reg := ⟨0xD80000, 0x400, 16, 0x8, 64, 8, 0x10000000, 0⟩
def CLU_BANK_STATE : Fld := ⟨CLU_BANK, 63, 62, .ro⟩
def CLU_BANK_COLD : Fld := ⟨CLU_BANK, 61, 61, .ro⟩
def CLU_BANK_LOST : Fld := ⟨CLU_BANK, 60, 60, .w1c⟩
def CLU_BANK_REFUSED : Fld := ⟨CLU_BANK, 59, 59, .w1c⟩
def CLU_BANK_DISCARDED : Fld := ⟨CLU_BANK, 55, 48, .rc⟩
def CLU_BANK_CORR : Fld := ⟨CLU_BANK, 47, 32, .rc⟩
def CLU_BANK_SPARES_LEFT : Fld := ⟨CLU_BANK, 28, 24, .ro⟩
def CLU_BANK_COLD_REQ : Fld := ⟨CLU_BANK, 16, 16, .rw⟩
def CLU_BANK_ASSIGN : Fld := ⟨CLU_BANK, 8, 8, .rw⟩
def CLU_BANK_OWNER : Fld := ⟨CLU_BANK, 7, 0, .rw⟩

/-- Bank ownership of a core (chapter 07). -/
def CLU_CORE_OWN : Reg := ⟨0xD84000, 0x100, 16, 0x8, 16, 8, 0x0, 0⟩
def CLU_CORE_OWN_STATE : Fld := ⟨CLU_CORE_OWN, 63, 62, .ro⟩
def CLU_CORE_OWN_COLD : Fld := ⟨CLU_CORE_OWN, 61, 61, .ro⟩
def CLU_CORE_OWN_LOST : Fld := ⟨CLU_CORE_OWN, 60, 60, .w1c⟩
def CLU_CORE_OWN_REFUSED : Fld := ⟨CLU_CORE_OWN, 59, 59, .w1c⟩
def CLU_CORE_OWN_DISCARDED : Fld := ⟨CLU_CORE_OWN, 55, 48, .rc⟩
def CLU_CORE_OWN_CORR : Fld := ⟨CLU_CORE_OWN, 47, 32, .rc⟩
def CLU_CORE_OWN_SPARES_LEFT : Fld := ⟨CLU_CORE_OWN, 28, 24, .ro⟩
def CLU_CORE_OWN_COLD_REQ : Fld := ⟨CLU_CORE_OWN, 16, 16, .rw⟩
def CLU_CORE_OWN_ASSIGN : Fld := ⟨CLU_CORE_OWN, 8, 8, .rw⟩
def CLU_CORE_OWN_OWNER : Fld := ⟨CLU_CORE_OWN, 7, 0, .rw⟩

/-- Automatic cold frame (chapter 07). -/
def CLU_COLD_CFG : Reg := ⟨0xD8A000, 0x0, 1, 0x0, 1, 4, 0x0, 0⟩
def CLU_COLD_CFG_IDLE_US : Fld := ⟨CLU_COLD_CFG, 19, 0, .rw⟩

/-- March on request (chapter 07). -/
def CLU_MARCH_CTL : Reg := ⟨0xD88000, 0x40, 16, 0x0, 1, 4, 0x1000, 0⟩
def CLU_MARCH_CTL_START : Fld := ⟨CLU_MARCH_CTL, 31, 31, .wo⟩
def CLU_MARCH_CTL_MODE : Fld := ⟨CLU_MARCH_CTL, 12, 12, .rw⟩
def CLU_MARCH_CTL_KIND : Fld := ⟨CLU_MARCH_CTL, 11, 11, .rw⟩
def CLU_MARCH_CTL_CORE : Fld := ⟨CLU_MARCH_CTL, 9, 6, .rw⟩
def CLU_MARCH_CTL_BANK : Fld := ⟨CLU_MARCH_CTL, 5, 0, .rw⟩

/-- March status (chapter 07). -/
def CLU_MARCH_STATUS : Reg := ⟨0xD88008, 0x40, 16, 0x0, 1, 4, 0x80000000, 0⟩
def CLU_MARCH_STATUS_BUSY : Fld := ⟨CLU_MARCH_STATUS, 31, 31, .ro⟩
def CLU_MARCH_STATUS_DONE : Fld := ⟨CLU_MARCH_STATUS, 30, 30, .ro⟩
def CLU_MARCH_STATUS_RESULT : Fld := ⟨CLU_MARCH_STATUS, 25, 24, .ro⟩
def CLU_MARCH_STATUS_ROWS_FAILED : Fld := ⟨CLU_MARCH_STATUS, 23, 16, .ro⟩
def CLU_MARCH_STATUS_START_REPAIRS : Fld := ⟨CLU_MARCH_STATUS, 15, 8, .ro⟩
def CLU_MARCH_STATUS_START_FAILED : Fld := ⟨CLU_MARCH_STATUS, 7, 0, .ro⟩

/-- Transparent background test (chapter 07). -/
def CLU_TBT_CTL : Reg := ⟨0xD89000, 0x0, 1, 0x0, 1, 8, 0x0, 0⟩
def CLU_TBT_CTL_START : Fld := ⟨CLU_TBT_CTL, 63, 63, .wo⟩
def CLU_TBT_CTL_CLUSTER : Fld := ⟨CLU_TBT_CTL, 35, 32, .rw⟩
def CLU_TBT_CTL_KIND : Fld := ⟨CLU_TBT_CTL, 31, 31, .rw⟩
def CLU_TBT_CTL_CORE : Fld := ⟨CLU_TBT_CTL, 30, 27, .rw⟩
def CLU_TBT_CTL_BANK : Fld := ⟨CLU_TBT_CTL, 26, 21, .rw⟩
def CLU_TBT_CTL_OFFSET : Fld := ⟨CLU_TBT_CTL, 17, 0, .rw⟩

/-- Transparent background test status (chapter 07). -/
def CLU_TBT_STATUS : Reg := ⟨0xD89008, 0x0, 1, 0x0, 1, 4, 0x0, 0⟩
def CLU_TBT_STATUS_BUSY : Fld := ⟨CLU_TBT_STATUS, 31, 31, .ro⟩
def CLU_TBT_STATUS_RESULT : Fld := ⟨CLU_TBT_STATUS, 30, 29, .ro⟩
def CLU_TBT_STATUS_FAIL_OFFSET : Fld := ⟨CLU_TBT_STATUS, 17, 0, .ro⟩

/-- Command descriptor (chapter 08). -/
def NMU_CMD_DESC : Reg := ⟨0xA00000, 0x100, 3, 0x4, 8, 4, 0x0, 0⟩
def NMU_CMD_DESC_WORD : Fld := ⟨NMU_CMD_DESC, 31, 0, .rw⟩

/-- Start (chapter 08). -/
def NMU_CMD_GO : Reg := ⟨0xA00040, 0x100, 3, 0x0, 1, 4, 0x0, 0⟩
def NMU_CMD_GO_START : Fld := ⟨NMU_CMD_GO, 0, 0, .wo⟩

/-- Completion record (chapter 08). -/
def NMU_CMD_REC : Reg := ⟨0xA00080, 0x100, 3, 0x4, 9, 4, 0x0, 5⟩
def NMU_CMD_REC_WORD : Fld := ⟨NMU_CMD_REC, 31, 0, .ro⟩

/-- Burst length (chapter 08). -/
def NMU_CFG : Reg := ⟨0xA00400, 0x0, 1, 0x0, 1, 4, 0x20, 0⟩
def NMU_CFG_BURST_UNITS : Fld := ⟨NMU_CFG, 5, 0, .rw⟩

/-- Channel of NMU n (chapter 08). -/
def NMU_STAT : Reg := ⟨0xA10000, 0x20, 384, 0x0, 1, 8, 0x0, 0⟩
def NMU_STAT_UNCORR : Fld := ⟨NMU_STAT, 63, 48, .rc⟩
def NMU_STAT_CORR : Fld := ⟨NMU_STAT, 47, 16, .rc⟩
def NMU_STAT_REF_OWED_MAX : Fld := ⟨NMU_STAT, 15, 8, .rc⟩

/-- Snoop timeout (chapter 09). -/
def COH_CFG : Reg := ⟨0xB00000, 0x0, 1, 0x0, 1, 4, 0x32, 0⟩
def COH_CFG_SNOOP_TIMEOUT_US : Fld := ⟨COH_CFG, 13, 0, .rw⟩

/-- Home of die d (chapter 09). -/
def COH_STAT : Reg := ⟨0xB00010, 0x10, 2, 0x0, 1, 16, 0x0, 0⟩
def COH_STAT_ENTRIES : Fld := ⟨COH_STAT, 127, 104, .ro⟩
def COH_STAT_RECALLS : Fld := ⟨COH_STAT, 95, 64, .rc⟩
def COH_STAT_TIMEOUTS : Fld := ⟨COH_STAT, 63, 48, .rc⟩
def COH_STAT_LATE : Fld := ⟨COH_STAT, 47, 32, .rc⟩
def COH_STAT_PROTO_ERR : Fld := ⟨COH_STAT, 31, 16, .rc⟩
def COH_STAT_BUSY : Fld := ⟨COH_STAT, 15, 0, .rc⟩

/-- Caching agent i (chapter 09). -/
def COH_AGENT : Reg := ⟨0xB10000, 0x10, 1024, 0x0, 1, 16, 0x0, 0⟩
def COH_AGENT_VALID : Fld := ⟨COH_AGENT, 127, 127, .rw⟩
def COH_AGENT_RECLAIM : Fld := ⟨COH_AGENT, 126, 126, .wo⟩
def COH_AGENT_RECLAIMING : Fld := ⟨COH_AGENT, 125, 125, .ro⟩
def COH_AGENT_FENCED : Fld := ⟨COH_AGENT, 124, 124, .ro⟩
def COH_AGENT_ENDPOINT : Fld := ⟨COH_AGENT, 111, 96, .rw⟩
def COH_AGENT_TIMEOUTS : Fld := ⟨COH_AGENT, 63, 48, .rc⟩
def COH_AGENT_LINES : Fld := ⟨COH_AGENT, 47, 24, .ro⟩

/-- Recall range (chapter 09). -/
def COH_RECALL_ARG : Reg := ⟨0xB20000, 0x40, 3, 0x0, 1, 16, 0x0, 0⟩
def COH_RECALL_ARG_ALLOT : Fld := ⟨COH_RECALL_ARG, 127, 120, .rw⟩
def COH_RECALL_ARG_BASE_PAGE : Fld := ⟨COH_RECALL_ARG, 111, 72, .rw⟩
def COH_RECALL_ARG_PAGES : Fld := ⟨COH_RECALL_ARG, 55, 28, .rw⟩

/-- Recall command (chapter 09). -/
def COH_RECALL_CTL : Reg := ⟨0xB20010, 0x40, 3, 0x0, 1, 8, 0x4000000000000000, 0⟩
def COH_RECALL_CTL_START : Fld := ⟨COH_RECALL_CTL, 63, 63, .wo⟩
def COH_RECALL_CTL_DONE : Fld := ⟨COH_RECALL_CTL, 62, 62, .ro⟩
def COH_RECALL_CTL_STATUS : Fld := ⟨COH_RECALL_CTL, 39, 32, .ro⟩
def COH_RECALL_CTL_LINES : Fld := ⟨COH_RECALL_CTL, 31, 0, .ro⟩

/-- Command arguments (chapter 10). -/
def VER_ARG : Reg := ⟨0xC00000, 0x40, 3, 0x8, 2, 8, 0x0, 0⟩
def VER_ARG_ARG : Fld := ⟨VER_ARG, 63, 0, .rw⟩

/-- Command (chapter 10). -/
def VER_CMD : Reg := ⟨0xC00010, 0x40, 3, 0x0, 1, 4, 0x0, 0⟩
def VER_CMD_OP : Fld := ⟨VER_CMD, 7, 0, .wo⟩

/-- Command result (chapter 10). -/
def VER_RESULT : Reg := ⟨0xC00018, 0x40, 3, 0x0, 1, 8, 0x8000000000000000, 0⟩
def VER_RESULT_DONE : Fld := ⟨VER_RESULT, 63, 63, .ro⟩
def VER_RESULT_STATUS : Fld := ⟨VER_RESULT, 55, 48, .ro⟩
def VER_RESULT_REGION : Fld := ⟨VER_RESULT, 47, 36, .ro⟩
def VER_RESULT_SLOT : Fld := ⟨VER_RESULT, 35, 32, .ro⟩
def VER_RESULT_VERSION : Fld := ⟨VER_RESULT, 31, 0, .ro⟩

/-- Region counters (chapter 10). -/
def VER_STAT : Reg := ⟨0xC00400, 0x0, 1, 0x0, 1, 8, 0x0, 0⟩
def VER_STAT_IN_USE : Fld := ⟨VER_STAT, 63, 48, .ro⟩
def VER_STAT_STALE : Fld := ⟨VER_STAT, 47, 32, .rc⟩
def VER_STAT_COW_SHORT : Fld := ⟨VER_STAT, 31, 16, .rc⟩

/-- Region r (chapter 10). -/
def VER_REGION : Reg := ⟨0xC20000, 0x10, 4096, 0x0, 1, 16, 0x0, 0⟩
def VER_REGION_VALID : Fld := ⟨VER_REGION, 127, 127, .ro⟩
def VER_REGION_LOST : Fld := ⟨VER_REGION, 126, 126, .ro⟩
def VER_REGION_PUBLISHING : Fld := ⟨VER_REGION, 125, 125, .ro⟩
def VER_REGION_ALLOT : Fld := ⟨VER_REGION, 119, 112, .ro⟩
def VER_REGION_WORK_OBJ : Fld := ⟨VER_REGION, 109, 96, .ro⟩
def VER_REGION_VIEW_OBJ : Fld := ⟨VER_REGION, 93, 80, .ro⟩
def VER_REGION_LIVE_MASK : Fld := ⟨VER_REGION, 79, 64, .ro⟩
def VER_REGION_CUR_SLOT : Fld := ⟨VER_REGION, 51, 48, .ro⟩
def VER_REGION_COW_PAGES : Fld := ⟨VER_REGION, 47, 32, .rc⟩
def VER_REGION_CUR_VERSION : Fld := ⟨VER_REGION, 31, 0, .ro⟩

/-- Slot s of region r (chapter 10). -/
def VER_SLOT : Reg := ⟨0xC40000, 0x80, 4096, 0x8, 16, 8, 0x0, 0⟩
def VER_SLOT_STATE : Fld := ⟨VER_SLOT, 63, 62, .ro⟩
def VER_SLOT_OPENS : Fld := ⟨VER_SLOT, 55, 32, .ro⟩
def VER_SLOT_VERSION : Fld := ⟨VER_SLOT, 31, 0, .ro⟩

/-- Program slot n (chapter 11). -/
def CLU_SLOT : Reg := ⟨0xD00000, 0x10, 1024, 0x0, 1, 16, 0x0, 0⟩
def CLU_SLOT_VALID : Fld := ⟨CLU_SLOT, 127, 127, .ro⟩
def CLU_SLOT_LOADING : Fld := ⟨CLU_SLOT, 126, 126, .ro⟩
def CLU_SLOT_UNLOADING : Fld := ⟨CLU_SLOT, 125, 125, .ro⟩
def CLU_SLOT_OWNER : Fld := ⟨CLU_SLOT, 119, 112, .ro⟩
def CLU_SLOT_CLUSTERS : Fld := ⟨CLU_SLOT, 111, 96, .ro⟩
def CLU_SLOT_HOME_CLUSTER : Fld := ⟨CLU_SLOT, 95, 92, .ro⟩
def CLU_SLOT_IN_OFFSET : Fld := ⟨CLU_SLOT, 91, 84, .ro⟩
def CLU_SLOT_LENGTH : Fld := ⟨CLU_SLOT, 83, 67, .ro⟩
def CLU_SLOT_STORE_UNIT : Fld := ⟨CLU_SLOT, 56, 50, .ro⟩
def CLU_SLOT_RUNNING : Fld := ⟨CLU_SLOT, 31, 0, .ro⟩

/-- Load arguments (chapter 11). -/
def CLU_LOAD_ARG : Reg := ⟨0xD10000, 0x40, 3, 0x8, 2, 8, 0x0, 0⟩
def CLU_LOAD_ARG_ARG : Fld := ⟨CLU_LOAD_ARG, 63, 0, .rw⟩

/-- Load command (chapter 11). -/
def CLU_LOAD_CMD : Reg := ⟨0xD10018, 0x40, 3, 0x0, 1, 4, 0x0, 0⟩
def CLU_LOAD_CMD_OP : Fld := ⟨CLU_LOAD_CMD, 7, 0, .wo⟩

/-- Load result (chapter 11). -/
def CLU_LOAD_RESULT : Reg := ⟨0xD10020, 0x40, 3, 0x0, 1, 8, 0x8000000000000000, 0⟩
def CLU_LOAD_RESULT_DONE : Fld := ⟨CLU_LOAD_RESULT, 63, 63, .ro⟩
def CLU_LOAD_RESULT_STATUS : Fld := ⟨CLU_LOAD_RESULT, 39, 32, .ro⟩
def CLU_LOAD_RESULT_SLOT : Fld := ⟨CLU_LOAD_RESULT, 9, 0, .ro⟩

/-- Invocation run limit (chapter 11). -/
def CLU_INV_CFG : Reg := ⟨0xD20000, 0x0, 1, 0x0, 1, 4, 0x2710, 0⟩
def CLU_INV_CFG_RUN_LIMIT_US : Fld := ⟨CLU_INV_CFG, 19, 0, .rw⟩

/-- Cluster c (chapter 11). -/
def CLU_STATUS : Reg := ⟨0xD20100, 0x20, 16, 0x0, 1, 16, 0x800000000000000000000000, 0⟩
def CLU_STATUS_DISABLED : Fld := ⟨CLU_STATUS, 127, 112, .ro⟩
def CLU_STATUS_WEEDING : Fld := ⟨CLU_STATUS, 111, 96, .ro⟩
def CLU_STATUS_FREE : Fld := ⟨CLU_STATUS, 95, 91, .ro⟩
def CLU_STATUS_ASSEMBLING : Fld := ⟨CLU_STATUS, 90, 86, .ro⟩
def CLU_STATUS_RUNNING : Fld := ⟨CLU_STATUS, 85, 81, .ro⟩
def CLU_STATUS_DRAINING : Fld := ⟨CLU_STATUS, 80, 76, .ro⟩
def CLU_STATUS_DISPATCHED : Fld := ⟨CLU_STATUS, 63, 32, .rc⟩
def CLU_STATUS_BUSY : Fld := ⟨CLU_STATUS, 31, 16, .rc⟩
def CLU_STATUS_FAULTS : Fld := ⟨CLU_STATUS, 15, 0, .rc⟩

/-- Number-format counters of cluster c (chapter 13). -/
def CLU_NUM : Reg := ⟨0xD30000, 0x10, 16, 0x0, 1, 16, 0x0, 0⟩
def CLU_NUM_SAT_PROG : Fld := ⟨CLU_NUM, 127, 96, .rc⟩
def CLU_NUM_SAT_SES : Fld := ⟨CLU_NUM, 95, 64, .rc⟩
def CLU_NUM_ZEROED : Fld := ⟨CLU_NUM, 63, 32, .rc⟩
def CLU_NUM_NAN_BLK : Fld := ⟨CLU_NUM, 31, 16, .rc⟩

/-- Hold-up limits (chapter 13). -/
def SES_QCHK : Reg := ⟨0xEF0000, 0x0, 1, 0x0, 1, 4, 0x8040, 0⟩
def SES_QCHK_HOLD_C : Fld := ⟨SES_QCHK, 15, 8, .rw⟩
def SES_QCHK_HOLD_B : Fld := ⟨SES_QCHK, 7, 0, .rw⟩

/-- Hold-up counters (chapter 13). -/
def SES_QCNT : Reg := ⟨0xEF0008, 0x0, 1, 0x0, 1, 8, 0x0, 0⟩
def SES_QCNT_HELD_B : Fld := ⟨SES_QCNT, 63, 32, .rc⟩
def SES_QCNT_HELD_C : Fld := ⟨SES_QCNT, 31, 0, .rc⟩

/-- Entry words (chapter 15). -/
def SES_ARG : Reg := ⟨0xE00000, 0x80, 3, 0x8, 8, 8, 0x0, 0⟩
def SES_ARG_WORD : Fld := ⟨SES_ARG, 63, 0, .rw⟩

/-- Session command (chapter 15). -/
def SES_CMD : Reg := ⟨0xE00040, 0x80, 3, 0x0, 1, 4, 0x0, 0⟩
def SES_CMD_SESSION : Fld := ⟨SES_CMD, 23, 8, .rw⟩
def SES_CMD_OP : Fld := ⟨SES_CMD, 7, 0, .wo⟩

/-- Command result (chapter 15). -/
def SES_RESULT : Reg := ⟨0xE00048, 0x80, 3, 0x0, 1, 8, 0x8000000000000000, 0⟩
def SES_RESULT_DONE : Fld := ⟨SES_RESULT, 63, 63, .ro⟩
def SES_RESULT_STATUS : Fld := ⟨SES_RESULT, 39, 32, .ro⟩

/-- Session logic of die d (chapter 15). -/
def SES_STAT : Reg := ⟨0xE00400, 0x8, 2, 0x0, 1, 8, 0x0, 0⟩
def SES_STAT_IN_USE : Fld := ⟨SES_STAT, 63, 48, .ro⟩
def SES_STAT_NOSESS : Fld := ⟨SES_STAT, 47, 32, .rc⟩
def SES_STAT_RECORDS : Fld := ⟨SES_STAT, 31, 16, .rc⟩
def SES_STAT_MIRROR_BROKEN : Fld := ⟨SES_STAT, 15, 0, .rc⟩

/-- Expansion view i (chapter 16). -/
def EXP_EGR : Reg := ⟨0xF00000, 0x20, 64, 0x0, 1, 32, 0x0, 0⟩
def EXP_EGR_VALID : Fld := ⟨EXP_EGR, 255, 255, .rw⟩
def EXP_EGR_ALLOT : Fld := ⟨EXP_EGR, 247, 240, .rw⟩
def EXP_EGR_NBLOCKS : Fld := ⟨EXP_EGR, 239, 224, .rw⟩
def EXP_EGR_VIEW_PAGE : Fld := ⟨EXP_EGR, 199, 160, .rw⟩
def EXP_EGR_INDEX_BASE : Fld := ⟨EXP_EGR, 151, 96, .rw⟩
def EXP_EGR_CODED_BYTES : Fld := ⟨EXP_EGR, 95, 64, .rw⟩
def EXP_EGR_CODED_BASE : Fld := ⟨EXP_EGR, 55, 0, .rw⟩

/-- Operand-port expanders of cluster c (chapter 16). -/
def EXP_CLU : Reg := ⟨0xF01000, 0x10, 16, 0x0, 1, 16, 0x0, 0⟩
def EXP_CLU_CODED : Fld := ⟨EXP_CLU, 127, 96, .rc⟩
def EXP_CLU_RAW : Fld := ⟨EXP_CLU, 95, 64, .rc⟩
def EXP_CLU_SLOW : Fld := ⟨EXP_CLU, 63, 32, .rc⟩
def EXP_CLU_LEN : Fld := ⟨EXP_CLU, 31, 16, .rc⟩
def EXP_CLU_CODE : Fld := ⟨EXP_CLU, 15, 0, .rc⟩

/-- Egress expanders (chapter 16). -/
def EXP_EGR_STAT : Reg := ⟨0xF02000, 0x0, 1, 0x0, 1, 8, 0x0, 0⟩
def EXP_EGR_STAT_BLOCKS : Fld := ⟨EXP_EGR_STAT, 63, 32, .rc⟩
def EXP_EGR_STAT_FAILED : Fld := ⟨EXP_EGR_STAT, 31, 16, .rc⟩
def EXP_EGR_STAT_REFUSED : Fld := ⟨EXP_EGR_STAT, 15, 8, .rc⟩

/-- Reduction group g (chapter 17). -/
def RKS_GRP : Reg := ⟨0x1000000, 0x20, 4096, 0x0, 1, 32, 0x1010000000000000000000000000000000000000000000000, 0⟩
def RKS_GRP_VALID : Fld := ⟨RKS_GRP, 255, 255, .rw⟩
def RKS_GRP_ABANDON : Fld := ⟨RKS_GRP, 254, 254, .wo⟩
def RKS_GRP_OWNER : Fld := ⟨RKS_GRP, 247, 240, .rw⟩
def RKS_GRP_HOME_CLUSTER : Fld := ⟨RKS_GRP, 239, 236, .rw⟩
def RKS_GRP_OP : Fld := ⟨RKS_GRP, 235, 234, .rw⟩
def RKS_GRP_DTYPE : Fld := ⟨RKS_GRP, 233, 232, .rw⟩
def RKS_GRP_DELIVER : Fld := ⟨RKS_GRP, 231, 231, .rw⟩
def RKS_GRP_BCAST_EN : Fld := ⟨RKS_GRP, 230, 230, .rw⟩
def RKS_GRP_UP_EN : Fld := ⟨RKS_GRP, 229, 229, .rw⟩
def RKS_GRP_ROOT : Fld := ⟨RKS_GRP, 228, 221, .rw⟩
def RKS_GRP_MEMBERS_M1 : Fld := ⟨RKS_GRP, 220, 213, .rw⟩
def RKS_GRP_LEN : Fld := ⟨RKS_GRP, 212, 192, .rw⟩
def RKS_GRP_ACC_BASE : Fld := ⟨RKS_GRP, 184, 160, .rw⟩
def RKS_GRP_ROUND_TIMEOUT_US : Fld := ⟨RKS_GRP, 159, 144, .rw⟩
def RKS_GRP_MCAST_GRP : Fld := ⟨RKS_GRP, 143, 132, .rw⟩
def RKS_GRP_UP_GROUP : Fld := ⟨RKS_GRP, 131, 120, .rw⟩
def RKS_GRP_UP_MEMBER : Fld := ⟨RKS_GRP, 119, 112, .rw⟩
def RKS_GRP_UP_EP : Fld := ⟨RKS_GRP, 111, 96, .rw⟩
def RKS_GRP_BCAST_ADDR : Fld := ⟨RKS_GRP, 87, 32, .rw⟩

/-- State of group g (chapter 17). -/
def RKS_GRP_STAT : Reg := ⟨0x1020000, 0x8, 4096, 0x0, 1, 8, 0x0, 0⟩
def RKS_GRP_STAT_STATE : Fld := ⟨RKS_GRP_STAT, 63, 62, .ro⟩
def RKS_GRP_STAT_ARRIVED : Fld := ⟨RKS_GRP_STAT, 61, 53, .ro⟩
def RKS_GRP_STAT_ROUND : Fld := ⟨RKS_GRP_STAT, 47, 32, .ro⟩
def RKS_GRP_STAT_TIMEOUTS : Fld := ⟨RKS_GRP_STAT, 15, 0, .rc⟩

/-- Engines of cluster c (chapter 17). -/
def RKS_CLU : Reg := ⟨0x1030000, 0x10, 16, 0x0, 1, 16, 0x0, 0⟩
def RKS_CLU_RAKE_ROWS : Fld := ⟨RKS_CLU, 127, 96, .rc⟩
def RKS_CLU_SIEVE_RECS : Fld := ⟨RKS_CLU, 95, 64, .rc⟩
def RKS_CLU_FRAGMENTS : Fld := ⟨RKS_CLU, 63, 32, .rc⟩
def RKS_CLU_RAKE_ERR : Fld := ⟨RKS_CLU, 31, 16, .rc⟩
def RKS_CLU_SIEVE_POISON : Fld := ⟨RKS_CLU, 15, 0, .rc⟩

/-- Reduction counters (chapter 17). -/
def RKS_STAT : Reg := ⟨0x1031000, 0x0, 1, 0x0, 1, 8, 0x0, 0⟩
def RKS_STAT_REFUSED : Fld := ⟨RKS_STAT, 63, 48, .rc⟩
def RKS_STAT_STALE : Fld := ⟨RKS_STAT, 47, 32, .rc⟩
def RKS_STAT_DUP : Fld := ⟨RKS_STAT, 31, 16, .rc⟩
def RKS_STAT_BCAST_FAIL : Fld := ⟨RKS_STAT, 15, 0, .rc⟩

/-- Allotment a (chapter 18). -/
def ALT_CFG : Reg := ⟨0x1100000, 0x40, 256, 0x0, 1, 8, 0x100000010001000, 4⟩
def ALT_CFG_ENABLE : Fld := ⟨ALT_CFG, 63, 63, .rw⟩
def ALT_CFG_STATE : Fld := ⟨ALT_CFG, 62, 61, .ro⟩
def ALT_CFG_NMODE : Fld := ⟨ALT_CFG, 57, 56, .rw⟩
def ALT_CFG_NOTIFY_EP : Fld := ⟨ALT_CFG, 47, 32, .rw⟩
def ALT_CFG_N_BURST : Fld := ⟨ALT_CFG, 31, 24, .rw⟩
def ALT_CFG_N_RATE : Fld := ⟨ALT_CFG, 23, 8, .rw⟩

/-- Notification vectors of allotment a (chapter 18). -/
def ALT_NVEC : Reg := ⟨0x1100008, 0x40, 256, 0x0, 1, 4, 0x0, 0⟩
def ALT_NVEC_VEC : Fld := ⟨ALT_NVEC, 23, 0, .rw⟩

/-- Notification and reset counts (chapter 18). -/
def ALT_STATUS : Reg := ⟨0x1100010, 0x40, 256, 0x0, 1, 8, 0x0, 0⟩
def ALT_STATUS_NQ : Fld := ⟨ALT_STATUS, 63, 57, .ro⟩
def ALT_STATUS_DISCARDED : Fld := ⟨ALT_STATUS, 47, 32, .rc⟩
def ALT_STATUS_RESETS : Fld := ⟨ALT_STATUS, 31, 24, .rc⟩
def ALT_STATUS_N_MERGED : Fld := ⟨ALT_STATUS, 23, 16, .rc⟩
def ALT_STATUS_N_LOST : Fld := ⟨ALT_STATUS, 15, 0, .rc⟩

/-- Record queue of allotment a (chapter 18). -/
def ALT_NPOP : Reg := ⟨0x1100020, 0x40, 256, 0x0, 1, 16, 0x0, 0⟩
def ALT_NPOP_RECORD : Fld := ⟨ALT_NPOP, 127, 0, .rc⟩

/-- Allotment reset (chapter 18). -/
def ALT_RESET : Reg := ⟨0x1104000, 0x0, 1, 0x0, 1, 4, 0x0, 0⟩
def ALT_RESET_START : Fld := ⟨ALT_RESET, 31, 31, .wo⟩
def ALT_RESET_ALLOT : Fld := ⟨ALT_RESET, 7, 0, .wo⟩

/-- System vector of block b (chapter 18). -/
def ALT_SYSVEC : Reg := ⟨0x1105000, 0x4, 20, 0x0, 1, 4, 0x0, 3⟩
def ALT_SYSVEC_VECTOR : Fld := ⟨ALT_SYSVEC, 7, 0, .rw⟩

/-- Composition map epoch (chapter 18). -/
def ALT_MAP : Reg := ⟨0x1106000, 0x0, 1, 0x0, 1, 16, 0x0, 0⟩
def ALT_MAP_CURRENT : Fld := ⟨ALT_MAP, 127, 96, .ro⟩
def ALT_MAP_NEXT : Fld := ⟨ALT_MAP, 95, 64, .rw⟩
def ALT_MAP_INSTALL_NS : Fld := ⟨ALT_MAP, 63, 0, .ro⟩

/-- Map install (chapter 18). -/
def ALT_MAP_CTL : Reg := ⟨0x1106010, 0x0, 1, 0x0, 1, 4, 0x0, 0⟩
def ALT_MAP_CTL_INSTALL : Fld := ⟨ALT_MAP_CTL, 31, 31, .wo⟩
def ALT_MAP_CTL_DRAINING : Fld := ⟨ALT_MAP_CTL, 30, 30, .ro⟩

/-- Origin shaper of allotment a on die d (chapter 18). -/
def ALT_SHAPE : Reg := ⟨0x1108000, 0x800, 2, 0x8, 256, 8, 0x10000000000000, 0⟩
def ALT_SHAPE_BURST : Fld := ⟨ALT_SHAPE, 63, 32, .rw⟩
def ALT_SHAPE_RATE : Fld := ⟨ALT_SHAPE, 15, 0, .rw⟩

/-- Lifecycle (chapter 19). -/
def SEC_LIFECYCLE : Reg := ⟨0x1200000, 0x0, 1, 0x0, 1, 4, 0x0, 0⟩
def SEC_LIFECYCLE_CONFIRM : Fld := ⟨SEC_LIFECYCLE, 31, 16, .wo⟩
def SEC_LIFECYCLE_TARGET : Fld := ⟨SEC_LIFECYCLE, 11, 10, .wo⟩
def SEC_LIFECYCLE_GO : Fld := ⟨SEC_LIFECYCLE, 9, 9, .wo⟩
def SEC_LIFECYCLE_STATE : Fld := ⟨SEC_LIFECYCLE, 1, 0, .ro⟩

/-- Security status (chapter 19). -/
def SEC_STATUS : Reg := ⟨0x1200008, 0x0, 1, 0x0, 1, 8, 0x1FF0000, 0⟩
def SEC_STATUS_TAMPER_COUNT : Fld := ⟨SEC_STATUS, 63, 48, .ro⟩
def SEC_STATUS_WIPES : Fld := ⟨SEC_STATUS, 47, 40, .rc⟩
def SEC_STATUS_LAST_WIPE : Fld := ⟨SEC_STATUS, 39, 36, .ro⟩
def SEC_STATUS_TAMPERED : Fld := ⟨SEC_STATUS, 35, 35, .ro⟩
def SEC_STATUS_RETURN_DONE : Fld := ⟨SEC_STATUS, 34, 34, .ro⟩
def SEC_STATUS_ID_READY : Fld := ⟨SEC_STATUS, 33, 33, .ro⟩
def SEC_STATUS_MSLOT_FREE : Fld := ⟨SEC_STATUS, 31, 16, .ro⟩
def SEC_STATUS_SIGN_QUEUE : Fld := ⟨SEC_STATUS, 15, 12, .ro⟩
def SEC_STATUS_IFR_REJECT : Fld := ⟨SEC_STATUS, 7, 0, .rc⟩

/-- Tenant removal (chapter 19). -/
def SEC_KEY_CMD : Reg := ⟨0x1200010, 0x0, 1, 0x0, 1, 4, 0x40000000, 0⟩
def SEC_KEY_CMD_START : Fld := ⟨SEC_KEY_CMD, 31, 31, .wo⟩
def SEC_KEY_CMD_DONE : Fld := ⟨SEC_KEY_CMD, 30, 30, .ro⟩
def SEC_KEY_CMD_STATUS : Fld := ⟨SEC_KEY_CMD, 23, 16, .ro⟩
def SEC_KEY_CMD_ALLOT : Fld := ⟨SEC_KEY_CMD, 15, 8, .rw⟩
def SEC_KEY_CMD_OP : Fld := ⟨SEC_KEY_CMD, 7, 0, .rw⟩

/-- Keys of allotment a (chapter 19). -/
def SEC_ALT : Reg := ⟨0x1210000, 0x10, 256, 0x0, 1, 16, 0x0, 0⟩
def SEC_ALT_FAB_EN : Fld := ⟨SEC_ALT, 127, 127, .ro⟩
def SEC_ALT_REMOVED : Fld := ⟨SEC_ALT, 126, 126, .ro⟩
def SEC_ALT_ACT_SLOT : Fld := ⟨SEC_ALT, 125, 125, .ro⟩
def SEC_ALT_A_STATE : Fld := ⟨SEC_ALT, 124, 123, .ro⟩
def SEC_ALT_B_STATE : Fld := ⟨SEC_ALT, 122, 121, .ro⟩
def SEC_ALT_MSLOT : Fld := ⟨SEC_ALT, 120, 112, .ro⟩
def SEC_ALT_A_GEN : Fld := ⟨SEC_ALT, 111, 96, .ro⟩
def SEC_ALT_B_GEN : Fld := ⟨SEC_ALT, 95, 80, .ro⟩
def SEC_ALT_AUTH_FAIL : Fld := ⟨SEC_ALT, 63, 32, .rc⟩

/-- Owner of allotment a (chapter 19). -/
def SEC_ALT_OWNER : Reg := ⟨0x1220000, 0x40, 256, 0x0, 1, 64, 0x0, 0⟩
def SEC_ALT_OWNER_DIGEST : Fld := ⟨SEC_ALT_OWNER, 511, 0, .rw⟩

/-- Measurement n (chapter 19). -/
def SEC_MEAS : Reg := ⟨0x1200100, 0x40, 6, 0x0, 1, 64, 0x0, 0⟩
def SEC_MEAS_DIGEST : Fld := ⟨SEC_MEAS, 511, 0, .ro⟩

/-- Identity public key (chapter 19). -/
def SEC_ID_PK : Reg := ⟨0x1200300, 0x0, 1, 0x0, 1, 64, 0x0, 0⟩
def SEC_ID_PK_PK : Fld := ⟨SEC_ID_PK, 511, 0, .ro⟩

/-- Tenant views (chapter 19). -/
def SEC_COARSE : Reg := ⟨0x1200400, 0x0, 1, 0x0, 1, 4, 0x1902800A, 0⟩
def SEC_COARSE_PERIOD_MS : Fld := ⟨SEC_COARSE, 31, 22, .rw⟩
def SEC_COARSE_POWER_STEP_W : Fld := ⟨SEC_COARSE, 21, 14, .rw⟩
def SEC_COARSE_SHIFT : Fld := ⟨SEC_COARSE, 4, 0, .rw⟩

/-- Credential key (chapter 19). -/
def SEC_CRED_PK : Reg := ⟨0x1230000, 0x80, 16, 0x0, 1, 64, 0x0, 0⟩
def SEC_CRED_PK_PK : Fld := ⟨SEC_CRED_PK, 511, 0, .rwl⟩

/-- Credential control (chapter 19). -/
def SEC_CRED_CTL : Reg := ⟨0x1230040, 0x80, 16, 0x0, 1, 4, 0x0, 0⟩
def SEC_CRED_CTL_VALID : Fld := ⟨SEC_CRED_CTL, 31, 31, .ro⟩
def SEC_CRED_CTL_REVOKED : Fld := ⟨SEC_CRED_CTL, 30, 30, .ro⟩
def SEC_CRED_CTL_REVOKE : Fld := ⟨SEC_CRED_CTL, 29, 29, .wo⟩
def SEC_CRED_CTL_PROGRAM : Fld := ⟨SEC_CRED_CTL, 28, 28, .wo⟩
def SEC_CRED_CTL_ROLE : Fld := ⟨SEC_CRED_CTL, 1, 0, .rwl⟩

/-- Membership timers (chapter 20). -/
def MBR_CFG : Reg := ⟨0x1300000, 0x0, 1, 0x0, 1, 8, 0xBB81F403E900000, 0⟩
def MBR_CFG_DECIDE_US : Fld := ⟨MBR_CFG, 63, 48, .rw⟩
def MBR_CFG_PHASE_US : Fld := ⟨MBR_CFG, 47, 36, .rw⟩
def MBR_CFG_HB_US : Fld := ⟨MBR_CFG, 35, 22, .rw⟩
def MBR_CFG_MISS : Fld := ⟨MBR_CFG, 21, 18, .rw⟩
def MBR_CFG_TIEBREAKER : Fld := ⟨MBR_CFG, 9, 0, .rw⟩

/-- Own identity (chapter 20). -/
def MBR_ID : Reg := ⟨0x1300008, 0x0, 1, 0x0, 1, 4, 0x0, 0⟩
def MBR_ID_FAILURE_DOMAIN : Fld := ⟨MBR_ID, 31, 16, .rw⟩
def MBR_ID_SELF : Fld := ⟨MBR_ID, 9, 0, .rw⟩

/-- Membership state (chapter 20). -/
def MBR_STATUS : Reg := ⟨0x1300010, 0x0, 1, 0x0, 1, 8, 0x0, 0⟩
def MBR_STATUS_EPOCH : Fld := ⟨MBR_STATUS, 63, 32, .ro⟩
def MBR_STATUS_STATE : Fld := ⟨MBR_STATUS, 31, 30, .ro⟩
def MBR_STATUS_FORMED : Fld := ⟨MBR_STATUS, 29, 29, .ro⟩
def MBR_STATUS_DECIDING : Fld := ⟨MBR_STATUS, 28, 28, .ro⟩
def MBR_STATUS_TESTED : Fld := ⟨MBR_STATUS, 27, 27, .ro⟩
def MBR_STATUS_COORD : Fld := ⟨MBR_STATUS, 26, 17, .ro⟩
def MBR_STATUS_VOTERS : Fld := ⟨MBR_STATUS, 16, 6, .ro⟩

/-- Last fencing (chapter 20). -/
def MBR_FENCE : Reg := ⟨0x1300018, 0x0, 1, 0x0, 1, 8, 0x0, 0⟩
def MBR_FENCE_SEEN_EPOCH : Fld := ⟨MBR_FENCE, 63, 32, .ro⟩
def MBR_FENCE_BY_EP : Fld := ⟨MBR_FENCE, 31, 16, .ro⟩
def MBR_FENCE_SELF_FENCED : Fld := ⟨MBR_FENCE, 0, 0, .ro⟩

/-- Membership commands (chapter 20). -/
def MBR_CTL : Reg := ⟨0x1300020, 0x0, 1, 0x0, 1, 4, 0x0, 0⟩
def MBR_CTL_FOUND : Fld := ⟨MBR_CTL, 31, 31, .wo⟩
def MBR_CTL_JOIN : Fld := ⟨MBR_CTL, 30, 30, .wo⟩
def MBR_CTL_REJOIN : Fld := ⟨MBR_CTL, 29, 29, .wo⟩
def MBR_CTL_SEND_MAP : Fld := ⟨MBR_CTL, 28, 28, .wo⟩
def MBR_CTL_EP : Fld := ⟨MBR_CTL, 15, 0, .rw⟩

/-- Membership counters (chapter 20). -/
def MBR_STAT : Reg := ⟨0x1300028, 0x0, 1, 0x0, 1, 16, 0x0, 0⟩
def MBR_STAT_DECLARED : Fld := ⟨MBR_STAT, 127, 112, .rc⟩
def MBR_STAT_INSTALLED : Fld := ⟨MBR_STAT, 111, 96, .rc⟩
def MBR_STAT_PROMOTED : Fld := ⟨MBR_STAT, 95, 80, .rc⟩
def MBR_STAT_LOST : Fld := ⟨MBR_STAT, 79, 64, .rc⟩
def MBR_STAT_REJECTS : Fld := ⟨MBR_STAT, 63, 48, .rc⟩

/-- Member entry (chapter 20). -/
def MBR_MEMBER : Reg := ⟨0x1310000, 0x10, 1024, 0x0, 1, 16, 0x0, 0⟩
def MBR_MEMBER_VALID : Fld := ⟨MBR_MEMBER, 127, 127, .rw⟩
def MBR_MEMBER_VOTER : Fld := ⟨MBR_MEMBER, 126, 126, .rw⟩
def MBR_MEMBER_WATCH : Fld := ⟨MBR_MEMBER, 125, 125, .rw⟩
def MBR_MEMBER_IN : Fld := ⟨MBR_MEMBER, 124, 124, .ro⟩
def MBR_MEMBER_DEAD : Fld := ⟨MBR_MEMBER, 123, 123, .ro⟩
def MBR_MEMBER_ENDPOINT : Fld := ⟨MBR_MEMBER, 119, 104, .rw⟩
def MBR_MEMBER_DOMAIN : Fld := ⟨MBR_MEMBER, 103, 88, .ro⟩
def MBR_MEMBER_LAST_HB_NS : Fld := ⟨MBR_MEMBER, 63, 0, .ro⟩

/-- Attach arguments (chapter 20). -/
def MBR_ATT_ARG : Reg := ⟨0x1320000, 0x40, 3, 0x0, 1, 8, 0x0, 0⟩
def MBR_ATT_ARG_MIRROR_EP : Fld := ⟨MBR_ATT_ARG, 63, 48, .rw⟩
def MBR_ATT_ARG_MIRROR_SESSION : Fld := ⟨MBR_ATT_ARG, 47, 32, .rw⟩
def MBR_ATT_ARG_SESSION : Fld := ⟨MBR_ATT_ARG, 15, 0, .rw⟩

/-- Attach command (chapter 20). -/
def MBR_ATT_CMD : Reg := ⟨0x1320010, 0x40, 3, 0x0, 1, 4, 0x0, 0⟩
def MBR_ATT_CMD_OP : Fld := ⟨MBR_ATT_CMD, 7, 0, .wo⟩

/-- Attach result (chapter 20). -/
def MBR_ATT_RESULT : Reg := ⟨0x1320018, 0x40, 3, 0x0, 1, 8, 0x8000000000000000, 0⟩
def MBR_ATT_RESULT_DONE : Fld := ⟨MBR_ATT_RESULT, 63, 63, .ro⟩
def MBR_ATT_RESULT_STATUS : Fld := ⟨MBR_ATT_RESULT, 55, 48, .ro⟩
def MBR_ATT_RESULT_BYTES : Fld := ⟨MBR_ATT_RESULT, 39, 0, .ro⟩

/-- Almanac settings (chapter 21). -/
def ALM_CFG : Reg := ⟨0x1400000, 0x0, 1, 0x0, 1, 4, 0x83E80A01, 0⟩
def ALM_CFG_CAL_EN : Fld := ⟨ALM_CFG, 31, 31, .rw⟩
def ALM_CFG_REPEAT_MS : Fld := ⟨ALM_CFG, 30, 16, .rw⟩
def ALM_CFG_CKPT_MIN : Fld := ⟨ALM_CFG, 15, 8, .rw⟩
def ALM_CFG_SAMPLE_S : Fld := ⟨ALM_CFG, 7, 0, .rw⟩

/-- Almanac state (chapter 21). -/
def ALM_STATUS : Reg := ⟨0x1400008, 0x0, 1, 0x0, 1, 8, 0x0, 0⟩
def ALM_STATUS_FULL : Fld := ⟨ALM_STATUS, 63, 63, .ro⟩
def ALM_STATUS_ERASING : Fld := ⟨ALM_STATUS, 62, 62, .ro⟩
def ALM_STATUS_NEXT : Fld := ⟨ALM_STATUS, 61, 45, .ro⟩
def ALM_STATUS_TORN : Fld := ⟨ALM_STATUS, 44, 37, .rc⟩
def ALM_STATUS_DROPPED : Fld := ⟨ALM_STATUS, 31, 16, .rc⟩
def ALM_STATUS_LOST : Fld := ⟨ALM_STATUS, 15, 0, .ro⟩

/-- Almanac commands (chapter 21). -/
def ALM_CTL : Reg := ⟨0x1400010, 0x0, 1, 0x0, 1, 4, 0x0, 0⟩
def ALM_CTL_ERASE : Fld := ⟨ALM_CTL, 31, 31, .wo⟩
def ALM_CTL_FLUSH : Fld := ⟨ALM_CTL, 30, 30, .wo⟩
def ALM_CTL_HIST_CLEAR : Fld := ⟨ALM_CTL, 29, 29, .wo⟩

/-- Life counters (chapter 21). -/
def ALM_LIFE : Reg := ⟨0x1400018, 0x0, 1, 0x0, 1, 16, 0x0, 0⟩
def ALM_LIFE_POWER_CYCLES : Fld := ⟨ALM_LIFE, 127, 96, .ro⟩
def ALM_LIFE_OP_NS : Fld := ⟨ALM_LIFE, 63, 0, .ro⟩

/-- Flash read window (chapter 21). -/
def ALM_RD_CTL : Reg := ⟨0x1400020, 0x0, 1, 0x0, 1, 4, 0x0, 0⟩
def ALM_RD_CTL_AREA : Fld := ⟨ALM_RD_CTL, 31, 31, .rw⟩
def ALM_RD_CTL_OFFSET : Fld := ⟨ALM_RD_CTL, 22, 0, .rw⟩

/-- Flash read data (chapter 21). -/
def ALM_RD_DATA : Reg := ⟨0x1400028, 0x0, 1, 0x0, 1, 8, 0x0, 0⟩
def ALM_RD_DATA_DATA : Fld := ⟨ALM_RD_DATA, 63, 0, .ro⟩

/-- Histogram counts (chapter 21). -/
def ALM_HIST : Reg := ⟨0x1400100, 0x40, 8, 0x4, 16, 4, 0x0, 0⟩
def ALM_HIST_COUNT : Fld := ⟨ALM_HIST, 31, 0, .ro⟩

/-- Extremes of histogram h (chapter 21). -/
def ALM_EXT : Reg := ⟨0x1400400, 0x20, 8, 0x0, 1, 32, 0x0, 0⟩
def ALM_EXT_MAX_NS : Fld := ⟨ALM_EXT, 255, 192, .ro⟩
def ALM_EXT_MIN_NS : Fld := ⟨ALM_EXT, 191, 128, .ro⟩
def ALM_EXT_MAX : Fld := ⟨ALM_EXT, 63, 32, .ro⟩
def ALM_EXT_MIN : Fld := ⟨ALM_EXT, 31, 0, .ro⟩

/-- Weeding pass (chapter 21). -/
def WDP_CFG : Reg := ⟨0x1500000, 0x0, 1, 0x0, 1, 8, 0x9C40DF00000001, 0⟩
def WDP_CFG_PERIOD_MS : Fld := ⟨WDP_CFG, 63, 42, .rw⟩
def WDP_CFG_STARVE_PASSES : Fld := ⟨WDP_CFG, 41, 38, .rw⟩
def WDP_CFG_KINDS : Fld := ⟨WDP_CFG, 37, 32, .rw⟩
def WDP_CFG_ENABLE : Fld := ⟨WDP_CFG, 0, 0, .rw⟩

/-- Weeding pass state (chapter 21). -/
def WDP_STATUS : Reg := ⟨0x1500008, 0x0, 1, 0x0, 1, 16, 0x0, 0⟩
def WDP_STATUS_PASSES : Fld := ⟨WDP_STATUS, 127, 96, .rc⟩
def WDP_STATUS_FAILS : Fld := ⟨WDP_STATUS, 95, 80, .rc⟩
def WDP_STATUS_ABANDONED : Fld := ⟨WDP_STATUS, 79, 64, .rc⟩
def WDP_STATUS_STARVED : Fld := ⟨WDP_STATUS, 1, 1, .w1c⟩
def WDP_STATUS_RUNNING : Fld := ⟨WDP_STATUS, 0, 0, .ro⟩

/-- Calibration source (chapter 21). -/
def WDP_CAL_ARG : Reg := ⟨0x1500100, 0x0, 1, 0x0, 1, 8, 0x0, 0⟩
def WDP_CAL_ARG_SRC : Fld := ⟨WDP_CAL_ARG, 55, 0, .rw⟩

/-- Calibration command (chapter 21). -/
def WDP_CAL_CMD : Reg := ⟨0x1500108, 0x0, 1, 0x0, 1, 4, 0x0, 0⟩
def WDP_CAL_CMD_CONFIRM : Fld := ⟨WDP_CAL_CMD, 31, 16, .wo⟩
def WDP_CAL_CMD_OP : Fld := ⟨WDP_CAL_CMD, 7, 0, .wo⟩

/-- Calibration state (chapter 21). -/
def WDP_CAL_STATUS : Reg := ⟨0x1500110, 0x0, 1, 0x0, 1, 4, 0x80000000, 0⟩
def WDP_CAL_STATUS_DONE : Fld := ⟨WDP_CAL_STATUS, 31, 31, .ro⟩
def WDP_CAL_STATUS_DEFAULTS : Fld := ⟨WDP_CAL_STATUS, 30, 30, .ro⟩
def WDP_CAL_STATUS_STATUS : Fld := ⟨WDP_CAL_STATUS, 15, 8, .ro⟩
def WDP_CAL_STATUS_WRITES : Fld := ⟨WDP_CAL_STATUS, 7, 0, .rc⟩

/-- Identity (chapter 22). -/
def GEN_ID : Reg := ⟨0x0, 0x0, 1, 0x0, 1, 8, 0x7290A0000000, 0⟩
def GEN_ID_VENDOR : Fld := ⟨GEN_ID, 63, 48, .ro⟩
def GEN_ID_DEVICE : Fld := ⟨GEN_ID, 47, 32, .ro⟩
def GEN_ID_STEPPING : Fld := ⟨GEN_ID, 31, 24, .ro⟩
def GEN_ID_DIE : Fld := ⟨GEN_ID, 0, 0, .ro⟩

/-- Start-up state (chapter 22). -/
def GEN_BOOT : Reg := ⟨0x8, 0x0, 1, 0x0, 1, 8, 0x0, 0⟩
def GEN_BOOT_STAGE : Fld := ⟨GEN_BOOT, 63, 60, .ro⟩
def GEN_BOOT_FAIL : Fld := ⟨GEN_BOOT, 59, 56, .ro⟩
def GEN_BOOT_READY_NS : Fld := ⟨GEN_BOOT, 47, 0, .ro⟩

/-- Firmware reload (chapter 22). -/
def GEN_FW_CTL : Reg := ⟨0x18, 0x0, 1, 0x0, 1, 4, 0x0, 0⟩
def GEN_FW_CTL_RELOAD : Fld := ⟨GEN_FW_CTL, 31, 31, .wo⟩
def GEN_FW_CTL_COMMIT_SVN : Fld := ⟨GEN_FW_CTL, 30, 30, .wo⟩
def GEN_FW_CTL_SOURCE : Fld := ⟨GEN_FW_CTL, 29, 29, .rw⟩
def GEN_FW_CTL_PERSIST : Fld := ⟨GEN_FW_CTL, 28, 28, .rw⟩
def GEN_FW_CTL_LEN : Fld := ⟨GEN_FW_CTL, 19, 0, .rw⟩

/-- Firmware state (chapter 22). -/
def GEN_FW_STATUS : Reg := ⟨0x20, 0x0, 1, 0x0, 1, 8, 0x8000000000000000, 0⟩
def GEN_FW_STATUS_DONE : Fld := ⟨GEN_FW_STATUS, 63, 63, .ro⟩
def GEN_FW_STATUS_HALT0 : Fld := ⟨GEN_FW_STATUS, 62, 62, .ro⟩
def GEN_FW_STATUS_HALT1 : Fld := ⟨GEN_FW_STATUS, 61, 61, .ro⟩
def GEN_FW_STATUS_STATUS : Fld := ⟨GEN_FW_STATUS, 55, 48, .ro⟩
def GEN_FW_STATUS_SVN : Fld := ⟨GEN_FW_STATUS, 47, 32, .ro⟩
def GEN_FW_STATUS_MIN_SVN : Fld := ⟨GEN_FW_STATUS, 31, 16, .ro⟩
def GEN_FW_STATUS_RELOADS : Fld := ⟨GEN_FW_STATUS, 15, 0, .rc⟩

/-- Management lane l (chapter 22). -/
def MGT_LANE : Reg := ⟨0x1600000, 0x10, 2, 0x0, 1, 16, 0x1, 0⟩
def MGT_LANE_MAC : Fld := ⟨MGT_LANE, 127, 80, .ro⟩
def MGT_LANE_IPV4 : Fld := ⟨MGT_LANE, 63, 32, .rw⟩
def MGT_LANE_LINK : Fld := ⟨MGT_LANE, 3, 3, .ro⟩
def MGT_LANE_SPEED : Fld := ⟨MGT_LANE, 2, 1, .ro⟩
def MGT_LANE_ENABLE : Fld := ⟨MGT_LANE, 0, 0, .rw⟩

/-- IEEE 1588 settings (chapter 22). -/
def MGT_PTP : Reg := ⟨0x1600100, 0x0, 1, 0x0, 1, 8, 0x3E8000A0001, 0⟩
def MGT_PTP_DOMAIN : Fld := ⟨MGT_PTP, 63, 56, .rw⟩
def MGT_PTP_VALID_NS : Fld := ⟨MGT_PTP, 47, 32, .rw⟩
def MGT_PTP_HOLDOVER_S : Fld := ⟨MGT_PTP, 31, 16, .rw⟩
def MGT_PTP_ENABLE : Fld := ⟨MGT_PTP, 0, 0, .rw⟩

/-- IEEE 1588 state (chapter 22). -/
def MGT_PTP_STATUS : Reg := ⟨0x1600108, 0x0, 1, 0x0, 1, 8, 0x0, 0⟩
def MGT_PTP_STATUS_STATE : Fld := ⟨MGT_PTP_STATUS, 63, 62, .ro⟩
def MGT_PTP_STATUS_VALID : Fld := ⟨MGT_PTP_STATUS, 61, 61, .ro⟩
def MGT_PTP_STATUS_OFFSET_NS : Fld := ⟨MGT_PTP_STATUS, 47, 16, .ro⟩

/-- Calendar time (chapter 22). -/
def MGT_CAL_NOW : Reg := ⟨0x1600110, 0x0, 1, 0x0, 1, 8, 0x0, 0⟩
def MGT_CAL_NOW_NS : Fld := ⟨MGT_CAL_NOW, 63, 0, .ro⟩

/-- System interrupt summary (chapter 23). -/
def GEN_INT : Reg := ⟨0x10, 0x0, 1, 0x0, 1, 8, 0x0, 0⟩
def GEN_INT_PEND : Fld := ⟨GEN_INT, 19, 0, .w1c⟩

/-- Package power and temperature (chapter 23). -/
def PWR_STATUS : Reg := ⟨0x1700000, 0x0, 1, 0x0, 1, 8, 0x0, 0⟩
def PWR_STATUS_PKG_W : Fld := ⟨PWR_STATUS, 63, 48, .ro⟩
def PWR_STATUS_PEAK_W : Fld := ⟨PWR_STATUS, 47, 32, .rc⟩
def PWR_STATUS_TJ_MAX : Fld := ⟨PWR_STATUS, 31, 16, .ro⟩
def PWR_STATUS_HOT : Fld := ⟨PWR_STATUS, 1, 1, .w1c⟩
def PWR_STATUS_ALERT : Fld := ⟨PWR_STATUS, 0, 0, .ro⟩

/-- Temperature alert (chapter 23). -/
def PWR_THERM : Reg := ⟨0x1700008, 0x0, 1, 0x0, 1, 4, 0x5F0000, 0⟩
def PWR_THERM_HOT_C : Fld := ⟨PWR_THERM, 23, 16, .rw⟩

/-- Adaptive VDD_LOGIC (chapter 23). -/
def PWR_AVS : Reg := ⟨0x1700010, 0x0, 1, 0x0, 1, 4, 0x2EE02EE, 0⟩
def PWR_AVS_MODE : Fld := ⟨PWR_AVS, 31, 31, .rw⟩
def PWR_AVS_FIXED_MV : Fld := ⟨PWR_AVS, 25, 16, .rw⟩
def PWR_AVS_TARGET_MV : Fld := ⟨PWR_AVS, 9, 0, .ro⟩

/-- Rail monitor r (chapter 23). -/
def PWR_RAIL : Reg := ⟨0x1700040, 0x8, 8, 0x0, 1, 8, 0x0, 0⟩
def PWR_RAIL_MV : Fld := ⟨PWR_RAIL, 47, 32, .ro⟩
def PWR_RAIL_MA : Fld := ⟨PWR_RAIL, 31, 0, .ro⟩

/-- The table of the registers of PF0 BAR0 (R486), in the order of the chapters, in pieces. -/
def rows0 : List RegRow :=
  [⟨TIM_NOW, [TIM_NOW_NS]⟩,
   ⟨TIM_NOW_HI_SHADOW, [TIM_NOW_HI_SHADOW_NS_HI]⟩,
   ⟨TIM_STATUS, [TIM_STATUS_DIE_SKEW_NS, TIM_STATUS_WRATE_LOW, TIM_STATUS_DIE_SYNC, TIM_STATUS_REFCLK_OK, TIM_STATUS_LOCK]⟩,
   ⟨TIM_WMON_CTL, [TIM_WMON_CTL_ENABLE, TIM_WMON_CTL_WINDOW_US]⟩,
   ⟨TIM_WRATE_PKG, [TIM_WRATE_PKG_SEQ, TIM_WRATE_PKG_MAX, TIM_WRATE_PKG_MEAN, TIM_WRATE_PKG_MIN]⟩,
   ⟨TIM_WRATE_ALERT, [TIM_WRATE_ALERT_THRESHOLD]⟩,
   ⟨TIM_WRATE_CLU, [TIM_WRATE_CLU_LOWEST, TIM_WRATE_CLU_RATE]⟩,
   ⟨PWR_VMON, [PWR_VMON_TEMP, PWR_VMON_MV]⟩,
   ⟨LNK_DEGRADE_CTL, [LNK_DEGRADE_CTL_UNCORR_MAX, LNK_DEGRADE_CTL_NEAR_MAX, LNK_DEGRADE_CTL_WINDOW_MS]⟩,
   ⟨LNK_PORT_CFG, [LNK_PORT_CFG_PROP_PS_PER_M, LNK_PORT_CFG_ROLE, LNK_PORT_CFG_AUTO_RETRAIN, LNK_PORT_CFG_ENABLE, LNK_PORT_CFG_MIN_WIDTH, LNK_PORT_CFG_WIDTH]⟩,
   ⟨LNK_PORT_CTL, [LNK_PORT_CTL_RETRAIN, LNK_PORT_CTL_ACCEPT]⟩,
   ⟨LNK_PORT_STATUS, [LNK_PORT_STATUS_PARTNER_EP, LNK_PORT_STATUS_LOAD_TYPE, LNK_PORT_STATUS_HOLD_REASON, LNK_PORT_STATUS_STATE, LNK_PORT_STATUS_LANE_MAP, LNK_PORT_STATUS_WIDTH_UP, LNK_PORT_STATUS_RETRAINS, LNK_PORT_STATUS_FLUSHED, LNK_PORT_STATUS_DEGRADING, LNK_PORT_STATUS_LOSS_HIGH, LNK_PORT_STATUS_LEND, LNK_PORT_STATUS_EXPANDER]⟩]

def rows1 : List RegRow :=
  [⟨LNK_PORT_MEAS, [LNK_PORT_MEAS_RTT_UI, LNK_PORT_MEAS_LENGTH_DM, LNK_PORT_MEAS_SKEW_UI, LNK_PORT_MEAS_LOSS]⟩,
   ⟨LNK_PORT_PARTNER, [LNK_PORT_PARTNER_WORD]⟩,
   ⟨LNK_LANE_STATUS, [LNK_LANE_STATUS_LOSS, LNK_LANE_STATUS_POL_INV, LNK_LANE_STATUS_GOOD, LNK_LANE_STATUS_POSITION]⟩,
   ⟨LNK_LANE_ERR, [LNK_LANE_ERR_UNCORR, LNK_LANE_ERR_NEAR, LNK_LANE_ERR_CORR]⟩,
   ⟨LNK_MFP_ID, [LNK_MFP_ID_ENDPOINT]⟩,
   ⟨LNK_MFP_CTL, [LNK_MFP_CTL_REQ_TIMEOUT_US, LNK_MFP_CTL_COPY_RESEND_MAX]⟩,
   ⟨LNK_MFP_DROP, [LNK_MFP_DROP_MALFORMED, LNK_MFP_DROP_STALE_MBR, LNK_MFP_DROP_AUTH_FAIL, LNK_MFP_DROP_LATE]⟩,
   ⟨LNK_MFP_NAK, [LNK_MFP_NAK_REMAP, LNK_MFP_NAK_BUSY, LNK_MFP_NAK_ACCESS, LNK_MFP_NAK_OTHER]⟩,
   ⟨TRL_COMB_CTL, [TRL_COMB_CTL_FADD_EN, TRL_COMB_CTL_READ_EN]⟩,
   ⟨TRL_COMB_STATUS, [TRL_COMB_STATUS_IN_USE, TRL_COMB_STATUS_FULL, TRL_COMB_STATUS_JOINED]⟩,
   ⟨TRL_CELLS, [TRL_CELLS_USABLE, TRL_CELLS_SPARE, TRL_CELLS_FREE]⟩,
   ⟨TRL_CFG, [TRL_CFG_CUT_THROUGH, TRL_CFG_EVICT_FLOOR]⟩]

def rows2 : List RegRow :=
  [⟨TRL_LL_STATUS, [TRL_LL_STATUS_COMMITTED, TRL_LL_STATUS_BUDGET]⟩,
   ⟨TRL_BAD, [TRL_BAD_TAIL_MARKED, TRL_BAD_NOTICE_LOST, TRL_BAD_LL_REFUSED]⟩,
   ⟨TRL_PORT_LL, [TRL_PORT_LL_TC7, TRL_PORT_LL_TC6, TRL_PORT_LL_TC5, TRL_PORT_LL_TC4]⟩,
   ⟨TRL_PORT_EV, [TRL_PORT_EV_TC3, TRL_PORT_EV_TC2, TRL_PORT_EV_TC1, TRL_PORT_EV_TC0]⟩,
   ⟨TRL_PORT_OCC, [TRL_PORT_OCC_IN_CELLS, TRL_PORT_OCC_OUT_CELLS]⟩,
   ⟨TRL_PORT_PEAK, [TRL_PORT_PEAK_IN_PEAK, TRL_PORT_PEAK_OUT_PEAK]⟩,
   ⟨TRL_MCAST, [TRL_MCAST_OWNER, TRL_MCAST_VALID, TRL_MCAST_BRIDGE, TRL_MCAST_LOCAL, TRL_MCAST_PORTS]⟩,
   ⟨TRL_ROUTE, [TRL_ROUTE_VALID, TRL_ROUTE_BRIDGE, TRL_ROUTE_PORT]⟩,
   ⟨TRL_QCNT, [TRL_QCNT_PUSHED, TRL_QCNT_TX_FRAMES, TRL_QCNT_TX_BYTES]⟩,
   ⟨QOS_SCHED, [QOS_SCHED_W3, QOS_SCHED_W2, QOS_SCHED_W1, QOS_SCHED_W0, QOS_SCHED_EV_MIN_PCT]⟩,
   ⟨QOS_SHAPE, [QOS_SHAPE_BURST, QOS_SHAPE_RATE]⟩,
   ⟨QOS_POLICE, [QOS_POLICE_BURST, QOS_POLICE_RATE]⟩]

def rows3 : List RegRow :=
  [⟨QOS_ALT_SHARE, [QOS_ALT_SHARE_EV_SHARE]⟩,
   ⟨QOS_ALT_CNT, [QOS_ALT_CNT_POLICED, QOS_ALT_CNT_OVER_KIB, QOS_ALT_CNT_LL_CELLS, QOS_ALT_CNT_EV_CELLS]⟩,
   ⟨MEM_TIER_CFG, [MEM_TIER_CFG_HOT_WINDOW_US, MEM_TIER_CFG_HOT_COUNT, MEM_TIER_CFG_WARM_HOLD_MS, MEM_TIER_CFG_LOW_WATER]⟩,
   ⟨MEM_TIER_STATUS, [MEM_TIER_STATUS_T1_FREE, MEM_TIER_STATUS_T2_FREE]⟩,
   ⟨MEM_TIER_CNT, [MEM_TIER_CNT_PROMOTED, MEM_TIER_CNT_DEMOTED, MEM_TIER_CNT_WRITEBACK, MEM_TIER_CNT_WARM_NOSESS, MEM_TIER_CNT_WARM_SHORT]⟩,
   ⟨MEM_OBJ_ARG, [MEM_OBJ_ARG_ARG]⟩,
   ⟨MEM_OBJ_CMD, [MEM_OBJ_CMD_OP]⟩,
   ⟨MEM_OBJ_RESULT, [MEM_OBJ_RESULT_DONE, MEM_OBJ_RESULT_STATUS, MEM_OBJ_RESULT_OBJ]⟩,
   ⟨MEM_OBJ, [MEM_OBJ_ALLOT, MEM_OBJ_VALID, MEM_OBJ_POLICY, MEM_OBJ_HOME_DIE, MEM_OBJ_VERSIONED, MEM_OBJ_BASE_PAGE, MEM_OBJ_PAGES, MEM_OBJ_T1_PAGES, MEM_OBJ_LOST, MEM_OBJ_MIGRATING, MEM_OBJ_STREAM_SRC]⟩,
   ⟨MEM_SPAN, [MEM_SPAN_VALID, MEM_SPAN_SPAN, MEM_SPAN_ALLOT]⟩,
   ⟨MEM_LEND, [MEM_LEND_VALID, MEM_LEND_ALLOT, MEM_LEND_LENDER_EP, MEM_LEND_POOL_PAGE, MEM_LEND_LOCAL_PAGE, MEM_LEND_PAGES]⟩,
   ⟨MEM_CXL_CTL, [MEM_CXL_CTL_ENABLE]⟩]

def rows4 : List RegRow :=
  [⟨MEM_CXL_STATUS, [MEM_CXL_STATUS_LAT_MAX_NS, MEM_CXL_STATUS_LAT_MED_NS, MEM_CXL_STATUS_USED_PAGES, MEM_CXL_STATUS_CAP_PAGES, MEM_CXL_STATUS_DRAIN_STUCK, MEM_CXL_STATUS_SPEED, MEM_CXL_STATUS_WIDTH, MEM_CXL_STATUS_REASON, MEM_CXL_STATUS_STATE]⟩,
   ⟨MEM_STACK_STATUS, [MEM_STACK_STATUS_FAILED, MEM_STACK_STATUS_FREE, MEM_STACK_STATUS_CHAN_OK]⟩,
   ⟨MEM_HOME, [MEM_HOME_VALID, MEM_HOME_ENDPOINT]⟩,
   ⟨CLU_BANK, [CLU_BANK_STATE, CLU_BANK_COLD, CLU_BANK_LOST, CLU_BANK_REFUSED, CLU_BANK_DISCARDED, CLU_BANK_CORR, CLU_BANK_SPARES_LEFT, CLU_BANK_COLD_REQ, CLU_BANK_ASSIGN, CLU_BANK_OWNER]⟩,
   ⟨CLU_CORE_OWN, [CLU_CORE_OWN_STATE, CLU_CORE_OWN_COLD, CLU_CORE_OWN_LOST, CLU_CORE_OWN_REFUSED, CLU_CORE_OWN_DISCARDED, CLU_CORE_OWN_CORR, CLU_CORE_OWN_SPARES_LEFT, CLU_CORE_OWN_COLD_REQ, CLU_CORE_OWN_ASSIGN, CLU_CORE_OWN_OWNER]⟩,
   ⟨CLU_COLD_CFG, [CLU_COLD_CFG_IDLE_US]⟩,
   ⟨CLU_MARCH_CTL, [CLU_MARCH_CTL_START, CLU_MARCH_CTL_MODE, CLU_MARCH_CTL_KIND, CLU_MARCH_CTL_CORE, CLU_MARCH_CTL_BANK]⟩,
   ⟨CLU_MARCH_STATUS, [CLU_MARCH_STATUS_BUSY, CLU_MARCH_STATUS_DONE, CLU_MARCH_STATUS_RESULT, CLU_MARCH_STATUS_ROWS_FAILED, CLU_MARCH_STATUS_START_REPAIRS, CLU_MARCH_STATUS_START_FAILED]⟩,
   ⟨CLU_TBT_CTL, [CLU_TBT_CTL_START, CLU_TBT_CTL_CLUSTER, CLU_TBT_CTL_KIND, CLU_TBT_CTL_CORE, CLU_TBT_CTL_BANK, CLU_TBT_CTL_OFFSET]⟩,
   ⟨CLU_TBT_STATUS, [CLU_TBT_STATUS_BUSY, CLU_TBT_STATUS_RESULT, CLU_TBT_STATUS_FAIL_OFFSET]⟩,
   ⟨NMU_CMD_DESC, [NMU_CMD_DESC_WORD]⟩,
   ⟨NMU_CMD_GO, [NMU_CMD_GO_START]⟩]

def rows5 : List RegRow :=
  [⟨NMU_CMD_REC, [NMU_CMD_REC_WORD]⟩,
   ⟨NMU_CFG, [NMU_CFG_BURST_UNITS]⟩,
   ⟨NMU_STAT, [NMU_STAT_UNCORR, NMU_STAT_CORR, NMU_STAT_REF_OWED_MAX]⟩,
   ⟨COH_CFG, [COH_CFG_SNOOP_TIMEOUT_US]⟩,
   ⟨COH_STAT, [COH_STAT_ENTRIES, COH_STAT_RECALLS, COH_STAT_TIMEOUTS, COH_STAT_LATE, COH_STAT_PROTO_ERR, COH_STAT_BUSY]⟩,
   ⟨COH_AGENT, [COH_AGENT_VALID, COH_AGENT_RECLAIM, COH_AGENT_RECLAIMING, COH_AGENT_FENCED, COH_AGENT_ENDPOINT, COH_AGENT_TIMEOUTS, COH_AGENT_LINES]⟩,
   ⟨COH_RECALL_ARG, [COH_RECALL_ARG_ALLOT, COH_RECALL_ARG_BASE_PAGE, COH_RECALL_ARG_PAGES]⟩,
   ⟨COH_RECALL_CTL, [COH_RECALL_CTL_START, COH_RECALL_CTL_DONE, COH_RECALL_CTL_STATUS, COH_RECALL_CTL_LINES]⟩,
   ⟨VER_ARG, [VER_ARG_ARG]⟩,
   ⟨VER_CMD, [VER_CMD_OP]⟩,
   ⟨VER_RESULT, [VER_RESULT_DONE, VER_RESULT_STATUS, VER_RESULT_REGION, VER_RESULT_SLOT, VER_RESULT_VERSION]⟩,
   ⟨VER_STAT, [VER_STAT_IN_USE, VER_STAT_STALE, VER_STAT_COW_SHORT]⟩]

def rows6 : List RegRow :=
  [⟨VER_REGION, [VER_REGION_VALID, VER_REGION_LOST, VER_REGION_PUBLISHING, VER_REGION_ALLOT, VER_REGION_WORK_OBJ, VER_REGION_VIEW_OBJ, VER_REGION_LIVE_MASK, VER_REGION_CUR_SLOT, VER_REGION_COW_PAGES, VER_REGION_CUR_VERSION]⟩,
   ⟨VER_SLOT, [VER_SLOT_STATE, VER_SLOT_OPENS, VER_SLOT_VERSION]⟩,
   ⟨CLU_SLOT, [CLU_SLOT_VALID, CLU_SLOT_LOADING, CLU_SLOT_UNLOADING, CLU_SLOT_OWNER, CLU_SLOT_CLUSTERS, CLU_SLOT_HOME_CLUSTER, CLU_SLOT_IN_OFFSET, CLU_SLOT_LENGTH, CLU_SLOT_STORE_UNIT, CLU_SLOT_RUNNING]⟩,
   ⟨CLU_LOAD_ARG, [CLU_LOAD_ARG_ARG]⟩,
   ⟨CLU_LOAD_CMD, [CLU_LOAD_CMD_OP]⟩,
   ⟨CLU_LOAD_RESULT, [CLU_LOAD_RESULT_DONE, CLU_LOAD_RESULT_STATUS, CLU_LOAD_RESULT_SLOT]⟩,
   ⟨CLU_INV_CFG, [CLU_INV_CFG_RUN_LIMIT_US]⟩,
   ⟨CLU_STATUS, [CLU_STATUS_DISABLED, CLU_STATUS_WEEDING, CLU_STATUS_FREE, CLU_STATUS_ASSEMBLING, CLU_STATUS_RUNNING, CLU_STATUS_DRAINING, CLU_STATUS_DISPATCHED, CLU_STATUS_BUSY, CLU_STATUS_FAULTS]⟩,
   ⟨CLU_NUM, [CLU_NUM_SAT_PROG, CLU_NUM_SAT_SES, CLU_NUM_ZEROED, CLU_NUM_NAN_BLK]⟩,
   ⟨SES_QCHK, [SES_QCHK_HOLD_C, SES_QCHK_HOLD_B]⟩,
   ⟨SES_QCNT, [SES_QCNT_HELD_B, SES_QCNT_HELD_C]⟩,
   ⟨SES_ARG, [SES_ARG_WORD]⟩]

def rows7 : List RegRow :=
  [⟨SES_CMD, [SES_CMD_SESSION, SES_CMD_OP]⟩,
   ⟨SES_RESULT, [SES_RESULT_DONE, SES_RESULT_STATUS]⟩,
   ⟨SES_STAT, [SES_STAT_IN_USE, SES_STAT_NOSESS, SES_STAT_RECORDS, SES_STAT_MIRROR_BROKEN]⟩,
   ⟨EXP_EGR, [EXP_EGR_VALID, EXP_EGR_ALLOT, EXP_EGR_NBLOCKS, EXP_EGR_VIEW_PAGE, EXP_EGR_INDEX_BASE, EXP_EGR_CODED_BYTES, EXP_EGR_CODED_BASE]⟩,
   ⟨EXP_CLU, [EXP_CLU_CODED, EXP_CLU_RAW, EXP_CLU_SLOW, EXP_CLU_LEN, EXP_CLU_CODE]⟩,
   ⟨EXP_EGR_STAT, [EXP_EGR_STAT_BLOCKS, EXP_EGR_STAT_FAILED, EXP_EGR_STAT_REFUSED]⟩,
   ⟨RKS_GRP, [RKS_GRP_VALID, RKS_GRP_ABANDON, RKS_GRP_OWNER, RKS_GRP_HOME_CLUSTER, RKS_GRP_OP, RKS_GRP_DTYPE, RKS_GRP_DELIVER, RKS_GRP_BCAST_EN, RKS_GRP_UP_EN, RKS_GRP_ROOT, RKS_GRP_MEMBERS_M1, RKS_GRP_LEN, RKS_GRP_ACC_BASE, RKS_GRP_ROUND_TIMEOUT_US, RKS_GRP_MCAST_GRP, RKS_GRP_UP_GROUP, RKS_GRP_UP_MEMBER, RKS_GRP_UP_EP, RKS_GRP_BCAST_ADDR]⟩,
   ⟨RKS_GRP_STAT, [RKS_GRP_STAT_STATE, RKS_GRP_STAT_ARRIVED, RKS_GRP_STAT_ROUND, RKS_GRP_STAT_TIMEOUTS]⟩,
   ⟨RKS_CLU, [RKS_CLU_RAKE_ROWS, RKS_CLU_SIEVE_RECS, RKS_CLU_FRAGMENTS, RKS_CLU_RAKE_ERR, RKS_CLU_SIEVE_POISON]⟩,
   ⟨RKS_STAT, [RKS_STAT_REFUSED, RKS_STAT_STALE, RKS_STAT_DUP, RKS_STAT_BCAST_FAIL]⟩,
   ⟨ALT_CFG, [ALT_CFG_ENABLE, ALT_CFG_STATE, ALT_CFG_NMODE, ALT_CFG_NOTIFY_EP, ALT_CFG_N_BURST, ALT_CFG_N_RATE]⟩,
   ⟨ALT_NVEC, [ALT_NVEC_VEC]⟩]

def rows8 : List RegRow :=
  [⟨ALT_STATUS, [ALT_STATUS_NQ, ALT_STATUS_DISCARDED, ALT_STATUS_RESETS, ALT_STATUS_N_MERGED, ALT_STATUS_N_LOST]⟩,
   ⟨ALT_NPOP, [ALT_NPOP_RECORD]⟩,
   ⟨ALT_RESET, [ALT_RESET_START, ALT_RESET_ALLOT]⟩,
   ⟨ALT_SYSVEC, [ALT_SYSVEC_VECTOR]⟩,
   ⟨ALT_MAP, [ALT_MAP_CURRENT, ALT_MAP_NEXT, ALT_MAP_INSTALL_NS]⟩,
   ⟨ALT_MAP_CTL, [ALT_MAP_CTL_INSTALL, ALT_MAP_CTL_DRAINING]⟩,
   ⟨ALT_SHAPE, [ALT_SHAPE_BURST, ALT_SHAPE_RATE]⟩,
   ⟨SEC_LIFECYCLE, [SEC_LIFECYCLE_CONFIRM, SEC_LIFECYCLE_TARGET, SEC_LIFECYCLE_GO, SEC_LIFECYCLE_STATE]⟩,
   ⟨SEC_STATUS, [SEC_STATUS_TAMPER_COUNT, SEC_STATUS_WIPES, SEC_STATUS_LAST_WIPE, SEC_STATUS_TAMPERED, SEC_STATUS_RETURN_DONE, SEC_STATUS_ID_READY, SEC_STATUS_MSLOT_FREE, SEC_STATUS_SIGN_QUEUE, SEC_STATUS_IFR_REJECT]⟩,
   ⟨SEC_KEY_CMD, [SEC_KEY_CMD_START, SEC_KEY_CMD_DONE, SEC_KEY_CMD_STATUS, SEC_KEY_CMD_ALLOT, SEC_KEY_CMD_OP]⟩,
   ⟨SEC_ALT, [SEC_ALT_FAB_EN, SEC_ALT_REMOVED, SEC_ALT_ACT_SLOT, SEC_ALT_A_STATE, SEC_ALT_B_STATE, SEC_ALT_MSLOT, SEC_ALT_A_GEN, SEC_ALT_B_GEN, SEC_ALT_AUTH_FAIL]⟩,
   ⟨SEC_ALT_OWNER, [SEC_ALT_OWNER_DIGEST]⟩]

def rows9 : List RegRow :=
  [⟨SEC_MEAS, [SEC_MEAS_DIGEST]⟩,
   ⟨SEC_ID_PK, [SEC_ID_PK_PK]⟩,
   ⟨SEC_COARSE, [SEC_COARSE_PERIOD_MS, SEC_COARSE_POWER_STEP_W, SEC_COARSE_SHIFT]⟩,
   ⟨SEC_CRED_PK, [SEC_CRED_PK_PK]⟩,
   ⟨SEC_CRED_CTL, [SEC_CRED_CTL_VALID, SEC_CRED_CTL_REVOKED, SEC_CRED_CTL_REVOKE, SEC_CRED_CTL_PROGRAM, SEC_CRED_CTL_ROLE]⟩,
   ⟨MBR_CFG, [MBR_CFG_DECIDE_US, MBR_CFG_PHASE_US, MBR_CFG_HB_US, MBR_CFG_MISS, MBR_CFG_TIEBREAKER]⟩,
   ⟨MBR_ID, [MBR_ID_FAILURE_DOMAIN, MBR_ID_SELF]⟩,
   ⟨MBR_STATUS, [MBR_STATUS_EPOCH, MBR_STATUS_STATE, MBR_STATUS_FORMED, MBR_STATUS_DECIDING, MBR_STATUS_TESTED, MBR_STATUS_COORD, MBR_STATUS_VOTERS]⟩,
   ⟨MBR_FENCE, [MBR_FENCE_SEEN_EPOCH, MBR_FENCE_BY_EP, MBR_FENCE_SELF_FENCED]⟩,
   ⟨MBR_CTL, [MBR_CTL_FOUND, MBR_CTL_JOIN, MBR_CTL_REJOIN, MBR_CTL_SEND_MAP, MBR_CTL_EP]⟩,
   ⟨MBR_STAT, [MBR_STAT_DECLARED, MBR_STAT_INSTALLED, MBR_STAT_PROMOTED, MBR_STAT_LOST, MBR_STAT_REJECTS]⟩,
   ⟨MBR_MEMBER, [MBR_MEMBER_VALID, MBR_MEMBER_VOTER, MBR_MEMBER_WATCH, MBR_MEMBER_IN, MBR_MEMBER_DEAD, MBR_MEMBER_ENDPOINT, MBR_MEMBER_DOMAIN, MBR_MEMBER_LAST_HB_NS]⟩]

def rows10 : List RegRow :=
  [⟨MBR_ATT_ARG, [MBR_ATT_ARG_MIRROR_EP, MBR_ATT_ARG_MIRROR_SESSION, MBR_ATT_ARG_SESSION]⟩,
   ⟨MBR_ATT_CMD, [MBR_ATT_CMD_OP]⟩,
   ⟨MBR_ATT_RESULT, [MBR_ATT_RESULT_DONE, MBR_ATT_RESULT_STATUS, MBR_ATT_RESULT_BYTES]⟩,
   ⟨ALM_CFG, [ALM_CFG_CAL_EN, ALM_CFG_REPEAT_MS, ALM_CFG_CKPT_MIN, ALM_CFG_SAMPLE_S]⟩,
   ⟨ALM_STATUS, [ALM_STATUS_FULL, ALM_STATUS_ERASING, ALM_STATUS_NEXT, ALM_STATUS_TORN, ALM_STATUS_DROPPED, ALM_STATUS_LOST]⟩,
   ⟨ALM_CTL, [ALM_CTL_ERASE, ALM_CTL_FLUSH, ALM_CTL_HIST_CLEAR]⟩,
   ⟨ALM_LIFE, [ALM_LIFE_POWER_CYCLES, ALM_LIFE_OP_NS]⟩,
   ⟨ALM_RD_CTL, [ALM_RD_CTL_AREA, ALM_RD_CTL_OFFSET]⟩,
   ⟨ALM_RD_DATA, [ALM_RD_DATA_DATA]⟩,
   ⟨ALM_HIST, [ALM_HIST_COUNT]⟩,
   ⟨ALM_EXT, [ALM_EXT_MAX_NS, ALM_EXT_MIN_NS, ALM_EXT_MAX, ALM_EXT_MIN]⟩,
   ⟨WDP_CFG, [WDP_CFG_PERIOD_MS, WDP_CFG_STARVE_PASSES, WDP_CFG_KINDS, WDP_CFG_ENABLE]⟩]

def rows11 : List RegRow :=
  [⟨WDP_STATUS, [WDP_STATUS_PASSES, WDP_STATUS_FAILS, WDP_STATUS_ABANDONED, WDP_STATUS_STARVED, WDP_STATUS_RUNNING]⟩,
   ⟨WDP_CAL_ARG, [WDP_CAL_ARG_SRC]⟩,
   ⟨WDP_CAL_CMD, [WDP_CAL_CMD_CONFIRM, WDP_CAL_CMD_OP]⟩,
   ⟨WDP_CAL_STATUS, [WDP_CAL_STATUS_DONE, WDP_CAL_STATUS_DEFAULTS, WDP_CAL_STATUS_STATUS, WDP_CAL_STATUS_WRITES]⟩,
   ⟨GEN_ID, [GEN_ID_VENDOR, GEN_ID_DEVICE, GEN_ID_STEPPING, GEN_ID_DIE]⟩,
   ⟨GEN_BOOT, [GEN_BOOT_STAGE, GEN_BOOT_FAIL, GEN_BOOT_READY_NS]⟩,
   ⟨GEN_FW_CTL, [GEN_FW_CTL_RELOAD, GEN_FW_CTL_COMMIT_SVN, GEN_FW_CTL_SOURCE, GEN_FW_CTL_PERSIST, GEN_FW_CTL_LEN]⟩,
   ⟨GEN_FW_STATUS, [GEN_FW_STATUS_DONE, GEN_FW_STATUS_HALT0, GEN_FW_STATUS_HALT1, GEN_FW_STATUS_STATUS, GEN_FW_STATUS_SVN, GEN_FW_STATUS_MIN_SVN, GEN_FW_STATUS_RELOADS]⟩,
   ⟨MGT_LANE, [MGT_LANE_MAC, MGT_LANE_IPV4, MGT_LANE_LINK, MGT_LANE_SPEED, MGT_LANE_ENABLE]⟩,
   ⟨MGT_PTP, [MGT_PTP_DOMAIN, MGT_PTP_VALID_NS, MGT_PTP_HOLDOVER_S, MGT_PTP_ENABLE]⟩,
   ⟨MGT_PTP_STATUS, [MGT_PTP_STATUS_STATE, MGT_PTP_STATUS_VALID, MGT_PTP_STATUS_OFFSET_NS]⟩,
   ⟨MGT_CAL_NOW, [MGT_CAL_NOW_NS]⟩]

def rows12 : List RegRow :=
  [⟨GEN_INT, [GEN_INT_PEND]⟩,
   ⟨PWR_STATUS, [PWR_STATUS_PKG_W, PWR_STATUS_PEAK_W, PWR_STATUS_TJ_MAX, PWR_STATUS_HOT, PWR_STATUS_ALERT]⟩,
   ⟨PWR_THERM, [PWR_THERM_HOT_C]⟩,
   ⟨PWR_AVS, [PWR_AVS_MODE, PWR_AVS_FIXED_MV, PWR_AVS_TARGET_MV]⟩,
   ⟨PWR_RAIL, [PWR_RAIL_MV, PWR_RAIL_MA]⟩]

def table : List RegRow :=
  rows0 ++ rows1 ++ rows2 ++ rows3 ++ rows4 ++ rows5 ++ rows6 ++ rows7 ++ rows8 ++ rows9 ++ rows10 ++ rows11 ++ rows12

end Bar

end Sys2Proof.Machine
end

