-- ==== Sys2Proof/Machine/State.lean ====
section
/-! DEFINITION. The state of the OVK-7290 as plain data: the fuses, every unit's state, and the queue of waiting
commands. BAR0 registers are held once, in `Dev.regs`; the other structures hold what no register holds. -/

namespace Sys2Proof.Machine

/-- Why the machine stops. No command of this block ends in a machine stop: every failure the manual describes is a
status, a record or a pin of the device. The one constructor is raised by nobody and is safe. -/
inductive Fault where
  /-- Raised by no command; safe. -/
  | neverRaised
deriving DecidableEq, Repr

/-- Why a command has no meaning. -/
inductive Refusal where
  /-- Raised by the dispatcher for a command that the model does not treat; safe, nothing is claimed of it. -/
  | notModelled (mnemonic : String)
deriving DecidableEq, Repr

/-! ## What leaves the package -/

/-- SPDM errors that the manual names (R403, R410-R413). -/
inductive SpdmErr where
  | unspecified
  | busy
  | responseNotReady
  | sessionLimitExceeded
  | unexpectedRequest
deriving DecidableEq, Repr

/-- SPDM responses: one for each supported request (R412), with the status byte of a vendor-defined one. -/
inductive SpdmAns where
  | version
  | capabilities
  | algorithms
  | digests
  | certificate
  | challengeAuth
  | measurements
  | keyExchangeRsp
  | finishRsp
  | heartbeatAck
  | keyUpdateAck
  | endSessionAck
  | chunkSendAck
  | chunkResponse
  | vendor (status : Nat)
  | error (e : SpdmErr)
deriving DecidableEq, Repr

/-- What the package sends to the outside: frames on fabric ports, MSI-X messages, register reads, link messages,
answers on the mailboxes and the management lanes, and voltage requests. The log of these is the model's own. -/
inductive OutEvent where
  | frame (port : TPort) (f : Frame)
  | msix (entry : Nat)
  | readData (who : Requester) (off size val : Nat)
  | trainingFrames (port : Nat)
  | capability (port : Nat) (words : List Nat)
  | creditAdvert (port cls cells : Nat)
  | creditReturn (port cls cells : Nat)
  | avsRequest (mv : Nat)
  | mgtAnswer (lane : Nat) (q : NeighbourQuery)
  | spdm (via : SpdmVia) (ans : SpdmAns) (body : List Byte)
  | iferic (session code status : Nat) (body : List Byte)
deriving DecidableEq, Repr

/-! ## Fuses (chapters 19, 22) -/

/-- One credential slot of the fuses (R426). -/
structure Cred where
  valid   : Bool
  revoked : Bool
  role    : Nat
  pk      : Nat
deriving DecidableEq, Repr

/-- The fuses: lifecycle state (R403), tamper count, serial, minimum SVN, credentials, MAC addresses, identity seeds, core
and row repairs (R408). -/
structure Fuses where
  lifecycle   : Nat
  tamperCount : Nat
  serial      : Nat
  minSvn      : Nat
  creds       : Kv Cred
  macs        : Nat × Nat
  idSeed      : Nat
  repairs     : List Byte
deriving DecidableEq, Repr

/-! ## Pins, alert, power (chapters 2, 24) -/

/-- One hold of ALERT_N by an event of a block (R506): when it was raised and whether PF0 cleared its PEND bit. -/
structure AlertHold where
  since : Nat
  acked : Bool
deriving DecidableEq, Repr

/-- Pins and the conditions that drive ALERT_N (R506), and the power, thermal and voltage control of chapter 24. -/
structure Power where
  pwrOk      : Bool
  tripped    : Bool
  tamper     : Bool
  aonOut     : Bool
  refclkLost : Bool
  holds      : Kv AlertHold
  sitesOut   : List Nat
  overdraw   : Nat
  mxPower    : Bool
  mxThermal  : Bool
  avsEntry   : Option Nat
  tableMv    : Nat
  requested  : Nat
deriving DecidableEq, Repr

/-! ## Interrupts and allotments (chapter 18) -/

/-- An MSI-X table entry: address, data, mask bit. -/
structure MsixEntry where
  addr : Nat
  data : Nat
  mask : Bool
deriving DecidableEq, Repr

/-- The endpoint's functions: MSI-X tables, pending bits, enables, VF Enable, TDI states (R386-R388, R474). -/
structure Endpoint where
  table    : Kv MsixEntry
  pend     : List Nat
  pf0En    : Bool
  pf0Mask  : Bool
  vfEnable : Bool
  vfEn     : List Nat
  vfMask   : List Nat
  tdi      : Kv Nat
  ideKeys  : Bool
deriving DecidableEq, Repr

/-- A notification record (R390). `signalled` and `framed` tell a record whose message
and whose frame have been sent. -/
structure Note where
  code      : Nat
  rep       : Nat
  seq       : Nat
  arg       : Nat
  timeNs    : Nat
  signalled : Bool
  framed    : Bool
deriving DecidableEq, Repr

/-- Run-time state of one allotment: its notification queue and tokens with the millisecond of the time base up to which they
have been refilled, the POLICED window, and a reset in progress with its cause, the function-level reset and the removal that
joined it, and whether its steps 4 and 5 have begun (R389-R398). -/
structure Allot where
  notes      : List Note
  seq        : Nat
  tokens     : Nat
  tokenMs    : Nat
  policedMs  : Option Nat
  cause      : Nat
  flr        : Bool
  removal    : Bool
  handed     : Bool
  shape0     : Int
  shape1     : Int
  shapeNs    : Nat
deriving DecidableEq, Repr

/-! ## Almanac, weeding pass, management port (chapters 21, 22) -/

/-- An event on its way into the Almanac (R457, R458): the key fields, its stamps and its DETAIL. -/
structure AlmEvent where
  block  : Nat
  code   : Nat
  unit   : Nat
  allot  : Nat
  status : Nat
  opNs   : Nat
  calNs  : Nat
  cal    : Bool
  rep    : Bool
  count  : Nat
  detail : Nat
deriving DecidableEq, Repr

/-- An open repeat window (R461): the first event, the window's end, the count of repeats, the stamps of the first
and the last repeat. -/
structure RepWin where
  key     : AlmEvent
  endNs   : Nat
  count   : Nat
  firstNs : Nat
  firstCal : Nat
  lastNs  : Nat
  lastCal : Nat
deriving DecidableEq, Repr

/-- The Almanac beside its registers (R455-R463): input queue, repeat windows, OP_NS of the newest checkpoint at start-up,
the next checkpoint's SEQ and place, when the next checkpoint and the next sample are due, who erases, the taps of
corrected codewords and corrected NMU reads. -/
structure Almanac where
  inq      : List AlmEvent
  wins     : List RepWin
  baseOp   : Nat
  ckptSeq  : Nat
  ckptNext : Nat
  ckptDue  : Nat
  sampleDue : Nat
  eraser   : Nat
  corrTap  : Nat
  nmuTap   : Nat
deriving DecidableEq, Repr

/-- The weeding pass (R464-R467): when it started, the start of the next pass window, the units left (kind, unit),
whether a unit failed, whether it has starved, the cores held. -/
structure Weeding where
  startNs : Nat
  nextNs  : Nat
  left    : List (Nat × Nat)
  failed  : Bool
  starved : Bool
  held    : List Nat
deriving DecidableEq, Repr

/-- The management lanes and calendar time (R481-R484). -/
structure Mgt where
  tryTen   : List Bool
  tryNs    : List Nat
  master   : Option (Nat × Nat)
  run      : Nat
  calOff   : Int
  holdEnd  : Nat
deriving DecidableEq, Repr

/-- Start-up, firmware and calibration: the fused serial, whether an image is loaded, a reload in progress (the image's
source bytes and whether they are to be programmed), the staging buffer, the calibration values in force and a
calibration write in progress. -/
structure Boot where
  serial    : Nat
  loaded    : Bool
  reload    : Option (List Byte × Bool)
  staging   : Kv Byte
  latUi     : Kv Nat
  avsTable  : List (Int × Nat)
  calWrite  : Option (List Byte)
deriving DecidableEq, Repr

/-! ## Ports (chapter 3) -/

/-- Run-time state of a fabric port, keyed by its leader lane: failed attempts, recent retrain times, whether a retrain
runs and whether it is a fast one, the bring-up step and when it expires, the partner's UNIT_SERIAL and ENDPOINT_ID of the last
exchange and those stored before the retrain (R55), the width before the retrain, and the skew of each lane (R50). -/
structure Port where
  attempts  : Nat
  retrains  : List Nat
  retraining : Bool
  fast      : Bool
  step      : Nat
  deadline  : Nat
  known     : Option (Nat × Nat)
  before    : Option (Nat × Nat)
  oldWidth  : Nat
  skews     : List Nat
deriving DecidableEq, Repr

/-- The counting window of a lane (R59): its number on the time base, the uncorrectable codewords and those with 12 or more
corrected symbols in it, and whether the lane has counted as degrading in it. -/
structure LaneWin where
  win    : Nat
  uncorr : Nat
  near   : Nat
  acted  : Bool
deriving DecidableEq, Repr

/-! ## The Trellis (chapters 4, 5) -/

/-- A frame held in a Trellis: its number, its header and payload, ingress, the port by which it entered the package or
was sent (R34), the cells it occupies, the egress ports still
to be served, those that have started and not ended, whether any copy has started, whether its tail has arrived, whether
it is marked bad, whether its cells are credit of its ingress port's present link, and the notice cell it lies in. At the bridge:
whether the other die replicates it by its own entry, the local port of that die it goes to, whether its header waits to
be taken there, and its number there while its tail is awaited. -/
structure Held where
  id       : Nat
  f        : Frame
  ingress  : TPort
  origin   : TPort
  cells    : Nat
  targets  : List TPort
  started  : List TPort
  sent     : Bool
  complete : Bool
  bad      : Bool
  credited : Bool
  note     : Option Nat
  repl     : Bool
  loc      : Option TPort
  waits    : Bool
  link     : Option Nat
deriving DecidableEq, Repr

/-- One Trellis: held frames in admission order, cells whose retirement waits for their frame, partner credit,
credit the device has advertised, credit withheld, deficit counters, round order, guarantees and token buckets, the
notices that each notice cell still holds, and the notices written so far (R109). -/
structure Trellis where
  held     : List Held
  nextId   : Nat
  retired  : List (Nat × Bool)
  partner  : Kv Nat
  advert   : Kv Nat
  withheld : Nat
  deficit  : Kv Nat
  round    : Kv (List Nat)
  turn     : Kv Bool
  guar     : Kv Int
  guarNs   : Kv Nat
  shaper   : Kv Int
  shaperNs : Kv Nat
  police   : Kv Int
  policeNs : Kv Nat
  overRem  : Kv Nat
  rxCells  : Kv Nat
  notices  : Kv Nat
  noteSeq  : Nat
deriving DecidableEq, Repr

/-- A combining entry of a die (R83): its leader's place in the request order, its leader and members in join order, each with
its source and request. -/
structure CombEnt where
  die     : Nat
  ticket  : Nat
  members : List (TPort × Frame)
deriving DecidableEq, Repr

/-! ## The device's own requests (chapters 4, 6) -/

/-- What follows when a request of the device completes: nothing; a program's atomic lands its old value; one frame of
an async copy (the offsets and lengths still to come); a forwarded transaction; a write of a lent line's modified data; a
piece of a row of a Rake; a mirror
push; an ATTACH; a fragment of a partial that a reduce engine sends to another cluster; a broadcast of a group's result. -/
inductive Cont where
  | none
  | patom (core gen ctr spad size pc : Nat)
  | chunk (copy : Nat) (gaps : List (Nat × Nat))
  | forward (txn : Nat)
  | lent (line : Nat)
  | rake (cluster core gen row off n : Nat)
  | mirror (session kind core gen pc : Nat)
  | attach (w : Nat)
  | part (cluster core gen group member frag : Nat)
  | bcast (cluster : Nat)
deriving DecidableEq, Repr

/-- An outstanding request of the device: the frame as sent, the port it left by, the bound, damaged answers so far,
what holds it back after a NAK, whether a NAK has left it unresolved, and what follows. Its bound starts when it enters
the Trellis (R90); until then it has none. -/
structure Req where
  f        : Frame
  port     : TPort
  deadline : Option Nat
  damaged  : Nat
  retryNs  : Option Nat
  waitMap  : Option Nat
  naked    : Bool
  cont     : Cont
deriving DecidableEq, Repr

/-- An async copy of a program (R86-R88, R263, R516): issuing core and generation, counter, the instruction's index,
kind (0 pool to scratchpad, 1 scratchpad to pool, 2 pool to pool), allotment, addresses, length, class (4: TC4),
multicast group, parts (offset and bytes) still to be started, parts read whose write is still to be made, resends of
each frame by twice its offset (1 more for a push), multicast frames whose first WRITE_ACK has come (tag, address, length),
and whether the copy has been ended. -/
structure Copy where
  core   : Nat
  gen    : Nat
  ctr    : Nat
  pc     : Nat
  kind   : Nat
  allot  : Nat
  src    : Nat
  dst    : Nat
  len    : Nat
  cls    : Nat
  mcast  : Option Nat
  todo   : List (Nat × Nat)
  ready  : List (Nat × List Byte × Bool)
  resent : Kv Nat
  acked  : List (Nat × Nat × Nat)
  ended  : Bool
deriving DecidableEq, Repr

/-! ## Pool memory (chapter 6) -/

/-- A physical page: its home frame, its tier-1 copy, whether the copy is dirty, how many pool pages name it (R213,
R216), last use, and its hot count with the window it was counted in. A page that has lost its only frame is poisoned. -/
structure Page where
  home     : Option Nat
  copy     : Option Nat
  dirty    : Bool
  poisoned : Bool
  refs     : Nat
  lastUse  : Nat
  hot      : Nat
  hotWin   : Nat
deriving DecidableEq, Repr

/-- A page copy in progress (R140, R216): why, the frames it goes to, and the pool page that asked. Kinds: 0
promotion, 1 write back and drop, 2 re-homing, 3 policy change, 4 copy-on-write. `ready` when its data has been moved and only
a burst or a hold keeps the page map from switching. -/
structure PageCopy where
  kind  : Nat
  dst   : Nat
  dst2  : Option Nat
  owner : Nat
  ready : Bool
deriving DecidableEq, Repr

/-- Page moves still to be made for a command or in the background. Kinds as in `PageCopy`; `win` is the command
window that waits for it, `arg` the target policy or the link that drains. -/
structure Job where
  kind  : Nat
  win   : Option Nat
  obj   : Nat
  arg   : Nat
  pages : List Nat
deriving DecidableEq, Repr

/-- A layer-streaming window (R142-R144). Slots hold (layer, use count, loaded, last acquire). -/
structure WinSlot where
  layer  : Option Nat
  uses   : Nat
  loaded : Bool
  last   : Nat
deriving DecidableEq, Repr

structure Window where
  obj    : Nat
  allot  : Nat
  mask   : Nat
  layers : Nat
  slice  : Nat
  depth  : Nat
  split  : Bool
  base   : Nat
  enabled : Bool
  slots  : List WinSlot
deriving DecidableEq, Repr

/-- The pool: contents of the frames (key 65,536 x frame + byte), poisoned lines (512 x frame + line), the page map
from pool pages to physical pages, the physical pages, frames in use with the memory key slot bound to them (512: none),
page copies, windows, holds of R138 by session, jobs, whether low-water demotion runs (R139), valid objects, lent
entries that are being withdrawn, with the WITHDRAW to answer and its port, if there is one (R133, R441), flawed lines (512 x
frame + line, true: not correctable, R169), and pages of destroyed objects that granted requests or a page copy still use,
with the window that waits (R137). -/
structure Pool where
  mem      : List Host.Cell
  poison   : List Nat
  flaws    : Kv Bool
  leaving  : Kv (Option Nat)
  pmap     : Kv Nat
  pages    : Kv Page
  nextPage : Nat
  used     : Kv Nat
  copies   : Kv PageCopy
  wins     : Kv Window
  holds    : Kv Nat
  jobs     : List Job
  lowering : Bool
  objs     : List Nat
  withdraw : Kv (Option (TPort × Frame))
deriving DecidableEq, Repr

/-! ## Banks (chapter 7) -/

/-- One scratchpad bank beside its register: rows that have failed, last access, whether it is waking and the invocations
(unit, generation) whose accesses wait for that, whether its contents were lost while cold, whether it was FREE when its
hand-over began, a hand-over that waits for a destructive march (ASSIGN, OWNER); and for a bank of a core, whose register
shows all eight, its own STATE, COLD and LOST. -/
structure Bank where
  failedRows : List Nat
  lastUse    : Nat
  waking     : Bool
  waiters    : List (Nat × Nat)
  gone       : Bool
  wasFree    : Bool
  want       : Option (Nat × Nat)
  state      : Nat
  cold       : Bool
  lost       : Bool
deriving DecidableEq, Repr

/-- A bank as it is at reset: FREE and awake. -/
def Bank.blank : Bank := ⟨[], 0, false, [], false, false, none, 0, false, false⟩

/-- A march on request in progress on a cluster's engine: the bank, the mode, and the thousandths of waves since its
start. -/
structure March where
  bank       : BankId
  preserving : Bool
  done       : Nat
deriving DecidableEq, Repr

/-- Bytes that wait for a row or a region under test (R158, R162): where they go, and whether they are poisoned. -/
structure Parcel where
  place  : Nat
  bytes  : List Byte
  poison : Bool
deriving DecidableEq, Repr

/-- What the Cloche kept when PWR_OK was deasserted (R164, R407, R475): whether the identity private key was there, the master
copies of the fabric keys and of the memory slots (state, allotment), and the secrets of the SPDM and Iferic sessions. While
the package runs, the contents stand in `Sec`. -/
structure Cloche where
  idKey   : Bool
  fabKeys : Kv Nat
  mslots  : Kv (Nat × Nat)
  secrets : List Nat
deriving DecidableEq, Repr

/-- A wiped or blank Cloche. -/
def Cloche.blank : Cloche := ⟨false, [], [], []⟩

/-- All scratchpad banks: contents (unlisted bytes read 0), poisoned 8-byte words, 8-byte words with an error that no read
has met yet (true: uncorrectable), ranges whose contents are undefined (start, length, the draw they come from), bytes that
wait for a test, the banks, the marches by cluster, the test region in progress (bank and offset), and the die-0 sites
outside the Cloche's temperature range. -/
structure Banks where
  mem     : List Host.Cell
  poison  : List Nat
  flaws   : Kv Bool
  undef   : List (Nat × Nat × Nat)
  parcels : List Parcel
  bank    : Kv Bank
  march   : Kv March
  tbt     : Option (BankId × Nat)
  cloche  : Cloche
  clocheOut : List Nat
deriving DecidableEq, Repr

/-! ## Near-memory units (chapter 8) -/

/-- A command at an NMU dispatcher: its eight words, who issued it (0-2 a window, 16 + core a program, 1,000 the tier
and region logic), where a program's record goes with its counter, generation and the instruction's index, the line
indexes still to do, the tallies of R183, the partial results by NMU, whether the result is poisoned, whether it was
issued while its region was being published (R213), whether a stack it used has failed (R180), and the pages it holds in
tier 1. -/
structure NmuCmd where
  words   : List Nat
  src     : Nat
  recAddr : Nat
  ctr     : Nat
  gen     : Nat
  left    : List Nat
  done    : Nat
  cached  : Nat
  poison  : Nat
  mism    : Nat
  first   : Option Nat
  parts   : Kv Nat
  bad     : Bool
  late    : Bool
  hit     : Bool
  held    : List Nat
deriving DecidableEq, Repr

/-- A burst (R174): its command, when it was granted, picoseconds for each line, the lines processed and those still to be,
and the channels it occupies. -/
structure Burst where
  cmd   : Nat
  start : Nat
  pace  : Nat
  done  : Nat
  todo  : List Nat
  chans : List Nat
deriving DecidableEq, Repr

/-- NMU dispatchers and channels: commands in order of issue, the burst of each NMU, refreshes owed, and the source after
which a channel's round-robin token stands (R33). -/
structure Nmus where
  cmds  : Kv NmuCmd
  next  : Nat
  burst : Kv Burst
  owed  : Kv Nat
  token : Kv Nat
deriving DecidableEq, Repr

/-! ## Coherence (chapter 9) -/

/-- A directory entry (R198): state (1 S, 2 F, 3 E, 4 M), the M or E holder or the F, further exact sharers, and the
coarse vector with its mode bit. -/
structure DirEnt where
  state   : Nat
  holder  : Option Nat
  sharers : List Nat
  coarse  : Bool
  vec     : Nat
deriving DecidableEq, Repr

/-- A snoop sent and not yet settled: tag, agent, line, message, expiry, and what the agent was shown as; `wb` when
its WRITEBACK has been taken as snoop data (R197); `empty` when it answered I without data while shown in M. -/
structure Snoop where
  tag      : Nat
  agent    : Nat
  line     : Nat
  cop      : Nat
  deadline : Nat
  wasM     : Bool
  wb       : Bool
  empty    : Bool
deriving DecidableEq, Repr

/-- What a transaction of the home is for. -/
inductive TxnKind where
  | frame
  | recall (w : Nat)
  | publish (r : Nat)
  | retire (r slot : Nat)
  | capacity
deriving DecidableEq, Repr

/-- A transaction of the home (R191): what it is for, the request and the port it came by, the members of a combining
entry (R83), the lines it covers, the snoops not yet settled, those that still wait for a tag (line, agent, message, shown
in M), whether another agent held its line when it opened, whether its page is REMOTE, and whether its request has been
forwarded to a lender (R131). -/
structure Txn where
  die    : Nat
  kind   : TxnKind
  src    : TPort
  f      : Frame
  members : List (TPort × Frame)
  lines  : List Nat
  snoops : List Snoop
  unsent : List (Nat × Nat × Nat × Bool)
  data   : Kv (List Byte)
  shared : Bool
  remote : Bool
  fwd    : Bool
deriving DecidableEq, Repr

/-- Lines that a command snoops out one transaction at a time (R203, R204, R212): what for, whether by SNP_SHARE, the
lines still to do, and whether a line was poisoned on the way. -/
structure Walk where
  kind     : TxnKind
  share    : Bool
  todo     : List Nat
  poisoned : Bool
deriving DecidableEq, Repr

/-- A request that waits at the home: its place in the request order, the port it came by, its frame, the members of a
combining entry, whether it waits for its page (a copy, a publish) rather than for its lines, and whether it has been
counted in COW_SHORT (R217). -/
structure Parked where
  ticket  : Nat
  src     : TPort
  f       : Frame
  members : List (TPort × Frame)
  held    : Bool
  short   : Bool
deriving DecidableEq, Repr

/-- Both homes: directory by line (address / 128), the way of each line that has one, transactions, requests that wait,
the next place in the request order, way pointers, the agents that are being reclaimed with whether an invalidation
follows (R201), walks, poisoned lines of lent ranges, combining entries, and the tier logic's requests that wait for a tag
or behind a rejected one (R78). -/
structure Coh where
  dir      : Kv DirEnt
  ways     : Kv Nat
  txns     : Kv Txn
  next     : Nat
  waiting  : List Parked
  ticket   : Nat
  way      : Kv Nat
  reclaims : Kv Bool
  walks    : List Walk
  lent     : List Nat
  comb     : Kv CombEnt
  combNext : Nat
  tierQ    : List (Nat × Frame × Cont)
deriving DecidableEq, Repr

/-! ## Versioned regions (chapter 10) -/

/-- Who issued a region command: window 0-2 or 16 + core, the allotment, and where a program's answer goes. -/
structure Caller where
  src   : Nat
  allot : Nat
  gen   : Nat
  ctr   : Nat
  spad  : Nat
deriving DecidableEq, Repr

/-- An OPEN (3), CLOSE (4) or PUBLISH (5) that waits at its region's arbiter (R213). -/
structure RegionOp where
  op     : Nat
  region : Nat
  slot   : Nat
  base   : Option Nat
  who    : Caller
deriving DecidableEq, Repr

/-- Versioned regions beside their registers: publishes in progress with whether step 3 has ended, operations that wait
at an arbiter, regions being destroyed with the window that waits, and windows whose session CREATE waits. -/
structure Ver where
  pubs    : Kv (Caller × Bool)
  waiting : List RegionOp
  destroy : Kv (Option Nat)
  creates : List Nat
deriving DecidableEq, Repr

/-! ## Units and programs (chapter 11) -/

/-- An invocation on a core: the header fields of its INVOKE, fragments that have arrived, payload bytes, the bound of
its assembly, whether it is a replay (R329), and the SESSION bits of its header, which a RESULT copies (R93). -/
structure Inv where
  allot : Nat
  srcEp : Nat
  tag   : Nat
  slot  : Nat
  part  : Nat
  sess  : Option Nat
  layer : Nat
  last  : Nat
  step  : Nat
  mapEpoch : Nat
  mbrEpoch : Nat
  arrived : List Nat
  bytes : Nat
  deadline : Nat
  replay : Bool
  header : Nat
deriving DecidableEq, Repr

/-- One fetching unit: a core or a Gardener (R231). States: 0 FREE, 1 ASSEMBLING, 2 RUNNING, 3 DRAINING. `final` is the
status of an invocation that ends without draining, `sesStatus` the status the session logic has set, `res` the payload
that END names (address, length), `wins` the window layers held, `queues` the
instructions (with their place in program order and their index) that wait at MX (1), VX0 (2), VX1 (3) and the fabric queue (4) under R229, `takes` the takes
that wait (channel, engine, tokens) and `takeTurn` the round-robin token of a channel (R234), `mem` a Gardener's data memory with its poisoned words. -/
structure UnitSt where
  state   : Nat
  gen     : Nat
  inv     : Option Inv
  pc      : Nat
  lastPc  : Nat
  s       : Kv W64
  sPoison : List Nat
  v       : Kv (List W32)
  vPoison : List Nat
  t       : Kv (List W32)
  tPoison : List Nat
  p       : Kv (BitVec 128)
  a       : Kv Nat
  ch      : Kv Nat
  sctx    : List Nat
  pstat   : Nat
  flt     : Nat
  limit   : Nat
  final   : Option Nat
  sesStatus : Option Nat
  res     : Nat × Nat
  wins    : List (Nat × Nat)
  queues  : Kv (List (Nat × Nat × Instr))
  takes   : List (Nat × Nat × Nat)
  takeTurn : Kv Nat
  halted  : Bool
  mem     : Kv Byte
  memPoison : List Nat
deriving DecidableEq, Repr

/-- Program store and slots (R220-R222): store contents (65,536 x cluster + index), words marked bad, LOADs in progress
by window (slot and source), the window that waits for the UNLOAD of a slot, the digest of each slot's image, the
dispatchers' round-robin tokens (R225), and the INVOKEs whose later fragments are discarded (R319): SRC_EP, TAG and until
when. -/
structure Store where
  code    : Kv W64
  bad     : List Nat
  loads   : Kv (Nat × Nat)
  unloads : Kv Nat
  digests : Kv Nat
  token   : Kv Nat
  noSess  : List (Nat × Nat × Nat)
deriving DecidableEq, Repr

/-! ## Sessions, expanders, gather and reduction (chapters 15-17) -/

/-- A prune record (R337): its STEP, KIND and LAYER, evicted cache indices, half-block indices to demote. -/
structure PruneRec where
  step   : Nat
  kind   : Nat
  layer  : Nat
  evict  : List Nat
  demote : List Nat
deriving DecidableEq, Repr

/-- A session entry (R320) and what goes with it: the eight words, queued prune records, the rows of the open step that
are written (16 x (layer x KVH + head) + token), the pre-scale vectors that have had their first append, the next PSEQ
to send and the next expected, fragments of the push that is arriving, whether an ATTACH has frozen the session, and
whether a CLOSE waits for it. -/
structure Sess where
  words   : List Nat
  prunes  : List PruneRec
  written : List Nat
  scaled  : List Nat
  pseq    : Nat
  expect  : Nat
  frags   : List Frame
  frozen  : Bool
  closing : Bool
deriving DecidableEq, Repr

/-- The expander stream of a core (R272, R349): the address of the next block to decode, blocks still to be decoded,
blocks consumed, decoded buffers (none for a discarded block). -/
structure Stream where
  next     : Nat
  left     : Nat
  consumed : Nat
  bufs     : List (Option (List Byte))
deriving DecidableEq, Repr

/-- The round of a reduction group, open or last completed (R374-R381): members arrived, the next fragment of each
member, the sender and tag of each endpoint member, element count, poison, when it opened. -/
structure Round where
  arrived  : List Nat
  nextFrag : Kv Nat
  who      : Kv (Nat × Nat)
  count    : Nat
  poisoned : Bool
  openNs   : Nat
deriving DecidableEq, Repr

/-- A descriptor at a Rake, a Sieve or a reduce engine: invocation, counter, the instruction's index, allotment, words
(an rpart's group follows them), the next row or fragment to start, rows of which a part has arrived (row, offset,
bytes, poison), and an rpart's phase (0 not taken, 1 its frames are out, 2 it waits for a result) and status. -/
structure Desc where
  core   : Nat
  gen    : Nat
  ctr    : Nat
  pc     : Nat
  allot  : Nat
  words  : List Nat
  row    : Nat
  got    : List (Nat × Nat × List Byte × Bool)
  phase  : Nat
  status : Nat
deriving DecidableEq, Repr

/-- Expanders, engines and groups; blocks that each egress expander keeps; frames of reduce engines still to be sent,
by cluster; broadcast frames whose first WRITE_ACK has come (tag, address, end of the bound). -/
structure Engines where
  streams : Kv Stream
  rake    : Kv (List Desc)
  sieve   : Kv (List Desc)
  parts   : Kv (List Desc)
  rounds  : Kv Round
  egrCache : List Nat
  sends   : List (Nat × Frame × Cont)
  casts   : List (Nat × Nat × Nat)
deriving DecidableEq, Repr

/-! ## Security (chapter 19) -/

/-- An SPDM session: the transport (0 PF0's DOE mailbox, 1 + endpoint), whether FINISH has completed, the shared secret, the
digest of the requester key that authenticated it (0: none), and how often its keys have been updated. -/
structure Spdm where
  via    : Nat
  isOpen : Bool
  secret : Nat
  owner  : Nat
  keyGen : Nat
deriving DecidableEq, Repr

/-- The fabric mailbox of one requester (R413): the fragments of its message, the message's length once fragment 0 has
been written, and the answer with the time it was built. -/
structure Mbox where
  frags  : Kv (List Byte)
  total  : Option Nat
  answer : Option (List Byte)
  since  : Nat
deriving DecidableEq, Repr

/-- An Iferic session (R423-R426). Phases: 0 its HELLO_RSP is being signed, 1 awaits AUTH, 2 open. The sequence numbers
that its window holds, and when it ends for want of AUTH or of a RECORD. -/
structure Ifr where
  lane     : Nat
  phase    : Nat
  cred     : Nat
  role     : Nat
  seen     : List Nat
  secret   : Nat
  digest   : Nat
  deadline : Nat
deriving DecidableEq, Repr

/-- A signing request (R410): an SPDM answer, an SPDM report, an Iferic HELLO_RSP, an Iferic report. -/
inductive SignJob where
  | spdm (via : SpdmVia) (ans : SpdmAns) (body : List Byte)
  | report (via : SpdmVia) (a : Nat) (nonce : List Byte)
  | hello (session : Nat) (hello ct : List Byte) (nonce : List Byte)
  | ifrReport (session a : Nat) (nonce : List Byte)
deriving DecidableEq, Repr

/-- The security block beside its registers: fabric keys by 2 x allotment + slot, memory slots (state, allotment) with their
frame counts, SEQ tables, the identity private key's presence, sessions and mailboxes, signing requests with the one in
progress first, chunked messages, the snapshots of R422 with the count of windows and the start of the next, removals of SEC_KEY_CMD in progress,
and whether the fills of RETURNED run. -/
structure Sec where
  fabKeys  : Kv Nat
  mslots   : Kv (Nat × Nat)
  mslotCnt : Kv Nat
  seqHigh  : Kv Nat
  seqNext  : Kv Nat
  seqBlock : Nat
  idKey    : Bool
  spdm     : Kv Spdm
  spdmNext : Nat
  mailbox  : Kv Mbox
  ifr      : Kv Ifr
  signing  : List SignJob
  chunks   : Kv (List Byte)
  coarse   : Kv (List Nat)
  coarseN  : Nat
  coarseNs : Nat
  removing : List Nat
  fills    : Bool
deriving DecidableEq, Repr

/-! ## Membership (chapter 20) -/

/-- A proposal of this package: epoch, its own index, members (endpoint, and bit 16 for a voter), indices of the entries that
have accepted it, and when its PROPOSEs were sent. -/
structure Proposal where
  epoch   : Nat
  coord   : Nat
  list    : List Nat
  accepts : List Nat
  since   : Nat
deriving DecidableEq, Repr

/-- An ATTACH in progress (R452): session, mirror, its copy, 4 KiB offsets still to be pushed, PSEQ, bytes acknowledged,
phase (0 waits for a step boundary, 1 copies, 2 COPY_DONE sent, 3 COPY_DONE acknowledged). -/
structure Attach where
  session  : Nat
  ep       : Nat
  msession : Nat
  todo     : List Nat
  pseq     : Nat
  bytes    : Nat
  phase    : Nat
deriving DecidableEq, Repr

/-- Membership beside its registers: members suspected since the last install, own proposal, the accepted proposal (coordinator, time), the deadline of R443, heartbeat SEQ and the start of the next heartbeat window, the last FETCH and EPOCH_STALE by
endpoint, a JOIN's deadline, endpoints that ask to join, when each member became IN, the latest COMMIT (words 5 to 7
and payload), ATTACHes by window, mirror pushes still to be sent, the endpoints that an install has fenced
(R200), and the timers that a write of MBR_CFG leaves in force up to the next heartbeat window (R454). -/
structure Mbr where
  suspects  : List Nat
  own       : Option Proposal
  accepted  : Option (Nat × Nat)
  decideEnd : Option Nat
  hbSeq     : Nat
  hbWin     : Nat
  lastFetch : Kv Nat
  joining   : Option Nat
  joiners   : List Nat
  inNs      : Kv Nat
  commit    : Option (Nat × Nat × Nat × List Byte)
  attaches  : Kv Attach
  staleNak  : Kv Nat
  pushes    : List (TPort × Frame × Cont)
  fenced    : List Nat
  oldCfg    : Nat
  cfgFrom   : Nat
deriving DecidableEq, Repr

/-! ## The whole device -/

/-- Reads of registers in pieces (R488, R489): per requester the register last read, its snapshot and the offset
reached; and the low pieces of fields that span two. -/
structure Pieces where
  snap : Kv (Nat × Nat × Nat)
  low  : Kv Nat
deriving DecidableEq, Repr

/-- The time base beside its registers: die 1's copy (R39), and the start of the measuring window in progress (R29). -/
structure Tim where
  die1     : Nat
  winStart : Nat
deriving DecidableEq, Repr

/-- Everything but the fuses and the queue. -/
structure Dev where
  now    : Nat
  tim    : Tim
  regs   : Kv Nat
  pieces : Pieces
  power  : Power
  ep     : Endpoint
  allot  : Kv Allot
  flash  : Kv Byte
  alm    : Almanac
  wdp    : Weeding
  mgt    : Mgt
  boot   : Boot
  ports  : Kv Port
  laneWins : Kv LaneWin
  laneNoise : Kv Nat
  trl    : Kv Trellis
  outbox : List (TPort × Frame)
  inbox  : List (TPort × Frame × TPort)
  reqs   : Kv Req
  copies : Kv Copy
  nextCopy : Nat
  pool   : Pool
  banks  : Banks
  nmus   : Nmus
  coh    : Coh
  ver    : Ver
  units  : Kv UnitSt
  store  : Store
  sess   : Kv Sess
  eng    : Engines
  sec    : Sec
  mbr    : Mbr
  free   : Nat
  out    : List OutEvent
deriving DecidableEq, Repr

/-- The state: the fuses, the device and the commands that wait, first in first out. -/
structure State where
  fuses   : Fuses
  dev     : Dev
  pending : List Instr
deriving DecidableEq, Repr

/-! ## Reset (R475, R492) -/

/-- The package with PWR_OK deasserted: every register at its reset value, every unit empty. -/
def Dev.reset : Dev :=
  { now := 0, tim := { die1 := 0, winStart := 0 }, regs := [], pieces := { snap := [], low := [] }
    power := {
      pwrOk := false, tripped := false, tamper := false, aonOut := false, refclkLost := false, holds := []
      sitesOut := [], overdraw := 0, mxPower := false, mxThermal := false, avsEntry := none, tableMv := 750
      requested := 750 }
    ep := {
      table := [], pend := [], pf0En := false, pf0Mask := false, vfEnable := false, vfEn := [], vfMask := []
      tdi := [], ideKeys := false }
    allot := [], flash := []
    alm := {
      inq := [], wins := [], baseOp := 0, ckptSeq := 0, ckptNext := 0, ckptDue := 0, sampleDue := 0, eraser := 0
      corrTap := 0, nmuTap := 0 }
    wdp := { startNs := 0, nextNs := 0, left := [], failed := false, starved := false, held := [] }
    mgt := { tryTen := [true, true], tryNs := [0, 0], master := none, run := 0, calOff := 0, holdEnd := 0 }
    boot := {
      serial := 0, loaded := false, reload := none, staging := [], latUi := [], avsTable := [], calWrite := none }
    ports := [], laneWins := [], laneNoise := [], trl := [], outbox := [], inbox := [], reqs := [], copies := [], nextCopy := 0
    pool := {
      mem := [], poison := [], flaws := [], leaving := [], pmap := [], pages := [], nextPage := 0, used := [], copies := [], wins := []
      holds := [], jobs := [], lowering := false, objs := [], withdraw := [] }
    banks := { mem := [], poison := [], flaws := [], undef := [], parcels := [], bank := [], march := [], tbt := none, cloche := .blank,
               clocheOut := [] }
    nmus := { cmds := [], next := 0, burst := [], owed := [], token := [] }
    coh := {
      dir := [], ways := [], txns := [], next := 0, waiting := [], ticket := 0, way := [], reclaims := [], walks := []
      lent := [], comb := [], combNext := 0, tierQ := [] }
    ver := { pubs := [], waiting := [], destroy := [], creates := [] }
    units := []
    store := { code := [], bad := [], loads := [], unloads := [], digests := [], token := [], noSess := [] }
    sess := []
    eng := { streams := [], rake := [], sieve := [], parts := [], rounds := [], egrCache := [], sends := [], casts := [] }
    sec := {
      fabKeys := [], mslots := [], mslotCnt := [], seqHigh := [], seqNext := [], seqBlock := 0, idKey := false
      spdm := [], spdmNext := 0, mailbox := [], ifr := [], signing := [], chunks := [], coarse := [], coarseN := 0, coarseNs := 0
      removing := [], fills := false }
    mbr := {
      suspects := [], own := none, accepted := none, decideEnd := none, hbSeq := 0, hbWin := 0, lastFetch := []
      joining := none, joiners := [], inNs := [], commit := none, attaches := [], staleNak := [], pushes := [], fenced := [], oldCfg := 0
      cfgFrom := 0 }
    free := 0, out := [] }

/-- A part as the factory delivers it, in PROVISIONED, before its first PWR_OK. -/
def State.reset : State :=
  { fuses := {
      lifecycle := 1, tamperCount := 0, serial := 0, minSvn := 0, creds := [], macs := (0, 0), idSeed := 0
      repairs := [] }
    dev := Dev.reset
    pending := [] }

end Sys2Proof.Machine
end

