-- ==== Sys2Proof/Machine/Ops.lean ====
section
/-! DEFINITION. The named operations every unit uses: register fields, bytes of memory, Almanac events, system
vectors, ALERT_N, notifications, and the frames the device originates. -/

namespace Sys2Proof.Machine

/-! ## Status codes (R8) -/

namespace Code
def ok : Nat := 0x00
def poison : Nat := 0x01
def timeout : Nat := 0x02
def remap : Nat := 0x03
def fenced : Nat := 0x04
def resetting : Nat := 0x05
def access : Nat := 0x06
def versionStale : Nat := 0x07
def sessionLost : Nat := 0x08
def compressLen : Nat := 0x09
def compressCode : Nat := 0x0A
def pushed : Nat := 0x0B
def badTail : Nat := 0x0C
def noSession : Nat := 0x0D
def programFault : Nat := 0x0E
def epochStale : Nat := 0x0F
def busy : Nat := 0x10
end Code

/-- A receiver treats a reserved status code as PROGRAM_FAULT (R8). -/
def seenStatus (c : Nat) : Nat := if c ≤ 0x10 then c else Code.programFault

/-! ## Bit fields and registers -/

/-- Bits `hi` down to `lo` of a word. -/
def slice (w hi lo : Nat) : Nat := (w >>> lo) % 2 ^ (hi + 1 - lo)

/-- A word with bits `hi` down to `lo` replaced. -/
def splice (w hi lo x : Nat) : Nat := w ^^^ ((slice w hi lo ^^^ (x % 2 ^ (hi + 1 - lo))) <<< lo)

/-- The BAR0 offset of an instance of a register. -/
def Reg.key (r : Reg) (i j : Nat) : Nat := r.base + r.s1 * i + r.s2 * j

/-- The reset value of an instance: ROLE of a lane that no leader starts at (R45), the die's first lane in TRL_ROUTE,
the block number in ALT_SYSVEC, ENABLE and STATE of allotment 0 (R384), and DONE of NMU_CMD_REC. -/
def Reg.reset (r : Reg) (i j : Nat) : Nat :=
  if r.kind = 1 then (if i % 8 = 0 then r.rst else r.rst ||| 0x400)
  else if r.kind = 2 then r.rst + 96 * i
  else if r.kind = 3 then r.rst + i
  else if r.kind = 4 then (if i = 0 then r.rst ||| 0xA000000000000000 else r.rst)
  else if r.kind = 5 then (if j = 8 then 0x80000000 else r.rst)
  else r.rst

/-- A register read whole. -/
def Dev.word (d : Dev) (r : Reg) (i : Nat := 0) (j : Nat := 0) : Nat :=
  kvGetD d.regs (r.key i j) (r.reset i j)

/-- A register written whole. -/
def Dev.putWord (d : Dev) (r : Reg) (x : Nat) (i : Nat := 0) (j : Nat := 0) : Dev :=
  { d with regs := kvPut d.regs (r.key i j) x }

/-- A field of a register. -/
def Dev.get (d : Dev) (f : Fld) (i : Nat := 0) (j : Nat := 0) : Nat :=
  slice (d.word f.reg i j) f.hi f.lo

/-- Write a field of a register, keeping the others. -/
def Dev.set (d : Dev) (f : Fld) (x : Nat) (i : Nat := 0) (j : Nat := 0) : Dev :=
  d.putWord f.reg (splice (d.word f.reg i j) f.hi f.lo x) i j

/-- Add to a counter that stops at its largest value (R64 and its like). -/
def Dev.bump (d : Dev) (f : Fld) (n : Nat) (i : Nat := 0) (j : Nat := 0) : Dev :=
  d.set f (min (d.get f i j + n) (2 ^ (f.hi + 1 - f.lo) - 1)) i j

/-- Subtract from a field, not below 0. -/
def Dev.drop (d : Dev) (f : Fld) (n : Nat) (i : Nat := 0) (j : Nat := 0) : Dev :=
  d.set f (d.get f i j - n) i j

/-- A one-bit field as a Bool. -/
def Dev.flag (d : Dev) (f : Fld) (i : Nat := 0) (j : Nat := 0) : Bool := d.get f i j != 0

/-- Put a value into a range (R7). -/
def clampTo (lo hi x : Nat) : Nat := if x < lo then lo else if hi < x then hi else x

/-- A fresh free value. -/
def Dev.fresh (d : Dev) : Nat × Dev := (Config.freeNat d.free, { d with free := d.free + 1 })

/-- Append to the log of what leaves the package. -/
def Dev.emit (d : Dev) (e : OutEvent) : Dev := { d with out := d.out ++ [e] }

/-! ## Bytes -/

/-- The byte at an address; a byte that nothing has written reads 0. -/
def memRead (m : List Host.Cell) (a : Nat) : Byte := kvGetD m a 0

/-- Write one byte, keeping the canonical form: writing 0 removes the entry. -/
def memWrite (m : List Host.Cell) (a : Nat) (b : Byte) : List Host.Cell :=
  if b = 0 then kvDel m a else kvPut m a b

/-- The bytes from an address up. -/
def memReads (m : List Host.Cell) (a n : Nat) : List Byte := (List.range n).map fun i => memRead m (a + i)

/-- Write bytes from an address up. -/
def memWrites (m : List Host.Cell) : Nat → List Byte → List Host.Cell
  | _, [] => m
  | a, b :: bs => memWrites (memWrite m a b) (a + 1) bs

/-- Clear the bytes of a range to 0. -/
def memClear (m : List Host.Cell) (a n : Nat) : List Host.Cell :=
  m.filter fun c => c.1 < a || a + n ≤ c.1

/-- Copy the bytes of one range to another. -/
def memCopy (m : List Host.Cell) (src dst n : Nat) : List Host.Cell :=
  (m.filter fun c => src ≤ c.1 && c.1 < src + n).foldl (fun acc c => memWrite acc (c.1 - src + dst) c.2)
    (memClear m dst n)

/-- The canonical form: addresses rise strictly and no entry holds 0. -/
def memWf : List Host.Cell → Bool
  | [] => true
  | [c] => c.2 != 0
  | c :: e :: t => c.2 != 0 && decide (c.1 < e.1) && memWf (e :: t)

/-- Bytes as a number, least significant first. -/
def leNat : List Byte → Nat
  | [] => 0
  | b :: bs => b.toNat + 256 * leNat bs

/-- A number as bytes, least significant first. -/
def toLe : Nat → Nat → List Byte
  | 0, _ => []
  | n + 1, x => BitVec.ofNat 8 x :: toLe n (x / 256)

/-- A number as bytes, most significant first. -/
def toBe (n x : Nat) : List Byte := (toLe n x).reverse

/-- Bytes as a number, most significant first. -/
def beNat (bs : List Byte) : Nat := leNat bs.reverse

/-- A flash byte; an erased byte reads 0xFF (R455). -/
def flashRead (m : Kv Byte) (a : Nat) : Byte := kvGetD m a 0xFF

/-- Program one flash byte, or erase it by writing 0xFF. -/
def flashWrite (m : Kv Byte) (a : Nat) (b : Byte) : Kv Byte := if b = 0xFF then kvDel m a else kvPut m a b

def flashReads (m : Kv Byte) (a n : Nat) : List Byte := (List.range n).map fun i => flashRead m (a + i)

def flashWrites (m : Kv Byte) : Nat → List Byte → Kv Byte
  | _, [] => m
  | a, b :: bs => flashWrites (flashWrite m a b) (a + 1) bs

/-- Erase a flash range. -/
def flashErase (m : Kv Byte) (a n : Nat) : Kv Byte := m.filter fun c => c.1 < a || a + n ≤ c.1

/-! ## Blocks of BAR0 (R387) -/

namespace Blk
def gen : Nat := 0
def tim : Nat := 1
def lnk : Nat := 2
def trl : Nat := 3
def qos : Nat := 4
def mem : Nat := 5
def nmu : Nat := 6
def coh : Nat := 7
def ver : Nat := 8
def clu : Nat := 9
def ses : Nat := 10
def exp : Nat := 11
def rks : Nat := 12
def alt : Nat := 13
def sec : Nat := 14
def mbr : Nat := 15
def alm : Nat := 16
def wdp : Nat := 17
def mgt : Nat := 18
def pwr : Nat := 19
end Blk

/-! ## Almanac events (R457-R460) -/

/-- Calendar time now, in ns (R483). -/
def Dev.calNow (d : Dev) : Nat := (Int.ofNat d.now + d.mgt.calOff).toNat

/-- Operating time now (R459). -/
def Dev.opNow (d : Dev) : Nat := d.alm.baseOp + d.now

/-- An event enters the Almanac's input queue, or is lost and counted when the queue holds 256 (R458). It carries
calendar time under R460 only. -/
def Dev.alm1 (d : Dev) (block code unit allot status detail : Nat) : Dev :=
  if d.alm.inq.length < 256 then
    let cal := allot == 0 && d.flag Bar.ALM_CFG_CAL_EN && d.flag Bar.MGT_PTP_STATUS_VALID
    { d with alm := { d.alm with inq := d.alm.inq ++ [{
        block := block, code := code, unit := unit, allot := allot, status := status, opNs := d.opNow,
        calNs := if cal then d.calNow else 0, cal := cal, rep := false, count := 0, detail := detail }] } }
  else d.bump Bar.ALM_STATUS_DROPPED 1

/-- The Almanac's tap of corrected NMU reads (R463). -/
def Dev.tapCorrected (d : Dev) : Dev := { d with alm := { d.alm with nmuTap := d.alm.nmuTap + 1 } }

/-! ## MSI-X, system vectors and ALERT_N (R386-R388, R495, R506) -/

/-- The MSI-X table entry of vector v of VF a (R386). -/
def vfEntry (a v : Nat) : Nat := 256 + 7 * (a - 1) + v

/-- The function of a table entry: 0 for PF0, else the VF. -/
def entryFn (e : Nat) : Nat := if e < 256 then 0 else (e - 256) / 7 + 1

/-- MSI-X is on for a function (R386). -/
def Dev.msixOn (d : Dev) (fn : Nat) : Bool :=
  if fn = 0 then d.ep.pf0En else d.ep.vfEnable && d.ep.vfEn.contains fn

/-- The function mask of a function. -/
def Dev.msixFnMask (d : Dev) (fn : Nat) : Bool := if fn = 0 then d.ep.pf0Mask else d.ep.vfMask.contains fn

/-- A table entry; its mask bit is set until software clears it. -/
def Dev.msixEntry (d : Dev) (e : Nat) : MsixEntry := kvGetD d.ep.table e ⟨0, 0, true⟩

/-- Raise a vector: a message, a pending bit while masked, nothing while MSI-X is off (R386, R388). -/
def Dev.msix (d : Dev) (e : Nat) : Dev :=
  if d.msixOn (entryFn e) then
    if (d.msixEntry e).mask || d.msixFnMask (entryFn e) then
      { d with ep := { d.ep with pend := if d.ep.pend.contains e then d.ep.pend else d.ep.pend ++ [e] } }
    else d.emit (.msix e)
  else d

/-- A block raises its system vector: its GEN_INT.PEND bit is set, masked or not (R387, R495). -/
def Dev.sysVec (d : Dev) (b : Nat) : Dev :=
  (d.set Bar.GEN_INT_PEND (d.get Bar.GEN_INT_PEND ||| 1 <<< b)).msix (d.get Bar.ALT_SYSVEC_VECTOR b)

/-- An event of a block raises ALERT_N (R506). -/
def Dev.alert (d : Dev) (b : Nat) : Dev :=
  { d with power := { d.power with holds := kvPut d.power.holds b ⟨d.now, false⟩ } }

/-- Whether the package is FENCED (20). -/
def Dev.isFenced (d : Dev) : Bool := d.get Bar.MBR_STATUS_STATE == 2

/-- Whether the device drives ALERT_N low (R506). -/
def Dev.alertDriven (d : Dev) : Bool :=
  !d.power.holds.isEmpty || !d.power.sitesOut.isEmpty || d.power.refclkLost || d.isFenced

/-! ## Allotments -/

/-- The run-time state of an allotment, full buckets when nothing has touched it. -/
def Dev.allotSt (d : Dev) (a : Nat) : Allot :=
  kvGetD d.allot a {
    notes := [], seq := 0, tokens := 16, tokenMs := 0, policedMs := none, cause := 0, flr := false,
    removal := false, handed := false, shape0 := 419430400, shape1 := 419430400, shapeNs := 0 }

def Dev.setAllot (d : Dev) (a : Nat) (x : Allot) : Dev := { d with allot := kvPut d.allot a x }

def Dev.altState (d : Dev) (a : Nat) : Nat := d.get Bar.ALT_CFG_STATE a
def Dev.inReset (d : Dev) (a : Nat) : Bool := d.altState a == 2
def Dev.disabled (d : Dev) (a : Nat) : Bool := d.altState a == 0

/-! ## Frames the device originates (R65-R67, R400, R417) -/

namespace Ty
def read : Nat := 0x00
def write : Nat := 0x01
def atomic : Nat := 0x02
def readResp : Nat := 0x03
def writeAck : Nat := 0x04
def invoke : Nat := 0x05
def result : Nat := 0x06
def notify : Nat := 0x07
def warm : Nat := 0x08
def snoop : Nat := 0x09
def snoopResp : Nat := 0x0A
def writeback : Nat := 0x0B
def copyData : Nat := 0x0C
def reducePart : Nat := 0x0D
def heartbeat : Nat := 0x0E
def epoch : Nat := 0x0F
def lend : Nat := 0x10
def evictNotice : Nat := 0x11
def nak : Nat := 0x12
end Ty

def Dev.myEp (d : Dev) : Nat := d.get Bar.LNK_MFP_ID_ENDPOINT
def Dev.mapEpoch (d : Dev) : Nat := d.get Bar.ALT_MAP_CURRENT
def Dev.mbrEpoch (d : Dev) : Nat := d.get Bar.MBR_STATUS_EPOCH

/-- Epoch a is newer than epoch b (R74). -/
def newer (a b : Nat) : Bool :=
  let x := (a + 2 ^ 32 - b % 2 ^ 32) % 2 ^ 32
  1 ≤ x && x < 2 ^ 31

/-- Epoch a is older than epoch b (R74): every difference that is neither 0 nor that of a newer one. -/
def older (a b : Nat) : Bool := decide (2 ^ 31 ≤ (a + 2 ^ 32 - b % 2 ^ 32) % 2 ^ 32)

namespace Frame
/-- FLAGS bits (04, table of flags). -/
def poisonBit (f : Sys2Proof.Frame) : Bool := f.flags.testBit 0
def enc (f : Sys2Proof.Frame) : Bool := f.flags.testBit 1
def mcast (f : Sys2Proof.Frame) : Bool := f.flags.testBit 2
def noCombine (f : Sys2Proof.Frame) : Bool := f.flags.testBit 3
def sess (f : Sys2Proof.Frame) : Bool := f.flags.testBit 4
def copyFlag (f : Sys2Proof.Frame) : Bool := f.flags.testBit 5
/-- The pool address in words 5 and 6 (R72). -/
def addr (f : Sys2Proof.Frame) : Nat := (f.w5 % 2 ^ 24) * 2 ^ 32 + f.w6
/-- Bytes b of R99. -/
def bytes (f : Sys2Proof.Frame) : Nat := 32 + f.len + (if f.flags.testBit 1 then 16 else 0)
/-- Cells k of R99. -/
def cells (f : Sys2Proof.Frame) : Nat := (bytes f + 255) / 256
end Frame

/-- The eight header words of a frame (R65). -/
def frameWords (f : Frame) : List Nat :=
  [ (f.type % 32) <<< 27 ||| (f.cls % 8) <<< 24 ||| (f.allot % 256) <<< 16 ||| f.dstEp % 65536,
    (f.srcEp % 65536) <<< 16 ||| f.tag % 65536,
    (f.status % 256) <<< 24 ||| (f.flags % 256) <<< 16 ||| f.len % 8192,
    f.mapEpoch % 2 ^ 32, f.mbrEpoch % 2 ^ 32, f.w5 % 2 ^ 32, f.w6 % 2 ^ 32, f.w7 % 2 ^ 32 ]

/-- The 32 header bytes: word 0 first, each word most significant byte first (R65). -/
def frameHeader (f : Frame) : List Byte := (frameWords f).flatMap (toBe 4)

/-- The word pair of an address (R72): word 5 bits [23:0] and word 6. -/
def addrHi (a : Nat) : Nat := a / 2 ^ 32 % 2 ^ 24
def addrLo (a : Nat) : Nat := a % 2 ^ 32

/-- A frame of the device: its own SRC_EP and epochs (R66, R400). -/
def Dev.newFrame (d : Dev) (type cls allot dst tag status flags w5 w6 w7 : Nat) (payload : List Byte) : Frame :=
  { type := type, cls := cls, allot := allot, dstEp := dst, srcEp := d.myEp, tag := tag, status := status,
    flags := flags, len := payload.length, mapEpoch := d.mapEpoch, mbrEpoch := d.mbrEpoch,
    w5 := w5, w6 := w6, w7 := w7, payload := payload, trailer := [], badTail := false }

/-- Word 5 of an answer (R72): a NAK and a RESULT have it as the request does; the other answers hold ADDR[55:32], and
their further bits are sent as 0. -/
def answerW5 (type w5 : Nat) : Nat := if type = Ty.nak ∨ type = Ty.result then w5 else w5 % 2 ^ 24

/-- A frame that answers a request: DST_EP, TAG, ALLOT and words 5 and 6 from the request. -/
def Dev.answer (d : Dev) (q : Frame) (type cls status flags w7 : Nat) (payload : List Byte) : Frame :=
  d.newFrame type cls q.allot q.srcEp q.tag status flags (answerW5 type q.w5) q.w6 w7 payload

/-- The die of a Trellis port. -/
def portDie : TPort → Nat
  | .fabric l => if l < 96 then 0 else 1
  | .cluster c => if c < 8 then 0 else 1
  | .memSide x => x
  | .bridge x => x

/-- A number for a Trellis port. -/
def portCode : TPort → Nat
  | .fabric l => l
  | .cluster c => 200 + c
  | .memSide x => 220 + x
  | .bridge x => 230 + x

/-- The ACTIVE fabric key of an allotment, if it has one (R414). -/
def Dev.activeKey (d : Dev) (a : Nat) : Option Nat :=
  let slot := d.get Bar.SEC_ALT_ACT_SLOT a
  let st := if slot = 0 then d.get Bar.SEC_ALT_A_STATE a else d.get Bar.SEC_ALT_B_STATE a
  if st = 2 then kvGet? d.sec.fabKeys (2 * a + slot) else none

/-- The RX fabric key of an allotment, if it has one. -/
def Dev.rxKey (d : Dev) (a : Nat) : Option Nat :=
  let slot := 1 - d.get Bar.SEC_ALT_ACT_SLOT a
  let st := if slot = 0 then d.get Bar.SEC_ALT_A_STATE a else d.get Bar.SEC_ALT_B_STATE a
  if st = 1 then kvGet? d.sec.fabKeys (2 * a + slot) else none

/-- The next SEQ of a die, in blocks of 65,536 values allocated to the dies (R418). -/
def Dev.takeSeq (d : Dev) (die : Nat) : Nat × Dev :=
  let n := kvGetD d.sec.seqNext die 0
  if n % 65536 = 0 then
    let b := d.sec.seqBlock * 65536
    (b, { d with sec := { d.sec with seqNext := kvPut d.sec.seqNext die (b + 1), seqBlock := d.sec.seqBlock + 1 } })
  else (n, { d with sec := { d.sec with seqNext := kvPut d.sec.seqNext die (n + 1) } })

/-- Types that are never sealed (R419). -/
def neverSealed (type : Nat) : Bool :=
  type == Ty.nak || type == Ty.evictNotice || type == Ty.heartbeat || type == Ty.epoch

/-- The GCM nonce of R417. -/
def gcmNonce (srcEp seq : Nat) : Nat := srcEp * 2 ^ 80 + seq % 2 ^ 64 * 2 ^ 16

/-- Seal a frame that the device originates for an allotment with FAB_EN = 1 (R417). -/
def Dev.seal (d : Dev) (die : Nat) (f : Frame) : Frame × Dev :=
  if d.flag Bar.SEC_ALT_FAB_EN f.allot && !neverSealed f.type then
    match d.activeKey f.allot with
    | none => (f, d)
    | some k =>
      let r := d.takeSeq die
      let g := { f with flags := f.flags ||| 2 }
      let ct := Config.gcmSeal k (gcmNonce f.srcEp r.1) (frameHeader g) f.payload
      ({ g with payload := ct.1, trailer := toBe 4 (r.1 % 2 ^ 32) ++ ct.2 }, r.2)
  else (f, d)

/-- The device originates a frame at one of its internal ports: it waits in the outbox for its admission (R100). -/
def Dev.send (d : Dev) (port : TPort) (f : Frame) : Dev :=
  let r := d.seal (portDie port) f
  { r.2 with outbox := r.2.outbox ++ [(port, r.1)] }

/-- Send a frame that is not sealed (R419). -/
def Dev.sendPlain (d : Dev) (port : TPort) (f : Frame) : Dev := { d with outbox := d.outbox ++ [(port, f)] }

/-- A request type of R511: answered by the table of frame types, a WARM, or a pushed COPY_DATA. -/
def isRequest (f : Frame) : Bool :=
  f.type == Ty.read || f.type == Ty.write || f.type == Ty.atomic || f.type == Ty.invoke || f.type == Ty.warm ||
  f.type == Ty.snoop || f.type == Ty.writeback || (f.type == Ty.copyData && !Frame.copyFlag f) ||
  f.type == Ty.reducePart || f.type == Ty.lend

/-- Count a NAK that the device sends (LNK_MFP_NAK). -/
def Dev.countNak (d : Dev) (status : Nat) : Dev :=
  if status = Code.remap then d.bump Bar.LNK_MFP_NAK_REMAP 1
  else if status = Code.busy then d.bump Bar.LNK_MFP_NAK_BUSY 1
  else if status = Code.access then d.bump Bar.LNK_MFP_NAK_ACCESS 1
  else d.bump Bar.LNK_MFP_NAK_OTHER 1

/-- Answer a frame with NAK when it is a request, drop it otherwise (R72, R511). -/
def Dev.nak (d : Dev) (port : TPort) (f : Frame) (status : Nat) : Dev :=
  if isRequest f then
    (d.countNak status).sendPlain port (d.answer f Ty.nak 7 status 0 (f.type <<< 27) [])
  else d

/-! ## Notifications (R389-R393) -/

/-- The PF0 or VF vector of a notification of allotment a (ALT_NVEC; allotment 0 uses block ALT's). -/
def Dev.noteVec (d : Dev) (a code : Nat) : Nat :=
  if a = 0 then d.get Bar.ALT_SYSVEC_VECTOR Blk.alt
  else vfEntry a (min 6 (d.get Bar.ALT_NVEC_VEC a >>> (3 * (code - 1)) % 8))

/-- The NOTIFY frame of a record (R393). -/
def Dev.noteFrame (d : Dev) (a : Nat) (n : Note) : Frame :=
  d.newFrame Ty.notify 5 a (d.get Bar.ALT_CFG_NOTIFY_EP a) 0 0 0 (n.code <<< 24 ||| n.rep <<< 16 ||| n.seq) n.arg 0
    (toLe 8 n.timeNs)

/-- One message, on the vector of the oldest, signals the records that wait for one (R392). A function that sends no MSI-X
takes no token (R386). -/
def Dev.signalMsix (d : Dev) (a : Nat) (which : Note → Bool) : Dev :=
  let x := d.allotSt a
  match x.notes.find? (fun n => which n && !n.signalled) with
  | none => d
  | some n =>
    let e := d.noteVec a n.code
    if x.tokens = 0 || !d.msixOn (entryFn e) then d
    else (d.setAllot a { x with
            tokens := x.tokens - 1
            notes := x.notes.map fun m => { m with signalled := m.signalled || which m } }).msix e

/-- A FENCED record is signalled by MSI-X only (R393), in NMODE 2 too. DEDUCED (log entry 83). -/
def fencedNote (n : Note) : Bool := n.code == 0x07

/-- Each record takes its own token and its own frame (R392, NMODE 2 and 3); in NMODE 2 it then leaves the queue. A
FENCED package sends no NOTIFY (R393). -/
def Dev.signalFrames (d : Dev) (a : Nat) (mode : Nat) : List Note → Dev
  | [] => d
  | n :: ns =>
    let x := d.allotSt a
    if n.framed || fencedNote n || x.tokens = 0 then d.signalFrames a mode ns
    else
      let notes := if mode = 2 then x.notes.filter (· != n)
                   else x.notes.map fun m => if m == n then { m with framed := true } else m
      ((d.setAllot a { x with tokens := x.tokens - 1, notes := notes }).send (.memSide 0)
        (d.noteFrame a n)).signalFrames a mode ns

/-- Signal the waiting records of an allotment as NMODE says, as far as its tokens go (R392). -/
def Dev.signalNotes (d : Dev) (a : Nat) : Dev :=
  let m := d.get Bar.ALT_CFG_NMODE a
  let d1 := if m = 1 || m = 3 then d.signalMsix a fun _ => true else if m = 2 then d.signalMsix a fencedNote else d
  if (m = 2 || m = 3) && !d.isFenced then d1.signalFrames a m (d1.allotSt a).notes else d1

/-- A record for allotment a (R389-R391). Records raised during a's reset are not queued (R396), except the
RESET_DONE that ends it, which its caller queues after STATE has changed. -/
def Dev.notify (d : Dev) (a code arg : Nat) : Dev :=
  if d.inReset a then d
  else
    let x := d.allotSt a
    if x.notes.length < 64 then
      (d.setAllot a { x with seq := (x.seq + 1) % 65536, notes := x.notes ++ [
        { code := code, rep := 0, seq := x.seq, arg := arg, timeNs := d.now, signalled := false,
          framed := false }] }).signalNotes a
    else match x.notes.find? (fun n => n.code == code && n.arg == arg) with
      | some n => (d.setAllot a { x with notes := x.notes.map fun m =>
          if m == n then { m with rep := min 255 (m.rep + 1) } else m }).bump Bar.ALT_STATUS_N_MERGED 1 a
      | none => d.bump Bar.ALT_STATUS_N_LOST 1 a

/-- Queue a record for every ACTIVE allotment (MAP_INSTALLED and FENCED, R389). -/
def Dev.notifyAll (d : Dev) (code arg : Nat) : Dev :=
  (List.range 256).foldl (fun d a => if d.altState a == 1 then d.notify a code arg else d) d

end Sys2Proof.Machine
end

