-- ==== Sys2Proof/Machine/Exc16.lean ====
section
/-! DEFINITION. EXC16 weight blocks (R344-R348): the header, the canonical code table, the sub-streams and the checks.
A block is given as a function from byte offset to byte. -/

namespace Sys2Proof.Machine

namespace Exc16

/-- The outcome of a block: 8,192 bytes of raw BF16 layout, or COMPRESS_LEN or COMPRESS_CODE. -/
inductive Result where
  | ok (raw : List Byte)
  | fail (status : Nat)
deriving DecidableEq, Repr

/-- A little-endian 32-bit header word (R344). -/
def word (b : Nat → Byte) (n : Nat) : Nat := leNat ((List.range 4).map fun i => b (4 * n + i))

def format (b : Nat → Byte) : Nat := word b 0 % 256
def nsym (b : Nat → Byte) : Nat := word b 0 / 256 % 256
def escLen (b : Nat → Byte) : Nat := word b 0 / 65536 % 256

/-- BITS[i]: bits [12:0] of a 16-bit entry. -/
def bits (b : Nat → Byte) (i : Nat) : Nat := word b (4 + i / 2) >>> (16 * (i % 2)) % 8192

/-- SYM[s]: length and exponent. -/
def sym (b : Nat → Byte) (s : Nat) : Nat × Nat :=
  let w := word b (12 + s / 2) >>> (16 * (s % 2)) % 65536
  (w % 16, w / 256)

/-- Where the code part of sub-stream i starts (R345); i = 16 gives the end of the block. -/
def partStart (b : Nat → Byte) (i : Nat) : Nat :=
  4176 + 16 * ((List.range i).map fun j => (bits b j + 127) / 128).sum

/-- The size of a block of a valid FORMAT (R344). -/
def size (b : Nat → Byte) : Option Nat :=
  if format b = 1 then some (partStart b 16) else if format b = 2 then some 8208 else none

/-- The entries of the code table: length, and the exponent of a symbol or none for the escape, by ascending index. -/
def entries (b : Nat → Byte) : List (Nat × Option Nat) :=
  ((List.range (nsym b)).map fun s => ((sym b s).1, some (sym b s).2)) ++ [(escLen b, none)]

/-- A table is valid: lengths 1-8, at most 16 symbols, and the sum of 2^-len at most 1 (R346). -/
def valid (b : Nat → Byte) : Bool :=
  nsym b ≤ 16 && (entries b).all (fun e => 1 ≤ e.1 && e.1 ≤ 8) &&
  decide (((entries b).map fun e => 2 ^ (8 - e.1)).sum ≤ 256)

/-- Canonical codes, in order of length and then of index (R346): code, length, exponent. -/
def assign : Nat → Nat → List (Nat × Option Nat) → List (Nat × Nat × Option Nat)
  | _, _, [] => []
  | code, prev, e :: es =>
    let c := code <<< (e.1 - prev)
    (c, e.1, e.2) :: assign (c + 1) e.1 es

def codes (b : Nat → Byte) : List (Nat × Nat × Option Nat) :=
  let es := (List.range 9).flatMap fun n => (entries b).filter fun e => e.1 == n
  assign 0 ((es.headD (0, none)).1) es

/-- Stream bit n of a part (R347). -/
def bitAt (b : Nat → Byte) (start n : Nat) : Nat := (b (start + n / 8)).toNat >>> (n % 8) % 2

/-- n stream bits from a position, most significant bit first. -/
def readBits (b : Nat → Byte) (start pos n : Nat) : Nat :=
  (List.range n).foldl (fun v i => 2 * v + bitAt b start (pos + i)) 0

/-- One record at a position: its exponent and its length in bits. -/
def record (b : Nat → Byte) (cs : List (Nat × Nat × Option Nat)) (start pos : Nat) : Option (Nat × Nat) :=
  match cs.find? (fun c => readBits b start pos c.2.1 == c.1) with
  | none => none
  | some (_, len, some e) => some (e, len)
  | some (_, len, none) => some (readBits b start (pos + len) 8, len + 8)

/-- A sub-stream from a position with n weights decoded: its exponents, or a COMPRESS status (R348). -/
def stream (b : Nat → Byte) (cs : List (Nat × Nat × Option Nat)) (start total : Nat) :
    Nat → Nat → Nat → List Nat → List Nat ⊕ Nat
  | 0, _, _, _ => .inr Code.compressLen
  | fuel + 1, pos, n, acc =>
    if pos = total then (if n = 256 then .inl acc.reverse else .inr Code.compressLen)
    else match record b cs start pos with
      | none => .inr Code.compressCode
      | some (e, len) =>
        if total < pos + len then .inr Code.compressCode
        else if n = 256 then .inr Code.compressLen
        else stream b cs start total fuel (pos + len) (n + 1) (e :: acc)

/-- The sixteen sub-streams of a coded block. -/
def streams (b : Nat → Byte) : List (List Nat ⊕ Nat) :=
  (List.range 16).map fun i => stream b (codes b) (partStart b i) (bits b i) 258 0 0 []

/-- BF16 bytes of a decoded sub-stream (R345, R347). -/
def rawOf (b : Nat → Byte) (i : Nat) (es : List Nat) : List Byte :=
  es.zipIdx.flatMap fun e =>
    let p := (b (80 + 256 * i + e.2)).toNat
    toLe 2 ((p / 128) <<< 15 ||| e.1 <<< 7 ||| p % 128)

/-- The status of a coded block's sub-streams: COMPRESS_CODE before COMPRESS_LEN (R348). -/
def worst (rs : List (List Nat ⊕ Nat)) : Option Nat :=
  if rs.any (fun r => match r with | .inr s => s == Code.compressCode | .inl _ => false) then some Code.compressCode
  else if rs.any (fun r => match r with | .inr _ => true | .inl _ => false) then some Code.compressLen
  else none

/-- Check and decode a block (R348, R351). -/
def decode (b : Nat → Byte) : Result :=
  if format b = 2 then .ok ((List.range 8192).map fun i => b (16 + i))
  else if format b ≠ 1 ∨ !valid b then .fail Code.compressCode
  else
    let rs := streams b
    match worst rs with
    | some s => .fail s
    | none => .ok (rs.zipIdx.flatMap fun r => match r.1 with
        | .inl es => rawOf b r.2 es
        | .inr _ => [])

/-- A coded block in which some BITS[i] exceeds 1,536 (R353). -/
def slow (b : Nat → Byte) : Bool := (List.range 16).any fun i => decide (1536 < bits b i)

end Exc16

end Sys2Proof.Machine
end

