-- ==== Sys2Proof/Machine/Keys.lean ====
section
/-! DEFINITION. Key slots and the Cloche: the memory key slots of R414-R415, and what a wipe does (R165, R428). -/

namespace Sys2Proof.Machine

abbrev Out := Host.Outcome State Fault Refusal

/-- Apply an effect to the device, leaving fuses and queue. -/
def State.onDev (s : State) (f : Dev → Dev) : State := { s with dev := f s.dev }

/-- The package runs: PWR_OK is asserted and no thermal trip has stopped it (R475, R505). -/
def Dev.runs (d : Dev) : Bool := d.power.pwrOk && !d.power.tripped

/-- An effect that only a running package has. -/
def State.live (s : State) (f : Dev → Dev) : State := if s.dev.runs then s.onDev f else s

/-- The package serves register commands: start-up has ended with an image (STAGE READY, R472, R476). -/
def Dev.ready (d : Dev) : Bool := d.runs && d.get Bar.GEN_BOOT_STAGE == 4

/-- State of a memory key slot: 0 FREE, 1 ACTIVE, 2 RETIRED. -/
def Dev.mslotState (d : Dev) (n : Nat) : Nat := (kvGetD d.sec.mslots n (0, 0)).1

/-- SEC_STATUS.MSLOT_FREE follows the slots. -/
def Dev.countMslots (d : Dev) : Dev := d.set Bar.SEC_STATUS_MSLOT_FREE (512 - d.sec.mslots.length)

/-- An allotment takes the lowest FREE memory slot, if there is one (R415). -/
def Dev.takeMslot (d : Dev) (a : Nat) : Option Dev :=
  match kvFree d.sec.mslots 512 with
  | none => none
  | some n => some (({ d with sec := { d.sec with mslots := kvPut d.sec.mslots n (1, a) } }).set
      Bar.SEC_ALT_MSLOT n a).countMslots

/-- The ACTIVE memory slot of an allotment, if it has one. -/
def Dev.activeMslot (d : Dev) (a : Nat) : Option Nat :=
  let n := d.get Bar.SEC_ALT_MSLOT a
  if kvGet? d.sec.mslots n = some (1, a) then some n else none

/-- A slot becomes RETIRED, or FREE at once when no frame is bound to it (R420, R428). -/
def Dev.retireMslot (d : Dev) (n : Nat) : Dev :=
  match kvGet? d.sec.mslots n with
  | none => d
  | some (_, a) =>
    let m := if kvGetD d.sec.mslotCnt n 0 = 0 then kvDel d.sec.mslots n else kvPut d.sec.mslots n (2, a)
    ({ d with sec := { d.sec with mslots := m } }).countMslots

/-- A frame bound to a slot is freed; a RETIRED slot whose count reaches 0 becomes FREE (step 4 of R420). -/
def Dev.unbindFrame (d : Dev) (n : Nat) : Dev :=
  let c := kvGetD d.sec.mslotCnt n 0 - 1
  let d1 : Dev := { d with sec := { d.sec with mslotCnt := kvPut d.sec.mslotCnt n c } }
  if c = 0 && d.mslotState n == 2 then
    ({ d1 with sec := { d1.sec with mslots := kvDel d1.sec.mslots n } }).countMslots
  else d1

/-- A frame is bound to a slot. -/
def Dev.bindFrame (d : Dev) (n : Nat) : Dev :=
  { d with sec := { d.sec with mslotCnt := kvPut d.sec.mslotCnt n (kvGetD d.sec.mslotCnt n 0 + 1) } }

/-- Both fabric slots of an allotment become EMPTY (R420, R428). -/
def Dev.emptyFabric (d : Dev) (a : Nat) : Dev :=
  let d1 : Dev := { d with sec := { d.sec with fabKeys := kvDel (kvDel d.sec.fabKeys (2 * a)) (2 * a + 1) } }
  (d1.set Bar.SEC_ALT_A_STATE 0 a).set Bar.SEC_ALT_B_STATE 0 a

/-- Each of the named allotments takes a fresh memory slot; one that finds none becomes DISABLED, an allotment in reset when
its reset ends (R384, R428). -/
def Dev.freshSlots (d : Dev) (as : List Nat) : Dev :=
  as.foldl (fun d a => match d.takeMslot a with
    | some d' => d'
    | none => if d.inReset a then d.set Bar.ALT_CFG_ENABLE 0 a else d.set Bar.ALT_CFG_STATE 0 a) d

/-- The allotments that are ACTIVE or, unless tenant removal has joined it, in a reset that leads there. -/
def Dev.activeAllots (d : Dev) : List Nat :=
  (List.range 256).filter fun a => d.altState a != 0 && !(d.allotSt a).removal

/-- The Cloche's contents and the key slots are lost: every ACTIVE memory slot retires, every fabric slot empties, the
identity private key and the session secrets are gone (R165, R407, R428). -/
def Dev.blankCloche (d : Dev) : Dev :=
  let slots := (d.sec.mslots.filter fun e => e.2.1 == 1).map Prod.fst
  let d1 := slots.foldl Dev.retireMslot d
  let d2 := (List.range 256).foldl Dev.emptyFabric d1
  let d3 : Dev := { d2 with
    sec := { d2.sec with idKey := false, spdm := [], ifr := [], signing := [] }, banks := { d2.banks with cloche := .blank } }
  (d3.set Bar.SEC_STATUS_SIGN_QUEUE 0).set Bar.SEC_STATUS_ID_READY 0

/-- A wipe, recorded with its cause (R165): 1 TAMPER_N, 2 RETURNED, 3 VDD_AON, 4 temperature. -/
def Dev.clocheWipe (d : Dev) (cause : Nat) : Dev :=
  ((d.blankCloche.bump Bar.SEC_STATUS_WIPES 1).set Bar.SEC_STATUS_LAST_WIPE cause).alm1 Blk.sec 0x01 0 0 0 cause

/-- A wipe that is not caused by TAMPER_N or entry to RETURNED: every ACTIVE allotment then takes a fresh memory slot
(R428). -/
def Dev.wipeAndRekey (d : Dev) (cause : Nat) : Dev :=
  let d1 := d.clocheWipe cause
  d1.freshSlots d1.activeAllots

end Sys2Proof.Machine
end

