-- ==== Sys2Proof/Machine/Tables.lean ====
section
/-! DEFINITION. Lookups that several units share: spans and objects of the pool (chapter 6), the fields of a session
table entry (R320), the home of a frame's target. -/

namespace Sys2Proof.Machine

/-! ## Pool addresses (R118-R119, R184) -/

/-- The 64 KiB page of a pool address. -/
def pageOf (addr : Nat) : Nat := addr / 65536

/-- The valid span entry that hosts an address. -/
def Dev.spanOf (d : Dev) (addr : Nat) : Option Nat :=
  (List.range 512).find? fun i =>
    d.flag Bar.MEM_SPAN_VALID i && d.get Bar.MEM_SPAN_SPAN i == addr / 2 ^ 40 % 65536

/-! ### The member table (R430) -/

def Dev.memEp (d : Dev) (i : Nat) : Nat := d.get Bar.MBR_MEMBER_ENDPOINT i
def Dev.memValid (d : Dev) (i : Nat) : Bool := d.flag Bar.MBR_MEMBER_VALID i

/-- The valid entry of an endpoint. -/
def Dev.memIdx (d : Dev) (ep : Nat) : Option Nat := (List.range 1024).find? fun i => d.memValid i && d.memEp i == ep

/-- The failure domain that an endpoint reports, in a capability block or a heartbeat (R431). -/
def Dev.domainReported (d : Dev) (ep dom : Nat) : Dev :=
  match d.memIdx ep with
  | some i => d.set Bar.MBR_MEMBER_DOMAIN dom i
  | none => d

/-! ### Objects and pages -/

/-- The object that holds a pool page. -/
def Dev.objOf (d : Dev) (page : Nat) : Option Nat :=
  d.pool.objs.find? fun n =>
    let b := d.get Bar.MEM_OBJ_BASE_PAGE n
    b ≤ page && page < b + d.get Bar.MEM_OBJ_PAGES n

/-- The home die of an address: its object's HOME_DIE, or address bit 16 when that is 2 (R184). -/
def Dev.homeDie (d : Dev) (addr : Nat) : Option Nat :=
  (d.objOf (pageOf addr)).map fun n =>
    let h := d.get Bar.MEM_OBJ_HOME_DIE n
    if h = 2 then addr / 65536 % 2 else h

/-- Allotment `a` owns every byte of a range: each page lies in a hosted span of `a` and in an object (R119). -/
def Dev.ownsRange (d : Dev) (a addr len : Nat) : Bool :=
  (List.range ((addr + (len - 1)) / 65536 + 1 - pageOf addr)).all fun i =>
    let pg := pageOf addr + i
    (match d.spanOf (pg * 65536) with
      | some x => d.get Bar.MEM_SPAN_ALLOT x == a
      | none => false) && (d.objOf pg).isSome

/-- Every page of a range lies in an object of allotment `a`. -/
def Dev.inObjects (d : Dev) (a addr len : Nat) : Bool :=
  (List.range ((addr + (len - 1)) / 65536 + 1 - pageOf addr)).all fun i =>
    match d.objOf (pageOf addr + i) with
    | some n => d.get Bar.MEM_OBJ_ALLOT n == a
    | none => false

/-- Where the device's own requesters send a request for a span it does not host (R512). -/
def Dev.memHome (d : Dev) (addr : Nat) : Option Nat :=
  let sp := addr / 2 ^ 40 % 65536
  if d.flag Bar.MEM_HOME_VALID sp then some (d.get Bar.MEM_HOME_ENDPOINT sp) else none

/-- The die of a fetching unit: core k for k below 256, and Gardener k - 256 otherwise. -/
def unitDie (k : Nat) : Nat := if k < 256 then k / 128 else k - 256

/-- The time base as a die reads it (R39). -/
def Dev.dieNow (d : Dev) (die : Nat) : Nat := if die = 0 then d.now else d.tim.die1

/-! ## Session entries (R320) -/

/-- A field of a session entry: word and bits. -/
structure SesFld where
  word : Nat
  hi   : Nat
  lo   : Nat

namespace Ses
def STATE : SesFld := ⟨0, 63, 61⟩
def MIRROR_OK : SesFld := ⟨0, 60, 60⟩
def ALLOT : SesFld := ⟨0, 59, 52⟩
def HDIM : SesFld := ⟨0, 51, 50⟩
def GQ : SesFld := ⟨0, 49, 45⟩
def QHEADS : SesFld := ⟨0, 44, 36⟩
def LAYERS : SesFld := ⟨0, 35, 28⟩
def CACHE_OBJ : SesFld := ⟨0, 27, 14⟩
def BUDGET : SesFld := ⟨1, 63, 48⟩
def CAP_POS : SesFld := ⟨1, 47, 32⟩
def POSITIONS : SesFld := ⟨1, 31, 16⟩
def PREFIX_POS : SesFld := ⟨1, 15, 0⟩
def STEP : SesFld := ⟨2, 63, 32⟩
def BASE : SesFld := ⟨2, 31, 16⟩
def LAYER : SesFld := ⟨2, 15, 8⟩
def T_OPEN : SesFld := ⟨2, 4, 0⟩
def PMASK : SesFld := ⟨3, 63, 0⟩
def NPART_H : SesFld := ⟨4, 63, 58⟩
def NPART_P : SesFld := ⟨4, 57, 52⟩
def PSPAN : SesFld := ⟨4, 51, 44⟩
def HOME_CLUSTER : SesFld := ⟨4, 43, 40⟩
def SPREAD : SesFld := ⟨4, 39, 36⟩
def PROJ : SesFld := ⟨4, 35, 35⟩
def WIN : SesFld := ⟨4, 34, 29⟩
def RGROUP : SesFld := ⟨4, 28, 17⟩
def HIDDEN : SesFld := ⟨4, 16, 7⟩
def BIAS_LSTRIDE : SesFld := ⟨5, 63, 48⟩
def BIAS_HSTRIDE : SesFld := ⟨5, 47, 32⟩
def BIAS_BASE : SesFld := ⟨5, 24, 0⟩
def MIRROR_EP : SesFld := ⟨6, 63, 48⟩
def MIRROR_SESSION : SesFld := ⟨6, 47, 32⟩
def PREFIX_REGION : SesFld := ⟨6, 31, 20⟩
def PREFIX_SLOT : SesFld := ⟨6, 19, 16⟩
def DECAY : SesFld := ⟨6, 15, 0⟩
def DEMOTE_C : SesFld := ⟨7, 63, 56⟩
def AREA_BASE : SesFld := ⟨7, 55, 0⟩
end Ses

/-- A FREE session entry. -/
def Dev.sesn (d : Dev) (id : Nat) : Option Sess := kvGet? d.sess id

/-- A word of a session entry; 0 when the entry is FREE. -/
def Dev.sesWord (d : Dev) (id w : Nat) : Nat :=
  match kvGet? d.sess id with
  | none => 0
  | some x => x.words.getD w 0

/-- A field of a session entry. -/
def Dev.ses (d : Dev) (id : Nat) (f : SesFld) : Nat := slice (d.sesWord id f.word) f.hi f.lo

/-- Write a field of a session entry that is in use. -/
def Dev.setSes (d : Dev) (id : Nat) (f : SesFld) (x : Nat) : Dev :=
  { d with sess := kvMod d.sess id fun e =>
      { e with words := e.words.set f.word (splice (e.words.getD f.word 0) f.hi f.lo x) } }

/-! ## PF0 writes and the TDIs (R383, R472, R474) -/

/-- The resources of an allotment, each by a number: spans, objects, versioned regions, sessions, cluster banks, cores,
program slots, reduction groups, multicast groups and expansion views (R383). -/
def Dev.assigned (d : Dev) (a : Nat) : List (Nat × Nat) :=
  let mine (k n : Nat) (p : Nat → Bool) : List (Nat × Nat) := ((List.range n).filter p).map fun i => (k, i)
  (((List.range 512).filter fun i => d.flag Bar.MEM_SPAN_VALID i && d.get Bar.MEM_SPAN_ALLOT i == a).map fun i =>
    (0, d.get Bar.MEM_SPAN_SPAN i)) ++
  ((d.pool.objs.filter fun n => d.get Bar.MEM_OBJ_ALLOT n == a).map fun n => (1, n)) ++
  mine 2 4096 (fun r => d.flag Bar.VER_REGION_VALID r && d.get Bar.VER_REGION_ALLOT r == a && (kvGet? d.ver.destroy r).isNone) ++
  ((d.sess.filter fun e => !e.2.closing && d.ses e.1 Ses.STATE != 0 && d.ses e.1 Ses.ALLOT == a).map fun e => (3, e.1)) ++
  mine 4 1024 (fun b => d.flag Bar.CLU_BANK_ASSIGN (b / 64) (b % 64) && d.get Bar.CLU_BANK_OWNER (b / 64) (b % 64) == a) ++
  mine 5 256 (fun b =>
    d.flag Bar.CLU_CORE_OWN_ASSIGN (b / 16) (b % 16) && d.get Bar.CLU_CORE_OWN_OWNER (b / 16) (b % 16) == a) ++
  mine 6 1024 (fun n => d.flag Bar.CLU_SLOT_VALID n && d.get Bar.CLU_SLOT_OWNER n == a) ++
  mine 7 4096 (fun g => d.flag Bar.RKS_GRP_VALID g && d.get Bar.RKS_GRP_OWNER g == a) ++
  mine 8 8192 (fun g =>
    d.flag Bar.TRL_MCAST_VALID (g / 4096) (g % 4096) && d.get Bar.TRL_MCAST_OWNER (g / 4096) (g % 4096) == a) ++
  mine 9 64 (fun i => d.flag Bar.EXP_EGR_VALID i && d.get Bar.EXP_EGR_ALLOT i == a)

/-- The allotments whose TDI is CONFIG_LOCKED or RUN. -/
def Dev.lockedTdis (d : Dev) : List Nat := (d.ep.tdi.filter fun e => e.2 == 1 || e.2 == 2).map Prod.fst

/-- A TDI moves to ERROR. -/
def Dev.tdiError (d : Dev) (a : Nat) : Dev := { d with ep := { d.ep with tdi := kvPut d.ep.tdi a 3 } }

/-- After a PF0 write: every locked or running TDI whose resources it changed moves to ERROR (R474). -/
def Dev.tdiGuard (d d1 : Dev) : Dev :=
  d.lockedTdis.foldl (fun e a => if d.assigned a = d1.assigned a then e else e.tdiError a) d1

/-- A PF0 write of ALT_CFG or SEC_ALT_OWNER of an allotment (R474). -/
def Dev.tdiTouch (d : Dev) (a : Nat) : Dev := if d.lockedTdis.contains a then d.tdiError a else d

/-- An effect of a register command of PF0: none before READY, and none in RECOVERY (R472). -/
def State.host (s : State) (f : Dev → Dev) : State := if s.dev.ready then s.onDev fun d => d.tdiGuard (f d) else s

/-- An effect of a register command of a named requester. -/
def State.hostBy (s : State) (who : Requester) (f : Dev → Dev) : State :=
  match who with
  | .pf0 => s.host f
  | .vf _ => s
  | _ => if s.dev.ready then s.onDev f else s

/-- An effect of a command of window w: 0 is PF0's, 1 and 2 are the Gardeners'. -/
def State.window (s : State) (w : Nat) (f : Dev → Dev) : State :=
  if w = 0 then s.host f else if s.dev.ready then s.onDev f else s

/-- The cluster that the entry names as the home of partition p (R300). -/
def Dev.partCluster (d : Dev) (id p : Nat) : Nat :=
  (d.ses id Ses.HOME_CLUSTER + p % (d.ses id Ses.SPREAD + 1)) % 16

/-- Shape of a session: head dimension, KV heads, layers, positions laid out for. -/
def Dev.sesD (d : Dev) (id : Nat) : Nat := 64 * 2 ^ d.ses id Ses.HDIM
def Dev.sesKvh (d : Dev) (id : Nat) : Nat := d.ses id Ses.QHEADS / d.ses id Ses.GQ
def Dev.sesLayers (d : Dev) (id : Nat) : Nat := d.ses id Ses.LAYERS
def Dev.sesCapHb (d : Dev) (id : Nat) : Nat := d.ses id Ses.CAP_POS / 64

/-- Up to a multiple of 64 KiB. -/
def roundPage (x : Nat) : Nat := (x + 65535) / 65536 * 65536

/-- Offsets of the areas of a cache object (R325): score, mass, half-block tables, unit heap. -/
def Dev.offS (d : Dev) (id : Nat) : Nat := roundPage (d.sesLayers id * d.sesKvh id * (d.sesD id / 2))
def Dev.massSize (d : Dev) (id : Nat) : Nat := 64 + 4 * d.ses id Ses.CAP_POS
def Dev.offM (d : Dev) (id : Nat) : Nat := d.offS id + roundPage (d.massSize id)
def Dev.offH (d : Dev) (id : Nat) : Nat := d.offM id + roundPage (d.sesLayers id * d.sesKvh id * d.massSize id)
def Dev.offU (d : Dev) (id : Nat) : Nat :=
  d.offH id + roundPage (d.sesLayers id * d.sesKvh id * d.sesCapHb id * 8)

/-- Two ranges of bytes meet. -/
def meets (a n b m : Nat) : Bool := decide (a < b + m) && decide (b < a + n) && n != 0 && m != 0

/-- A range of pool bytes meets what belongs to the session logic (R326): half-block tables and unit heap, bytes 4-63
of the score-area header, pre-scale vectors that have had their first append. -/
def Dev.sesOwned (d : Dev) (addr len : Nat) : Bool :=
  d.sess.any fun e =>
    let id := e.1
    let base := d.ses id Ses.AREA_BASE
    let size := 65536 * d.get Bar.MEM_OBJ_PAGES (d.ses id Ses.CACHE_OBJ)
    meets addr len base size &&
      (meets addr len (base + d.offH id) (size - d.offH id) || meets addr len (base + d.offS id + 4) 60 ||
        e.2.scaled.any fun lh => meets addr len (base + lh * (d.sesD id / 2)) (d.sesD id / 2))

/-- The target cluster of an INVOKE (R224): word 5 holds SLOT, PART and SESSION. -/
def Dev.invokeCluster (d : Dev) (f : Frame) : Nat :=
  if Frame.sess f then d.partCluster (f.w5 % 65536) (f.w5 >>> 16 % 64)
  else d.get Bar.CLU_SLOT_HOME_CLUSTER (f.w5 >>> 22 % 1024)

/-! ## Who issued a request (R34) -/

/-- The unit and generation that a request belongs to. -/
def Dev.reqOwner (d : Dev) : Cont → Option (Nat × Nat)
  | .patom core gen _ _ _ _ => some (core, gen)
  | .chunk c _ => (kvGet? d.copies c).map fun x => (x.core, x.gen)
  | .mirror _ _ core gen _ => some (core, gen)
  | .rake _ core gen _ _ _ => some (core, gen)
  | .part _ core gen _ _ _ => some (core, gen)
  | _ => none

/-- The source of a request at the port by which it entered (R34, R83): an ingress port and class, or the invocation or
engine of this package that issued it. -/
def Dev.sourceOf (d : Dev) (port : TPort) (f : Frame) : Nat × Nat × Nat :=
  match port with
  | .fabric l => (0, l, f.cls)
  | p => match (kvGet? d.reqs f.tag).bind fun r => d.reqOwner r.cont with
    | some (core, gen) => (1, core, gen)
    | none => (2, (match p with
        | .cluster c => c
        | .memSide x => 16 + x
        | _ => 18), f.tag / 2048)

/-! ## Where a delivered frame goes inside the package -/

/-- The group that waits for a parent's result frame (R378): SRC_EP, GROUP and ROUND agree. -/
def Dev.waitingGroup (d : Dev) (f : Frame) : Option Nat :=
  (List.range 4096).find? fun g =>
    d.flag Bar.RKS_GRP_VALID g && d.get Bar.RKS_GRP_STAT_STATE g == 2 && d.get Bar.RKS_GRP_UP_EP g == f.srcEp &&
    d.get Bar.RKS_GRP_UP_GROUP g == f.w5 % 4096 && d.get Bar.RKS_GRP_STAT_ROUND g == f.w6 >>> 16 % 65536

/-- The internal port that a frame delivered to the device goes to: the cluster of its tag, COPY_REF, program or
group, else the memory-side port of the home or unit it addresses (R67, R88, R96, R184, R224). `die` is where it
arrived, used when nothing else decides. -/
def Dev.localPort (d : Dev) (die : Nat) (f : Frame) : TPort :=
  let byTag : TPort :=
    if f.tag < 32768 then .cluster (f.tag / 2048)
    else if f.tag / 4096 % 8 = 2 || f.tag / 4096 % 8 = 4 then .memSide 1 else .memSide 0
  if f.type = Ty.readResp || f.type = Ty.writeAck || f.type = Ty.snoopResp || f.type = Ty.nak ||
      (f.type = Ty.copyData && Frame.copyFlag f) then byTag
  else if f.type = Ty.evictNotice then .cluster (f.w7 / 2 ^ 28 % 16)
  else if f.type = Ty.invoke then .cluster (d.invokeCluster f)
  else if f.type = Ty.reducePart then
    .cluster (d.get Bar.RKS_GRP_HOME_CLUSTER (if f.w5 < 2 ^ 31 then f.w5 % 4096 else (d.waitingGroup f).getD 0))
  else if f.type = Ty.read || f.type = Ty.write || f.type = Ty.atomic || f.type = Ty.copyData ||
      f.type = Ty.snoop || f.type = Ty.writeback || f.type = Ty.lend then
    .memSide ((d.homeDie (Frame.addr f)).getD die)
  else .memSide 0

end Sys2Proof.Machine
end

