-- ==== Sys2Proof/Machine/Trellis.lean ====
section
/-! DEFINITION. The Trellis of each die: cells, credits, push-out, notices, admission, tails and egress scheduling
(chapter 5, with R57, R70, R73, R91 and R112). Tokens are held in units of 1/400 byte, so that every rate of R114 and
R116 is exact. -/

namespace Sys2Proof.Machine

/-! ## Access to a Trellis -/

def emptyTrellis : Trellis :=
  { held := [], nextId := 0, retired := [], partner := [], advert := [], withheld := 0, deficit := [], round := [],
    turn := [], guar := [], guarNs := [], shaper := [], shaperNs := [], police := [], policeNs := [], overRem := [], rxCells := [],
    notices := [], noteSeq := 0 }

def Dev.trel (d : Dev) (die : Nat) : Trellis := kvGetD d.trl die emptyTrellis

def Dev.setTrel (d : Dev) (die : Nat) (t : Trellis) : Dev := { d with trl := kvPut d.trl die t }

/-- The number of a queue (egress or ingress port, class). -/
def qCode (p : TPort) (c : Nat) : Nat := 8 * portCode p + c

def isFabric : TPort → Bool
  | .fabric _ => true
  | _ => false

/-- The leader lane of a fabric port. -/
def fabricLane : TPort → Nat
  | .fabric l => l
  | _ => 0

/-! ## Ports as the Trellis sees them -/

def Dev.portState (d : Dev) (p : Nat) : Nat := d.get Bar.LNK_PORT_STATUS_STATE p

/-- Lanes that a port covers in the layout in force, as a WIDTH code (R45, R46). -/
def Dev.layoutWidth (d : Dev) (p : Nat) : Nat :=
  let rec go (n : Nat) : Nat → Nat
    | 0 => n
    | fuel + 1 =>
      if n < 8 ∧ p + n < 192 ∧ (p + n) % 8 ≠ 0 ∧ d.flag Bar.LNK_PORT_CFG_ROLE (p + n) then go (n + 1) fuel else n
  go 1 8

/-- A lane that leads a port in the layout in force. -/
def Dev.isLeader (d : Dev) (p : Nat) : Bool := p < 192 && !d.flag Bar.LNK_PORT_CFG_ROLE p

/-- Lanes of agreed width. -/
def Dev.upLanes (d : Dev) (p : Nat) : Nat := 2 ^ d.get Bar.LNK_PORT_STATUS_WIDTH_UP p

/-- Rate of a port in B/ns (R96). -/
def Dev.portRate (d : Dev) : TPort → Nat
  | .fabric l => 50 * d.upLanes l
  | .bridge _ => 1000
  | .cluster _ => 150
  | .memSide _ => 900

/-- The per-lane lossless limit of a port and class. -/
def llField (c : Nat) : Fld :=
  if c = 4 then Bar.TRL_PORT_LL_TC4 else if c = 5 then Bar.TRL_PORT_LL_TC5
  else if c = 6 then Bar.TRL_PORT_LL_TC6 else Bar.TRL_PORT_LL_TC7

/-- The per-lane evictable credit of a port and class. -/
def evField (c : Nat) : Fld :=
  if c = 0 then Bar.TRL_PORT_EV_TC0 else if c = 1 then Bar.TRL_PORT_EV_TC1
  else if c = 2 then Bar.TRL_PORT_EV_TC2 else Bar.TRL_PORT_EV_TC3

def Dev.creditPerLane (d : Dev) (p c : Nat) : Nat :=
  if c < 4 then d.get (evField c) p else d.get (llField c) p

/-! ## Cell counts (R99, R101, R117) -/

/-- ll_budget of a die (R101). -/
def Dev.llBudget (d : Dev) (die : Nat) : Nat := d.get Bar.TRL_CELLS_USABLE die - d.get Bar.TRL_CFG_EVICT_FLOOR

/-- Cells of the frames that a test selects. -/
def heldCells (hs : List Held) (p : Held → Bool) : Nat := ((hs.filter p).map Held.cells).sum

/-- Lossless cells occupied plus lossless credit advertised and unused (TRL_LL_STATUS.COMMITTED). -/
def Dev.committed (d : Dev) (die : Nat) : Nat :=
  let t := d.trel die
  heldCells t.held (fun h => 4 ≤ h.f.cls) + ((t.advert.filter fun e => 4 ≤ e.1 % 8).map Prod.snd).sum

/-- The sum of the lossless limits of the die's fabric ports and internal ports (R101). -/
def Dev.llLimits (d : Dev) (die : Nat) : Nat :=
  20480 + (((List.range 96).map (· + 96 * die)).filter d.isLeader).foldl (fun n p =>
    n + d.layoutWidth p * ([4, 5, 6, 7].foldl (fun m c => m + d.get (llField c) p) 0)) 0

/-- Cells of a port's frames in the die, by ingress and by egress; the memory-side port's include the notice cells
(R109). -/
def Dev.inCells (d : Dev) (p : TPort) : Nat :=
  heldCells (d.trel (portDie p)).held (fun h => h.ingress == p) +
    (match p with
      | .memSide x => (d.trel x).notices.length
      | _ => 0)
def Dev.outCells (d : Dev) (p : TPort) : Nat :=
  heldCells (d.trel (portDie p)).held fun h => h.targets.contains p || h.started.contains p

/-- Cells of one egress queue. -/
def queueCells (t : Trellis) (p : TPort) (c : Nat) : Nat :=
  heldCells t.held fun h => h.f.cls == c && (h.targets.contains p || h.started.contains p)

/-- Evictable or lossless cells of an allotment in a die (QOS_ALT_CNT). -/
def Dev.altCells (d : Dev) (die a : Nat) (ll : Bool) : Nat :=
  heldCells (d.trel die).held fun h => h.f.allot == a && (decide (4 ≤ h.f.cls) == ll)

/-- The peaks of a fabric port follow its occupancy. -/
def Dev.peaks (d : Dev) (p : TPort) : Dev :=
  match p with
  | .fabric l =>
    (d.set Bar.TRL_PORT_PEAK_IN_PEAK (max (d.get Bar.TRL_PORT_PEAK_IN_PEAK l) (d.inCells p)) l).set
      Bar.TRL_PORT_PEAK_OUT_PEAK (max (d.get Bar.TRL_PORT_PEAK_OUT_PEAK l) (d.outCells p)) l
  | _ => d

/-! ## Credits (R102, R105) -/

/-- Cells of credit go back to a port and class; lossless credit is withheld while advertised and held exceed
ll_budget (R105). A port that is not ACTIVE has no credit out, so none goes back to it (R510), and internal ports hold a
handshake instead of credit. -/
def Dev.returnCredit (d : Dev) (p : TPort) (c k : Nat) : Dev :=
  match p with
  | .fabric l =>
    if d.portState l = 5 then
      let die := portDie p
      let beyond := if c < 4 then 0 else min k (d.committed die + k - d.llBudget die)
      let t := d.trel die
      let t1 : Trellis := { t with
        advert := kvPut t.advert (qCode p c) (kvGetD t.advert (qCode p c) 0 + (k - beyond))
        withheld := t.withheld + beyond }
      if k = beyond then d.setTrel die t1 else (d.setTrel die t1).emit (.creditReturn l c (k - beyond))
    else d
  | _ => d

/-- A notice of a cell has been sent or dropped; the cell is freed with the last notice in it (R109). -/
def Dev.noteDone (d : Dev) (die c : Nat) : Dev :=
  let t := d.trel die
  let n := kvGetD t.notices c 0
  if n ≤ 1 then (d.setTrel die { t with notices := kvDel t.notices c }).bump Bar.TRL_CELLS_FREE 1 die
  else d.setTrel die { t with notices := kvPut t.notices c (n - 1) }

/-- A held frame leaves the buffer: its cells become free, but for cells retired without a spare, and its credit
returns to its ingress port and class (R17, R102). DESIGN CHOICE (log entry 64): credits are set afresh at step 7, so a
frame admitted before its port's last step 7 returns none. -/
def Dev.freeHeld (d : Dev) (die : Nat) (h : Held) : Dev :=
  let t := d.trel die
  let lost := (t.retired.filter fun r => r.1 == h.id && !r.2).length
  let d1 := d.setTrel die { t with
    held := t.held.filter (fun x => x.id != h.id)
    retired := t.retired.filter (fun r => r.1 != h.id) }
  let d2 := d1.bump Bar.TRL_CELLS_FREE (h.cells - lost) die
  let d3 := match h.note with
    | some c => d2.noteDone die c
    | none => d2
  if h.credited then d3.returnCredit h.ingress h.f.cls h.cells else d3

/-! ## Queues -/

/-- The head of an egress queue. -/
def queueHead (t : Trellis) (p : TPort) (c : Nat) : Option Held :=
  t.held.find? fun h => h.f.cls == c && h.targets.contains p

/-- A queue that empties, by whatever cause, loses its deficit and its place in the round (R115). -/
def Dev.settleQueue (d : Dev) (p : TPort) (c : Nat) : Dev :=
  let t := d.trel (portDie p)
  match queueHead t p c with
  | some _ => d
  | none => if c < 4 then d.setTrel (portDie p) { t with
      deficit := kvPut t.deficit (qCode p c) 0
      round := kvPut t.round (portCode p) ((kvGetD t.round (portCode p) []).filter (· != c))
      turn := if (kvGetD t.round (portCode p) []).head? = some c then kvPut t.turn (portCode p) false else t.turn }
    else d

/-- Join the round of a port when its evictable queue becomes non-empty (R115). -/
def Trellis.joinRound (t : Trellis) (p : TPort) (c : Nat) : Trellis :=
  let r := kvGetD t.round (portCode p) []
  if c < 4 ∧ ¬ r.contains c then { t with round := kvPut t.round (portCode p) (r ++ [c]) } else t

/-- Step 6: the frame takes its cells and a number and joins the tail of its queues. -/
def Dev.enqueue (d : Dev) (die : Nat) (h : Held) : Dev :=
  let t := d.trel die
  let t1 := h.targets.foldl (fun t p => t.joinRound p h.f.cls) { t with
    held := t.held ++ [{ h with id := t.nextId }], nextId := t.nextId + 1 }
  let d1 := (d.setTrel die t1).drop Bar.TRL_CELLS_FREE h.cells die
  (h.ingress :: h.targets).foldl Dev.peaks d1

/-! ## Tokens (R114, R116) -/

/-- Refill a bucket, in units of 1/400 byte: a missing bucket is full. -/
def refill (burst rate now : Nat) (tok : Option Int) (since : Nat) : Int :=
  match tok with
  | none => Int.ofNat burst
  | some t => min (Int.ofNat burst) (t + Int.ofNat (rate * (now - since)))

/-- The ingress policer of step 3 (R116): whether the frame passes. A RATE of 0 turns it off. -/
def Dev.police (d : Dev) (die : Nat) (f : Frame) : Bool × Dev :=
  let a := f.allot
  let rate := d.get Bar.QOS_POLICE_RATE die a
  if rate = 0 then (true, d)
  else
    let burst := 400 * d.get Bar.QOS_POLICE_BURST die a
    let t := d.trel die
    let tok := refill burst (50 * rate) d.now (kvGet? t.police a) (kvGetD t.policeNs a d.now)
    let spent := max (-(Int.ofNat burst)) (tok - Int.ofNat (400 * Frame.bytes f))
    let put := fun (x : Int) (rem : Nat) => d.setTrel die { t with
      police := kvPut t.police a x, policeNs := kvPut t.policeNs a d.now, overRem := kvPut t.overRem a rem }
    let rem := kvGetD t.overRem a 0
    if 0 < tok then (true, put spent rem)
    else if f.cls < 4 then (false, (put tok rem).bump Bar.QOS_ALT_CNT_POLICED 1 die a)
    else
      let tot := rem + Frame.bytes f
      (true, (put spent (tot % 1024)).bump Bar.QOS_ALT_CNT_OVER_KIB (tot / 1024) die a)

/-- A policer's tokens up to now, kept for a write of its rate or burst (R115, R116). -/
def Dev.settlePolice (d : Dev) (die a : Nat) : Dev :=
  let t := d.trel die
  d.setTrel die { t with
    police := kvPut t.police a (refill (400 * d.get Bar.QOS_POLICE_BURST die a) (50 * d.get Bar.QOS_POLICE_RATE die a)
      d.now (kvGet? t.police a) (kvGetD t.policeNs a d.now))
    policeNs := kvPut t.policeNs a d.now }

/-- A policer starts full when its allotment is created and after an allotment reset (R116). -/
def Dev.fillPolice (d : Dev) (a : Nat) : Dev :=
  [0, 1].foldl (fun d die =>
    let t := d.trel die
    d.setTrel die { t with
      police := kvPut t.police a (Int.ofNat (400 * d.get Bar.QOS_POLICE_BURST die a)), policeNs := kvPut t.policeNs a d.now }) d

/-- POLICED is notified at most once in a millisecond of the time base (R389). -/
def Dev.notePoliced (d : Dev) (die a : Nat) : Dev :=
  if (d.allotSt a).policedMs = some (d.now / 1000000) then d
  else (d.setAllot a { d.allotSt a with policedMs := some (d.now / 1000000) }).notify a 0x08 die

/-- Both origin shapers of an allotment up to now, kept for a write of a rate or burst (R115, R399). -/
def Dev.settleOrigin (d : Dev) (a : Nat) : Dev :=
  let x := d.allotSt a
  let tok (die : Nat) (old : Int) : Int :=
    refill (400 * d.get Bar.ALT_SHAPE_BURST die a) (50 * d.get Bar.ALT_SHAPE_RATE die a) d.now (some old) x.shapeNs
  d.setAllot a { x with shape0 := tok 0 x.shape0, shape1 := tok 1 x.shape1, shapeNs := d.now }

/-- The origin shaper of a cluster port's frames (R399): whether the frame may be issued now. It counts the requests of
programs and engines, not mirror pushes, RESULTs, NOTIFYs or answers. -/
def Dev.shapeOrigin (d : Dev) (die : Nat) (f : Frame) : Bool × Dev :=
  let a := f.allot
  let rate := d.get Bar.ALT_SHAPE_RATE die a
  if rate = 0 ∨ !isRequest f ∨ (f.type = Ty.write ∧ Frame.sess f) then (true, d)
  else
    let burst := 400 * d.get Bar.ALT_SHAPE_BURST die a
    let x := d.allotSt a
    let old := if die = 0 then x.shape0 else x.shape1
    let tok := refill burst (50 * rate) d.now (some old) x.shapeNs
    if 0 < tok then
      let left := max (-(Int.ofNat burst)) (tok - Int.ofNat (400 * Frame.bytes f))
      let other := refill (400 * d.get Bar.ALT_SHAPE_BURST (1 - die) a) (50 * d.get Bar.ALT_SHAPE_RATE (1 - die) a)
        d.now (some (if die = 0 then x.shape1 else x.shape0)) x.shapeNs
      (true, d.setAllot a { x with
        shape0 := if die = 0 then left else other, shape1 := if die = 0 then other else left, shapeNs := d.now })
    else (false, d)

/-! ## Routing (R91, R112, R513) -/

/-- What route lookup finds: the egress ports, with what a copy that crosses the bridge is for (whether the other die
replicates it by its own entry, and the local port of that die it goes to), no way to go, or a frame that is dropped. -/
inductive Route where
  | to (ports : List TPort) (repl : Bool) (loc : Option TPort)
  | none
  | dropped
deriving DecidableEq, Repr

/-- A fabric port that takes no frame at all: FAILED, DISABLED or in HOLD (R91, R112). -/
def Dev.portDead (d : Dev) (p : Nat) : Bool :=
  let s := d.portState p
  s == 0 || s == 7 || s == 8

/-- The ACTIVE fabric ports of a die whose partner is an OVK package (LOAD_TYPE 2). -/
def Dev.packagePorts (d : Dev) (die : Nat) : List TPort :=
  (((List.range 96).map (· + 96 * die)).filter fun p =>
    d.isLeader p && d.portState p == 5 && d.get Bar.LNK_PORT_STATUS_LOAD_TYPE p == 2).map TPort.fabric

/-- The fabric port at which the path of the route table leaves the package, from a die. -/
def Dev.pathPort (d : Dev) (die ep : Nat) : Option Nat :=
  if d.flag Bar.TRL_ROUTE_VALID die ep then
    if d.flag Bar.TRL_ROUTE_BRIDGE die ep then
      (if d.flag Bar.TRL_ROUTE_VALID (1 - die) ep && !d.flag Bar.TRL_ROUTE_BRIDGE (1 - die) ep then
        some (d.get Bar.TRL_ROUTE_PORT (1 - die) ep) else none)
    else some (d.get Bar.TRL_ROUTE_PORT die ep)
  else none

/-- A HEARTBEAT or EPOCH frame of this package whose path's egress port is not ACTIVE (R433). Its frames leave from
die 0. -/
def Dev.strayMember (d : Dev) (ingress : TPort) (f : Frame) : Bool :=
  !isFabric ingress && (f.type == Ty.heartbeat || f.type == Ty.epoch) && f.srcEp == d.myEp && f.dstEp != d.myEp &&
  match d.pathPort 0 f.dstEp with
    | some p => !(d.isLeader p && d.portState p == 5)
    | none => true

/-- The group entry of a die admits a multicast frame (R112). -/
def Dev.mcastValid (d : Dev) (die : Nat) (f : Frame) : Bool :=
  d.flag Bar.TRL_MCAST_VALID die (f.dstEp % 4096) && d.get Bar.TRL_MCAST_OWNER die (f.dstEp % 4096) == f.allot

/-- The fabric ports that a die's group entry names; none that is FAILED, DISABLED or in HOLD (R112). -/
def Dev.mcastFabric (d : Dev) (die : Nat) (f : Frame) : List TPort :=
  let ports := d.get Bar.TRL_MCAST_PORTS die (f.dstEp % 4096)
  ((List.range 96).filter fun i =>
    ports.testBit i && d.isLeader (96 * die + i) && !d.portDead (96 * die + i)).map fun i => TPort.fabric (96 * die + i)

/-- The local port that a die's group entry delivers to. -/
def Dev.mcastLocal (d : Dev) (die : Nat) (f : Frame) : Option TPort :=
  if d.flag Bar.TRL_MCAST_LOCAL die (f.dstEp % 4096) then some (d.localPort die f) else none

/-- The queues of a multicast frame that enters the package at a die (R112). A local copy for a unit of the other die
crosses the bridge for that unit alone. -/
def Dev.mcastRoute (d : Dev) (ingress : TPort) (f : Frame) : Route :=
  let die := portDie ingress
  if d.mcastValid die f then
    let loc := d.mcastLocal die f
    let far := loc.filter fun p => portDie p != die
    let repl := d.flag Bar.TRL_MCAST_BRIDGE die (f.dstEp % 4096)
    .to ((d.mcastFabric die f ++ (loc.filter fun p => portDie p == die).toList ++
      (if repl || far.isSome then [TPort.bridge die] else [])).eraseDups.filter (· != ingress)) repl far
  else .dropped

/-- The queues of a multicast frame that has crossed the bridge: the other die's own entry replicates it, never back over
the bridge, and a local copy goes to its unit (R112). -/
def Dev.mcastCrossed (d : Dev) (die : Nat) (f : Frame) (repl : Bool) (loc : Option TPort) : Route :=
  if repl then
    if d.mcastValid die f then
      .to (d.mcastFabric die f ++ ((d.mcastLocal die f).filter fun p => portDie p == die).toList ++ loc.toList).eraseDups
        false none
    else if loc.isSome then .to loc.toList false none
    else .dropped
  else .to loc.toList false none

/-- Route lookup of step 2 (R112, R513). -/
def Dev.route (d : Dev) (ingress : TPort) (f : Frame) : Route :=
  let die := portDie ingress
  let fromBridge := match ingress with
    | .bridge _ => true
    | _ => false
  let one (p : TPort) : Route := .to [p] false none
  if d.strayMember ingress f then
    .to (d.packagePorts die ++ (if fromBridge || (d.packagePorts (1 - die)).isEmpty then [] else [TPort.bridge die]))
      false none
  else if Frame.mcast f then d.mcastRoute ingress f
  else if f.dstEp = d.myEp then
    let p := d.localPort die f
    one (if portDie p = die then p else .bridge die)
  else if d.flag Bar.TRL_ROUTE_VALID die f.dstEp then
    if d.flag Bar.TRL_ROUTE_BRIDGE die f.dstEp then
      if fromBridge then .none else one (.bridge die)
    else
      let p := d.get Bar.TRL_ROUTE_PORT die f.dstEp
      if d.isLeader p && !d.portDead p then one (.fabric p) else .none
  else .none

/-- A frame is for this device: by its DST_EP, or as a member of its multicast group (R66, R76). -/
def Dev.addressed (d : Dev) (die : Nat) (f : Frame) : Bool :=
  if Frame.mcast f then d.mcastValid die f && d.flag Bar.TRL_MCAST_LOCAL die (f.dstEp % 4096) else f.dstEp == d.myEp

/-- The answer on a target's behalf when a request has no way to go (R91): what the target would have sent, with the
error value and status TIMEOUT. -/
def Dev.noRoute (d : Dev) (die : Nat) (f : Frame) : Dev :=
  let reply (r : Frame) : Dev := d.send (.memSide die) { r with srcEp := f.dstEp }
  if f.type = Ty.read then
    let bs := List.replicate (min 4096 (f.w7 % 8192)) 0xFF
    if Frame.copyFlag f then
      reply (d.answer f Ty.copyData (f.w7 / 8192 % 4) Code.timeout 33 (f.w7 / 65536 * 65536) bs)
    else reply (d.answer f Ty.readResp 5 Code.timeout 1 0 bs)
  else if f.type = Ty.atomic then
    reply (d.answer f Ty.readResp 5 Code.timeout 1 0 (List.replicate (min 16 (4 * 2 ^ (f.w5 / 2 ^ 26 % 4))) 0xFF))
  else if f.type = Ty.write ∨ f.type = Ty.lend then reply (d.answer f Ty.writeAck 5 Code.timeout 0 0 [])
  else d.bump Bar.LNK_MFP_DROP_MALFORMED 1

/-! ## Push-out and notices (R88, R104, R106-R109) -/

/-- The endpoint that learns of an evicted frame (R88). -/
def evictTarget (f : Frame) : Nat := if f.type = Ty.copyData ∧ Frame.copyFlag f then f.dstEp else f.srcEp

/-- The EVICT_NOTICE of a frame (R72, R109). -/
def Dev.evictFrame (d : Dev) (f : Frame) : Frame :=
  { d.newFrame Ty.evictNotice 7 f.allot (evictTarget f) f.tag Code.pushed 0 (f.w5 % 2 ^ 24) f.w6
      ((f.w7 / 65536) * 65536 + f.len % 8192) [] with len := 0 }

/-- A held frame, as it is before it has a number and anything has been sent of it. -/
def newHeld (ingress : TPort) (f : Frame) (cells : Nat) (targets : List TPort) (complete : Bool) : Held :=
  { id := 0, f := f, ingress := ingress, origin := ingress, cells := cells, targets := targets, started := [], sent := false,
    complete := complete, bad := f.badTail, credited := isFabric ingress, note := none, repl := false, loc := none,
    waits := false, link := none }

/-- A frame that push-out may take: evictable, and no copy of it has started at any egress port. -/
def candidate (h : Held) : Bool := decide (h.f.cls < 4) && !h.sent

/-- The evictable egress queues that hold a candidate, with their cells; the arriving frame counts in its own. -/
def evQueues (t : Trellis) (arr : Held) : List (TPort × Nat × Nat) :=
  let ps := (t.held.filter candidate).flatMap fun h => h.targets.map fun p => (p, h.f.cls)
  ps.eraseDups.map fun q =>
    (q.1, q.2, queueCells t q.1 q.2 +
      (if decide (arr.f.cls = q.2) && arr.targets.contains q.1 then arr.cells else 0))

/-- The longest of the queues; among equals the choice is not defined (R106). -/
def pickLongest (qs : List (TPort × Nat × Nat)) (choice : Nat) : Option (TPort × Nat × Nat) :=
  let best := listBest qs
  let ties := qs.filter fun q => q.2.2 == best
  ties[choice % ties.length]?
where
  listBest (qs : List (TPort × Nat × Nat)) : Nat := qs.foldl (fun m q => max m q.2.2) 0

/-- The candidate nearest the tail of a queue. -/
def tailCandidate (t : Trellis) (p : TPort) (c : Nat) : Option Held :=
  (t.held.filter fun h => candidate h && h.f.cls == c && h.targets.contains p).getLast?

/-- The queues among which the longest is sought: those that hold a candidate, and an evictable frame's own (R106,
R107). -/
def rivalQueues (t : Trellis) (arr : Held) : List (TPort × Nat × Nat) :=
  let own := arr.targets.map fun p => (p, arr.f.cls, queueCells t p arr.f.cls + arr.cells)
  let others := (evQueues t arr).filter fun q => !(q.2.1 == arr.f.cls && arr.targets.contains q.1)
  if arr.f.cls < 4 then others ++ own else evQueues t arr

/-- An arriving evictable frame has no candidate to push out outside its own queues, or none of its allotment in the
die (R107). -/
def noVictims (t : Trellis) (arr : Held) : Bool :=
  let cands := t.held.filter candidate
  cands.all (fun h => h.f.cls == arr.f.cls && h.targets.all arr.targets.contains) ||
    !(cands.any fun h => h.f.allot == arr.f.allot)

/-- The victim of one choice of R106, with R107 applied before it: none when the arriving frame is refused. A tie between
the arriving frame's own queue and another is decided like every tie, by a free value. -/
def victim (t : Trellis) (arr : Held) (choice : Nat) : Option Held :=
  if decide (arr.f.cls < 4) && noVictims t arr then none
  else match pickLongest (rivalQueues t arr) choice with
    | none => none
    | some q =>
      if decide (arr.f.cls < 4) && (q.2.1 == arr.f.cls && arr.targets.contains q.1) then none
      else tailCandidate t q.1 q.2.1

/-- A victim leaves the buffer: out of all its queues, counted per queue (R106). -/
def Dev.evict (d : Dev) (die : Nat) (v : Held) : Dev :=
  let d1 := v.targets.foldl (fun d p => match p with
    | .fabric l => d.bump Bar.TRL_QCNT_PUSHED 1 l v.f.cls
    | _ => d) d
  v.targets.foldl (fun d p => d.settleQueue p v.f.cls) (d1.freeHeld die v)

/-- A place for one more notice: its cell, in the cell that is being filled or in a new one. A die has 1,024 notice cells
with 8 notices each (R109). -/
def Dev.noteCell (d : Dev) (die : Nat) : Option (Nat × Dev) :=
  let t := d.trel die
  let c := t.noteSeq / 8
  if t.noteSeq % 8 ≠ 0 ∧ (kvGet? t.notices c).isSome then
    some (c, d.setTrel die { t with
      notices := kvPut t.notices c (kvGetD t.notices c 0 + 1), noteSeq := t.noteSeq + 1 })
  else if t.notices.length < 1024 ∧ d.get Bar.TRL_CELLS_FREE die ≠ 0 then
    let c1 := (t.noteSeq + 7) / 8
    some (c1, (d.setTrel die { t with notices := kvPut t.notices c1 1, noteSeq := 8 * c1 + 1 }).drop
      Bar.TRL_CELLS_FREE 1 die)
  else none

/-- Write a notice into a notice cell and queue it in TC7 from the memory-side port; without a place it is lost. -/
def Dev.putNotice (d : Dev) (die : Nat) (n : Frame) : Dev :=
  match d.noteCell die with
  | none => d.bump Bar.TRL_BAD_NOTICE_LOST 1 die
  | some (c, d1) =>
    match d1.route (.memSide die) n with
    | .to (p :: ps) _ _ => d1.enqueue die { newHeld (.memSide die) n 0 (p :: ps) true with note := some c }
    | .to [] _ _ => d1.noteDone die c
    | _ => (d1.bump Bar.LNK_MFP_DROP_MALFORMED 1).noteDone die c

/-- One notice for a pushed-out or refused frame: to a copy engine of this package directly, else through a notice
cell (R109). -/
def Dev.tellSource (d : Dev) (die : Nat) (f : Frame) : Dev :=
  let n := d.evictFrame f
  if n.dstEp = d.myEp then { d with inbox := d.inbox ++ [(d.localPort die n, n, .memSide die)] } else d.putNotice die n

/-- The same, when the notice may first need a cell: a new notice cell is found like any cell, by push-out under R106
when none is free. DESIGN CHOICE (log entry 65): with no candidate left the notice is lost. -/
def Dev.notice (d : Dev) (die : Nat) (f : Frame) : Dev :=
  if (d.noteCell die).isNone ∧ (d.trel die).notices.length < 1024 ∧ evictTarget f ≠ d.myEp then
    let r := d.fresh
    match victim (d.trel die) (newHeld (.memSide die) (d.evictFrame f) 1 [] true) r.1 with
    | some v => ((r.2.evict die v).tellSource die f).tellSource die v.f
    | none => r.2.tellSource die f
  else d.tellSource die f

/-- Push a victim out of the buffer, and tell its source (R106, R109). -/
def Dev.pushOut (d : Dev) (die : Nat) (v : Held) : Dev := (d.evict die v).notice die v.f

/-- Find cells for an arriving frame, pushing out evictable frames when too few are free. False when it is refused. -/
def Dev.makeRoom (d : Dev) (die : Nat) (arr : Held) : Nat → Bool × Dev
  | 0 => (false, d)
  | fuel + 1 =>
    if arr.cells ≤ d.get Bar.TRL_CELLS_FREE die then (true, d)
    else
      let r := d.fresh
      match victim (d.trel die) arr r.1 with
      | none => (false, r.2)
      | some v => (r.2.pushOut die v).makeRoom die arr fuel

/-! ## Admission (R100) -/

/-- The EPOCH_STALE answer, at most one per source endpoint in any 250 µs (R76). -/
def Dev.staleNak (d : Dev) (port : TPort) (f : Frame) : Dev :=
  match kvGet? d.mbr.staleNak f.srcEp with
  | some t => if d.now < t + 250000 then d else go d
  | none => go d
where
  go (d : Dev) : Dev :=
    let d1 : Dev := { d with mbr := { d.mbr with staleNak := kvPut d.mbr.staleNak f.srcEp d.now } }
    (d1.countNak Code.epochStale).sendPlain port (d1.answer f Ty.nak 7 Code.epochStale 0 (f.type <<< 27) [])

/-- An evictable frame is refused: it is treated as pushed out (R108). -/
def Dev.refuse (d : Dev) (die : Nat) (h : Held) : Dev :=
  let d1 := h.targets.foldl (fun d p => match p with
    | .fabric l => d.bump Bar.TRL_QCNT_PUSHED 1 l h.f.cls
    | _ => d) d
  (d1.returnCredit h.ingress h.f.cls h.cells).notice die h.f

/-- Step 5 and 6: cells, then the queues. -/
def Dev.takeCells (d : Dev) (die : Nat) (h : Held) : Dev :=
  let m := d.makeRoom die h ((d.trel die).held.length + 1)
  if m.1 then m.2.enqueue die h
  else if h.f.cls < 4 then m.2.refuse die h
  else ((m.2.bump Bar.TRL_BAD_LL_REFUSED 1 die).alm1 Blk.trl 0x02 die h.f.allot 0
    (m.2.word Bar.TRL_CELLS die)).returnCredit h.ingress h.f.cls h.cells

/-- Steps 3 to 6 of admission. -/
def Dev.takeIn (d : Dev) (h : Held) : Dev :=
  let die := portDie h.ingress
  let a := h.f.allot
  let r := if isFabric h.ingress then d.police die h.f else (true, d)
  if !r.1 then (r.2.notePoliced die a).refuse die h
  else
    let d1 := if r.2.word Bar.QOS_ALT_CNT die a != d.word Bar.QOS_ALT_CNT die a then r.2.notePoliced die a else r.2
    if h.f.cls < 4 && decide (d1.get Bar.QOS_ALT_SHARE_EV_SHARE die a < d1.altCells die a false + h.cells) then
      d1.refuse die h
    else d1.takeCells die h

/-- Steps 1 and 2 of admission: the membership epoch check, then the route (R73, R75, R91, R112). `way` replaces route
lookup for a multicast frame that has crossed the bridge. -/
def Dev.admitHeader (d : Dev) (ingress : TPort) (f : Frame) (complete : Bool) (way : Option Route := none)
    (origin : Option TPort := none) : Dev :=
  let die := portDie ingress
  let k := Frame.cells f
  if f.type != Ty.epoch && older f.mbrEpoch d.mbrEpoch then
    let d1 := (d.bump Bar.LNK_MFP_DROP_STALE_MBR 1).returnCredit ingress f.cls k
    if d.addressed die f then d1.staleNak (.memSide die) f else d1
  else match way.getD (d.route ingress f) with
    | .dropped => (d.bump Bar.LNK_MFP_DROP_MALFORMED 1).returnCredit ingress f.cls k
    | .none => (d.noRoute die f).returnCredit ingress f.cls k
    | .to [] _ _ => d.returnCredit ingress f.cls k
    | .to (p :: ps) repl loc =>
      d.takeIn { newHeld ingress f k (p :: ps) complete with origin := origin.getD ingress, repl := repl, loc := loc }

/-! ## Tails and delivery (R71, R110, R111) -/

/-- A copy reaches the port it was queued for: it leaves the package or is delivered to the unit the port feeds, which
knows the port by which it came (R34). -/
def Dev.deliver (d : Dev) (p : TPort) (f : Frame) (origin : TPort) : Dev :=
  match p with
  | .fabric _ => d.emit (.frame p f)
  | .bridge _ => d
  | _ => { d with inbox := d.inbox ++ [(p, f, origin)] }

/-- The frame of a held entry as it is sent on, with its tail mark. -/
def heldFrame (h : Held) : Frame := { h.f with badTail := h.f.badTail || h.bad }

def Dev.modHeld (d : Dev) (die id : Nat) (g : Held → Held) : Dev :=
  let t := d.trel die
  d.setTrel die { t with held := t.held.map fun x => if x.id == id then g x else x }

/-- The cells of a frame are freed after its last copy has been sent (R102). -/
def Dev.settleHeld (d : Dev) (die id : Nat) : Dev :=
  match (d.trel die).held.find? (fun h => h.id == id) with
  | some h => if h.targets.isEmpty && h.started.isEmpty then d.freeHeld die h else d
  | none => d

/-- Mark a held frame bad at its tail and count it (R111); a frame without a payload is never marked. -/
def Dev.markBad (d : Dev) (die id : Nat) : Dev :=
  match (d.trel die).held.find? (fun h => h.id == id) with
  | none => d
  | some h =>
    if h.bad || h.f.len == 0 then d
    else (d.modHeld die id fun x => { x with bad := true }).bump Bar.TRL_BAD_TAIL_MARKED 1 die

/-- The tail of a frame is written in one die: copies that have started there end, one that crosses the bridge once its
header has been taken on the other die. -/
def Dev.tailHere (d : Dev) (die id : Nat) (payload : List Byte) (bad : Bool) : Dev :=
  match (d.trel die).held.find? (fun h => h.id == id && !h.complete) with
  | none => d
  | some h0 =>
    let h : Held := { h0 with
      f := { h0.f with payload := payload }, complete := true, bad := h0.bad || bad
      started := if h0.waits then [.bridge die] else [], link := none }
    let d1 := d.modHeld die id fun _ => h
    ((h0.started.foldl (fun d p => d.deliver p (heldFrame h) h.origin) d1)).settleHeld die id

/-- The tail of a held frame arrives: damage or a wrong length marks it bad (R111), and the frame ends here and, where it
crosses the bridge, in the other die. -/
def Dev.tailArrives (d : Dev) (die id : Nat) (payload : List Byte) (damaged : Bool) : Dev :=
  match (d.trel die).held.find? (fun h => h.id == id && !h.complete) with
  | none => d
  | some h =>
    let wrong := damaged || payload.length != h.f.len
    let d1 := (if wrong then d.markBad die id else d).tailHere die id payload wrong
    match h.link with
    | some j => d1.tailHere (1 - die) j payload (wrong || h.bad)
    | none => d1

/-! ## The bridge (R97, R98, R110) -/

/-- A frame that the other die's bridge port offers is admitted here, and its copy there ends with it or with its tail:
the sender's cells are kept until then (R102). -/
def Dev.bridgeArrival (d : Dev) (y : Nat) (f : Frame) : Dev :=
  match (d.trel (1 - y)).held.find? (fun h => h.waits && heldFrame h == f) with
  | none => d
  | some h =>
    let way := if Frame.mcast f && !d.strayMember (.bridge y) f then some (d.mcastCrossed y f h.repl h.loc) else none
    let d1 := d.admitHeader (.bridge y) (heldFrame h) h.complete way (some h.origin)
    if h.complete then
      (d1.modHeld (1 - y) h.id fun x => { x with waits := false, started := [] }).settleHeld (1 - y) h.id
    else
      let j := ((d1.trel y).held.find? fun x => x.ingress == TPort.bridge y && !x.complete).map Held.id
      d1.modHeld (1 - y) h.id fun x => { x with waits := false, link := j }

/-! ## Egress scheduling (R110, R114, R115) -/

/-- A head frame is eligible: its last cell is written, or it may cut through (R110). -/
def Dev.cutOk (d : Dev) (p : TPort) (h : Held) : Bool :=
  h.complete || (d.flag Bar.TRL_CFG_CUT_THROUGH && (!isFabric p || decide (d.portRate p ≤ d.portRate h.ingress)))

/-- Shaper tokens of a queue now; a class without a RATE is not shaped. -/
def Dev.shaperTok (d : Dev) (p : TPort) (c : Nat) : Option Int :=
  match p with
  | .fabric l =>
    let rate := d.get Bar.QOS_SHAPE_RATE l c
    if rate = 0 then none
    else
      let t := d.trel (portDie p)
      some (refill (400 * d.get Bar.QOS_SHAPE_BURST l c) (5 * rate) d.now (kvGet? t.shaper (qCode p c))
        (kvGetD t.shaperNs (qCode p c) d.now))
  | _ => none

/-- EV_MIN_PCT and weights of a port; internal ports take the reset values (R114). -/
def Dev.evMinPct (d : Dev) : TPort → Nat
  | .fabric l => d.get Bar.QOS_SCHED_EV_MIN_PCT l
  | _ => 10

def Dev.weight (d : Dev) (p : TPort) (c : Nat) : Nat :=
  match p with
  | .fabric l =>
    if c = 0 then d.get Bar.QOS_SCHED_W0 l else if c = 1 then d.get Bar.QOS_SCHED_W1 l
    else if c = 2 then d.get Bar.QOS_SCHED_W2 l else d.get Bar.QOS_SCHED_W3 l
  | _ => 1

/-- The evictable guarantee G of a port now (R114). -/
def Dev.guarTok (d : Dev) (p : TPort) : Int :=
  let t := d.trel (portDie p)
  refill (400 * 16576) (4 * d.evMinPct p * d.portRate p) d.now (kvGet? t.guar (portCode p))
    (kvGetD t.guarNs (portCode p) d.now)

/-- The unit that an internal port feeds can take a frame of a class: it holds none of that class untaken, and the other
die's Trellis has room within the bridge port's limit (R101, R114). DESIGN CHOICE (log entry 66) for the units: one frame per class. -/
def Dev.handshake (d : Dev) (p : TPort) (h : Held) : Bool :=
  match p with
  | .fabric _ => true
  | .bridge x => decide (h.f.cls < 4) || decide (Frame.cells h.f + heldCells (d.trel (1 - x)).held
      (fun g => g.ingress == TPort.bridge (1 - x) && g.f.cls == h.f.cls) ≤ 512)
  | _ => !d.inbox.any fun e => e.1 == p && e.2.1.cls == h.f.cls

/-- A port's shaper and guarantee tokens up to now, kept for a write of a rate or burst (R115). -/
def Dev.settleShape (d : Dev) (l c : Nat) : Dev :=
  let p := TPort.fabric l
  let die := portDie p
  let t := d.trel die
  let q := qCode p c
  d.setTrel die { t with
    shaper := kvPut t.shaper q (refill (400 * d.get Bar.QOS_SHAPE_BURST l c) (5 * d.get Bar.QOS_SHAPE_RATE l c) d.now
      (kvGet? t.shaper q) (kvGetD t.shaperNs q d.now))
    shaperNs := kvPut t.shaperNs q d.now }

def Dev.settleGuar (d : Dev) (l : Nat) : Dev :=
  let p := TPort.fabric l
  let t := d.trel (portDie p)
  d.setTrel (portDie p) { t with
    guar := kvPut t.guar (portCode p) (d.guarTok p), guarNs := kvPut t.guarNs (portCode p) d.now }

/-- A queue is eligible (R114): its head may go, the partner's credit or the handshake covers it, its shaper holds
tokens. -/
def Dev.eligible (d : Dev) (p : TPort) (c : Nat) : Bool :=
  let t := d.trel (portDie p)
  match queueHead t p c with
  | none => false
  | some h =>
    d.cutOk p h &&
    (if isFabric p then decide (Frame.cells h.f ≤ kvGetD t.partner (qCode p c) 0) else d.handshake p h) &&
    (match d.shaperTok p c with
      | none => true
      | some x => decide (0 < x))

/-- Deficit round robin (R114, R115): the class to serve and the Trellis with the deficits that choosing it leaves. -/
def Dev.drr (d : Dev) (p : TPort) : Nat → Trellis → Option (Nat × Trellis)
  | 0, _ => none
  | fuel + 1, t =>
    match kvGetD t.round (portCode p) [] with
    | [] => none
    | c :: rest =>
      match queueHead t p c with
      | none => d.drr p fuel { t with
          round := kvPut t.round (portCode p) rest
          turn := kvPut t.turn (portCode p) false
          deficit := kvPut t.deficit (qCode p c) 0 }
      | some h =>
        if !d.eligible p c then
          d.drr p fuel { t with
            round := kvPut t.round (portCode p) (rest ++ [c]), turn := kvPut t.turn (portCode p) false }
        else
          let def0 := kvGetD t.deficit (qCode p c) 0
          let df := if kvGetD t.turn (portCode p) false then def0 else def0 + 256 * d.weight p c
          if Frame.bytes h.f ≤ df then
            some (c, { t with
              deficit := kvPut t.deficit (qCode p c) (df - Frame.bytes h.f)
              turn := kvPut t.turn (portCode p) true })
          else d.drr p fuel { t with
            round := kvPut t.round (portCode p) (rest ++ [c])
            turn := kvPut t.turn (portCode p) false
            deficit := kvPut t.deficit (qCode p c) df }

/-- The class that the scheduler serves next (R114). -/
def Dev.chooseClass (d : Dev) (p : TPort) : Option (Nat × Trellis) :=
  let t := d.trel (portDie p)
  let ev := [0, 1, 2, 3].any (d.eligible p)
  if d.eligible p 7 then some (7, t)
  else if d.eligible p 6 then some (6, t)
  else if d.eligible p 5 then some (5, t)
  else if decide (0 < d.guarTok p) && ev then d.drr p 128 t
  else if d.eligible p 4 then some (4, t)
  else if ev then d.drr p 128 t
  else none

/-- Charge credit, shaper and guarantee for a frame sent, and count it (R103, R114, R117). -/
def Dev.charge (d : Dev) (p : TPort) (h : Held) : Dev :=
  let die := portDie p
  let t := d.trel die
  let q := qCode p h.f.cls
  let b := Int.ofNat (400 * Frame.bytes h.f)
  let floor : Int := -1657600
  let g := if h.f.cls < 4 then max floor (d.guarTok p - b) else d.guarTok p
  let t1 : Trellis := { t with
    guar := kvPut t.guar (portCode p) g
    guarNs := kvPut t.guarNs (portCode p) d.now
    partner := if isFabric p then kvPut t.partner q (kvGetD t.partner q 0 - Frame.cells h.f) else t.partner }
  let t2 : Trellis := match d.shaperTok p h.f.cls with
    | none => t1
    | some x => { t1 with
        shaper := kvPut t1.shaper q (max floor (x - b)), shaperNs := kvPut t1.shaperNs q d.now }
  let d1 := d.setTrel die t2
  match p with
  | .fabric l => (d1.bump Bar.TRL_QCNT_TX_FRAMES 1 l h.f.cls).bump Bar.TRL_QCNT_TX_BYTES (Frame.bytes h.f) l h.f.cls
  | _ => d1

/-- Send one copy of a frame at a port. A copy whose tail is still to come keeps the port until it has come, and one that
crosses the bridge until the other die has taken it (R110). -/
def Dev.sendCopy (d : Dev) (p : TPort) (h : Held) : Dev :=
  let die := portDie p
  let crosses := match p with
    | .bridge _ => true
    | _ => false
  let stays := crosses || !h.complete
  let d1 := (d.charge p h).modHeld die h.id fun x => { x with
    targets := x.targets.filter (· != p), sent := true, waits := x.waits || crosses
    started := if stays then x.started ++ [p] else x.started }
  ((if stays then d1 else d1.deliver p (heldFrame h) h.origin).settleHeld die h.id).settleQueue p h.f.cls

/-- A port can send: no frame it has started is unfinished, and a fabric port is ACTIVE (R60, R91, R110). -/
def Dev.canSend (d : Dev) (p : TPort) : Bool :=
  !((d.trel (portDie p)).held.any fun h => h.started.contains p) &&
  (match p with
    | .fabric l => d.isLeader l && d.portState l == 5
    | _ => true)

/-- The scheduler chooses the next frame of a port and sends it (R114). -/
def Dev.egressSend (d : Dev) (p : TPort) : Dev :=
  if d.canSend p then
    match d.chooseClass p with
    | none => d
    | some (c, t) =>
      let d1 := d.setTrel (portDie p) t
      match queueHead t p c with
      | none => d1
      | some h => d1.sendCopy p h
  else d

def execEgressSend (port : TPort) (s : State) : Out := .next (s.live fun d => d.egressSend port)

def execFrameTailArrival (die id : Nat) (payload : List Byte) (damaged : Bool) (s : State) : Out :=
  .next (s.live fun d => d.tailArrives die id payload damaged)

/-! ## Cells that fail (R17) -/

/-- Retire a cell of a die, free or held by a frame. -/
def Dev.retireCell (d : Dev) (die : Nat) (frame : Option Nat) : Dev :=
  let spare := d.get Bar.TRL_CELLS_SPARE die != 0
  let t := d.trel die
  let isHeld := match frame with
    | some id => t.held.any fun h => h.id == id
    | none => false
  let d1 := if spare then d.drop Bar.TRL_CELLS_SPARE 1 die
    else if isHeld then d.drop Bar.TRL_CELLS_USABLE 1 die
    else (d.drop Bar.TRL_CELLS_USABLE 1 die).drop Bar.TRL_CELLS_FREE 1 die
  let d2 := match frame with
    | some id => if isHeld then
        (d1.setTrel die { d1.trel die with retired := (d1.trel die).retired ++ [(id, spare)] }).markBad die id else d1
    | none => d1
  d2.alm1 Blk.trl 0x01 die 0 0 (d2.word Bar.TRL_CELLS die)

def execCellUncorrectable (die : Nat) (frame : Option Nat) (s : State) : Out :=
  .next (s.live fun d => d.retireCell (die % 2) frame)

/-! ## TRL_PORT_LL (R101) -/

/-- Lower one class's written value as far as the excess asks, to no less than 1. -/
def lowerBy (x excess w : Nat) : Nat × Nat :=
  let cut := min (x - 1) ((excess + (w - 1)) / w)
  (x - cut, excess - cut * w)

/-- Clamp the four per-lane values of a port so that the die's limits fit ll_budget: TC4 first, then TC5, TC6, TC7. -/
def Dev.clampLl (d : Dev) (p : Nat) : Dev :=
  let die := if p < 96 then 0 else 1
  let w := d.layoutWidth p
  let e0 := if d.isLeader p then d.llLimits die - d.llBudget die else 0
  let r4 := lowerBy (d.get Bar.TRL_PORT_LL_TC4 p) e0 w
  let r5 := lowerBy (d.get Bar.TRL_PORT_LL_TC5 p) r4.2 w
  let r6 := lowerBy (d.get Bar.TRL_PORT_LL_TC6 p) r5.2 w
  let r7 := lowerBy (d.get Bar.TRL_PORT_LL_TC7 p) r6.2 w
  (((d.set Bar.TRL_PORT_LL_TC4 r4.1 p).set Bar.TRL_PORT_LL_TC5 r5.1 p).set Bar.TRL_PORT_LL_TC6 r6.1 p).set
    Bar.TRL_PORT_LL_TC7 r7.1 p

/-- A write of the per-lane lossless credits of a port (R101). -/
def Dev.writePortLl (d : Dev) (p v : Nat) : Dev :=
  let c := fun hi lo => clampTo 1 4095 (slice v hi lo)
  ((((d.set Bar.TRL_PORT_LL_TC4 (c 11 0) p).set Bar.TRL_PORT_LL_TC5 (c 27 16) p).set
    Bar.TRL_PORT_LL_TC6 (c 43 32) p).set Bar.TRL_PORT_LL_TC7 (c 59 48) p).clampLl p

end Sys2Proof.Machine
end

