-- ==== Sys2Proof/Machine/Ports.lean ====
section
/-! DEFINITION. Fabric lanes and ports: layout, bring-up, measurement, capability exchange, HOLD, retraining, failure,
credits, and the arrival of frames at a Trellis (chapter 3, with R100, R103 and R510). -/

namespace Sys2Proof.Machine

def Dev.port (d : Dev) (p : Nat) : Port :=
  kvGetD d.ports p {
    attempts := 0, retrains := [], retraining := false, fast := false, step := 0, deadline := 0, known := none,
    before := none, oldWidth := 0, skews := [] }

def Dev.setPort (d : Dev) (p : Nat) (x : Port) : Dev := { d with ports := kvPut d.ports p x }

def Dev.setPortState (d : Dev) (p x : Nat) : Dev := d.set Bar.LNK_PORT_STATUS_STATE x p

/-- Lowest width a port may come up with: MIN_WIDTH, at most its width (R51). -/
def Dev.minLanes (d : Dev) (p : Nat) : Nat := min (2 ^ d.get Bar.LNK_PORT_CFG_MIN_WIDTH p) (d.layoutWidth p)

/-- The port that covers a lane in the layout in force. -/
def Dev.portOfLane (d : Dev) (l : Nat) : Nat :=
  ((List.range (l % 8 + 1)).map (l - ·)).find? (fun p => d.isLeader p) |>.getD (l - l % 8)

/-- The lane carries traffic of its port. -/
def Dev.laneMapped (d : Dev) (l : Nat) : Bool :=
  (d.get Bar.LNK_PORT_STATUS_LANE_MAP (d.portOfLane l)).testBit (l - d.portOfLane l)

/-- An LNK event: its record, with the status and measurement registers, and the LNK vector (R62). -/
def Dev.lnkEvent (d : Dev) (p code : Nat) : Dev :=
  (d.alm1 Blk.lnk code p 0 0 (d.word Bar.LNK_PORT_STATUS p + d.word Bar.LNK_PORT_MEAS p * 2 ^ 64)).sysVec Blk.lnk

/-! ## Layout (R45, R46) -/

/-- The leaders of a group, with their widths, from the stored WIDTH fields. -/
def layoutOf (width : Nat → Nat) (lane : Nat) : Nat → List (Nat × Nat)
  | 0 => []
  | fuel + 1 =>
    let w := [3, 2, 1, 0].find? (fun c => c ≤ width lane && lane % 2 ^ c == 0) |>.getD 0
    let next := lane + 2 ^ w
    if next % 8 = 0 then [(lane, 2 ^ w)] else (lane, 2 ^ w) :: layoutOf width next fuel

/-- The layout of a group follows the WIDTH fields once every port of the group is DISABLED; the leaders' lossless
limits are then clamped again (R46, R101). DESIGN CHOICE (log entry 67): the values of one leader are lowered, TC4 to TC7,
before the next leader's; and a lane whose ENABLE was set while it was a member stays DISABLED as a leader until ENABLE is
cleared and set again. -/
def Dev.applyLayout (d : Dev) (g : Nat) : Dev :=
  let lanes := (List.range 8).map (· + 8 * g)
  if lanes.all fun l => d.portState l == 0 then
    let lay := layoutOf (fun l => d.get Bar.LNK_PORT_CFG_WIDTH l) (8 * g) 8
    let d1 := lanes.foldl (fun d l =>
      d.set Bar.LNK_PORT_CFG_ROLE (if lay.any (fun e => e.1 == l) then 0 else 1) l) d
    lay.foldl (fun d e => d.clampLl e.1) d1
  else d

/-! ## Leaving ACTIVE -/

/-- Bytes that are not known. -/
def Dev.freeBytes (d : Dev) (n : Nat) : List Byte × Dev :=
  ((List.range n).map fun i => BitVec.ofNat 8 (Config.freeNat (d.free + i)), { d with free := d.free + n })

/-- Frames that the port had half-sent are lost to the partner; frames it had half-received are marked bad, and what did not
arrive of them is not known (R60, R111). -/
def Dev.cutFrames (d : Dev) (p : Nat) : Dev :=
  let die := portDie (.fabric p)
  let t := d.trel die
  let d1 := d.setTrel die { t with
    held := t.held.map fun h => { h with started := h.started.filter (· != TPort.fabric p) } }
  ((d1.trel die).held.filter fun h => h.ingress == TPort.fabric p && !h.complete).foldl
    (fun d h =>
      let r := d.freeBytes h.f.len
      r.2.tailArrives die h.id r.1 true) d1

/-- Credits of both directions are void until the port's next step 7; cells held from before return none after it. -/
def Dev.voidCredit (d : Dev) (p : Nat) : Dev :=
  let die := portDie (.fabric p)
  let t := d.trel die
  d.setTrel die { t with
    held := t.held.map fun h => if h.ingress == TPort.fabric p then { h with credited := false } else h
    partner := t.partner.filter (fun e => e.1 / 8 != p)
    advert := t.advert.filter (fun e => e.1 / 8 != p)
    rxCells := t.rxCells.filter (fun e => e.1 / 8 != p) }

/-- The Trellis discards the frames queued for a port that has FAILED (R61). -/
def Dev.flushPort (d : Dev) (p : Nat) : Dev :=
  let die := portDie (.fabric p)
  ((d.trel die).held.filter fun h => h.targets.contains (.fabric p)).foldl (fun d h =>
    let d1 := (d.modHeld die h.id fun x => { x with targets := x.targets.filter (· != TPort.fabric p) }).settleHeld die h.id
    let d2 := (d1.settleQueue (.fabric p) h.f.cls).bump Bar.LNK_PORT_STATUS_FLUSHED 1 p
    if h.f.cls < 4 then d2.notice die h.f else d2) d

/-- A port enters FAILED (R61, R62). -/
def Dev.failPort (d : Dev) (p : Nat) : Dev :=
  let d1 := ((d.setPortState p 8).voidCredit p).flushPort p
  ((d1.setPort p { d1.port p with attempts := 0, retraining := false, step := 0 }).lnkEvent p 0x03).alert Blk.lnk

/-- One more failed attempt: the third in a row takes the port to FAILED, else it is back in DETECT (R49). -/
def Dev.countAttempt (d : Dev) (p : Nat) : Dev :=
  let x := d.port p
  if 3 ≤ x.attempts + 1 then d.failPort p
  else (d.setPortState p 1).setPort p { x with attempts := x.attempts + 1, fast := false, step := 0 }

/-- Step 2, 4 or 5 has timed out: a fast retrain gives way to a full one, any other attempt has failed (R49, R60). -/
def Dev.attemptFails (d : Dev) (p : Nat) : Dev :=
  let x := d.port p
  if d.portState p = 6 ∧ x.fast then (d.setPortState p 1).setPort p { x with fast := false, step := 0 }
  else d.countAttempt p

/-- A retrain starts (R60, R61): the fourth within 1 s takes the port to FAILED. It too is counted in RETRAINS. The partner
stored before it is kept for the check of R55. -/
def Dev.startRetrain (d : Dev) (p : Nat) : Dev :=
  let x := d.port p
  let recent := x.retrains.filter fun t => d.now < t + 1000000000
  let d1 := ((d.cutFrames p).voidCredit p).bump Bar.LNK_PORT_STATUS_RETRAINS 1 p
  if 3 ≤ recent.length then (d1.setPort p { x with retrains := recent ++ [d.now] }).failPort p
  else
    ((d1.setPortState p 6).setPort p { x with
      retrains := recent ++ [d.now], retraining := true, fast := true, step := 2, deadline := d.now + 2000000
      before := x.known, oldWidth := d.get Bar.LNK_PORT_STATUS_WIDTH_UP p }).emit (.trainingFrames p)

/-- DEGRADING is set, recorded once (R59, R62). -/
def Dev.setDegrading (d : Dev) (p : Nat) : Dev :=
  if d.flag Bar.LNK_PORT_STATUS_DEGRADING p then d else (d.set Bar.LNK_PORT_STATUS_DEGRADING 1 p).lnkEvent p 0x01

/-! ## Entering ACTIVE -/

/-- Credits of one class at step 7 (R102). -/
def Dev.advertise (d : Dev) (p c : Nat) : Dev :=
  let n := d.creditPerLane p c * d.upLanes p
  let die := portDie (.fabric p)
  let t := d.trel die
  (d.setTrel die { t with advert := kvPut t.advert (qCode (.fabric p) c) n }).emit (.creditAdvert p c n)

/-- Shaper rates are clamped to the agreed width and the buckets of the port start full (R115). -/
def Dev.freshBuckets (d : Dev) (p : Nat) : Dev :=
  let die := portDie (.fabric p)
  let t := d.trel die
  let d1 := d.setTrel die { t with
    shaper := t.shaper.filter (fun e => e.1 / 8 != p)
    shaperNs := t.shaperNs.filter (fun e => e.1 / 8 != p)
    guar := kvDel t.guar p
    guarNs := kvDel t.guarNs p }
  (List.range 8).foldl (fun d c =>
    d.set Bar.QOS_SHAPE_RATE (min (d.get Bar.QOS_SHAPE_RATE p c) (4000 * d.upLanes p)) p c) d1

/-- Step 7: the port advertises its credits and enters ACTIVE; a port that comes back narrower is reported (R62). -/
def Dev.enterActive (d : Dev) (p : Nat) : Dev :=
  let x := d.port p
  let d1 := ((((d.setPortState p 5).set Bar.LNK_PORT_STATUS_HOLD_REASON 0 p).set
    Bar.LNK_PORT_STATUS_DEGRADING 0 p).voidCredit p).freshBuckets p
  let d2 := (List.range 8).foldl (fun d c => d.advertise p c) d1
  let d3 := d2.setPort p { x with attempts := 0, retraining := false, fast := false, step := 0 }
  if x.retraining ∧ d3.get Bar.LNK_PORT_STATUS_WIDTH_UP p < x.oldWidth then d3.lnkEvent p 0x04 else d3

/-- A port enters HOLD for a reason (R55, R62). Its attempt has not failed. -/
def Dev.holdPort (d : Dev) (p reason : Nat) : Dev :=
  (((d.setPortState p 7).set Bar.LNK_PORT_STATUS_HOLD_REASON reason p).setPort p { d.port p with
    attempts := 0, step := 0 }).lnkEvent p 0x02

/-! ## Bring-up (R48-R54) -/

/-- ENABLE is set: a DISABLED leader enters DETECT (R48). -/
def Dev.portEnable (d : Dev) (p : Nat) : Dev :=
  let d1 := d.set Bar.LNK_PORT_CFG_ENABLE 1 p
  if d1.isLeader p && d1.portState p == 0 then
    ((d1.setPortState p 1).setPort p { d1.port p with
      attempts := 0, step := 0, retraining := false }).emit (.trainingFrames p)
  else d1

def execPortEnable (p : Nat) (s : State) : Out := .next (s.host fun d => if p < 192 then d.portEnable p else d)

/-- ENABLE is cleared: the port enters DISABLED in any state (R63); a waiting layout may now take effect (R46). DESIGN CHOICE
(log entry 68): frames queued for the port stay queued, as in HOLD, and LANE_MAP, WIDTH_UP and DEGRADING keep their
values, as they do in FAILED; HOLD_REASON is cleared here and on entry to ACTIVE, and kept through a retrain from HOLD. -/
def Dev.portDisable (d : Dev) (p : Nat) : Dev :=
  let d1 := d.set Bar.LNK_PORT_CFG_ENABLE 0 p
  if d1.isLeader p then
    let d2 := (((d1.cutFrames p).voidCredit p).setPortState p 0).set Bar.LNK_PORT_STATUS_HOLD_REASON 0 p
    (d2.setPort p { d2.port p with attempts := 0, step := 0, retraining := false }).applyLayout (p / 8)
  else d1

def execPortDisable (p : Nat) (s : State) : Out := .next (s.host fun d => if p < 192 then d.portDisable p else d)

/-- Training frames of the partner on at least MIN_WIDTH lanes take DETECT to TRAIN, which lasts at most 50 ms. -/
def execTrainingFramesDetected (p lanes : Nat) (s : State) : Out :=
  .next (s.live fun d =>
    if d.portState p = 1 ∧ d.minLanes p ≤ lanes then
      (d.setPortState p 2).setPort p { d.port p with step := 2, deadline := d.now + 50000000 }
    else d)

/-- One lane's result of TRAIN (R50, R53). -/
def Dev.laneResult (d : Dev) (l : Nat) (r : LaneResult) : Dev :=
  ((d.set Bar.LNK_LANE_STATUS_GOOD (if r.trained && decide (r.skewUi ≤ 192) then 1 else 0) l).set
    Bar.LNK_LANE_STATUS_POL_INV (if r.polInv then 1 else 0) l).set Bar.LNK_LANE_STATUS_LOSS (min r.loss 511) l

/-- Step 2 ends: each lane of the port is good or bad (R48, R50). -/
def Dev.laneTraining (d : Dev) (p : Nat) (lanes : List LaneResult) : Dev :=
  if (d.portState p = 2 ∨ d.portState p = 6) ∧ (d.port p).step = 2 then
    let d1 := (List.range (d.layoutWidth p)).foldl (fun d i =>
      d.laneResult (p + i) (lanes.getD i ⟨false, false, 0, 0⟩)) d
    d1.setPort p { d1.port p with step := 3, skews := lanes.map LaneResult.skewUi }
  else d

def execLaneTrainingDone (p : Nat) (lanes : List LaneResult) (s : State) : Out :=
  .next (s.live fun d => d.laneTraining p lanes)

/-- The agreed width: the largest of 8, 4, 2, 1 that both sides' widths and good lanes allow (R51). -/
def agreedWidth (own partner good least : Nat) : Option Nat :=
  [3, 2, 1, 0].find? fun c => 2 ^ c ≤ own && c ≤ partner && 2 ^ c ≤ good && least ≤ 2 ^ c

/-- The largest skew between two lanes of a list (LNK_PORT_MEAS.SKEW_UI). -/
def spread (xs : List Nat) : Nat := xs.foldl max 0 - xs.foldl min (xs.headD 0)

/-- Step 3: both sides hold the same lane map, or the attempt has failed (R49, R51, R53, R61). -/
def Dev.mapAgreed (d : Dev) (p partnerGood partnerWidth : Nat) : Dev :=
  if (d.portState p = 2 ∨ d.portState p = 6) ∧ (d.port p).step = 3 then
    let good := (List.range (d.layoutWidth p)).filter fun i =>
      d.flag Bar.LNK_LANE_STATUS_GOOD (p + i) && partnerGood.testBit i
    match agreedWidth (d.layoutWidth p) partnerWidth good.length (d.minLanes p) with
    | none => d.countAttempt p
    | some c =>
      let used := good.take (2 ^ c)
      let worst := used.foldl (fun m i => max m (d.get Bar.LNK_LANE_STATUS_LOSS (p + i))) 0
      let d1 := used.zipIdx.foldl (fun d e => d.set Bar.LNK_LANE_STATUS_POSITION e.2 (p + e.1)) d
      let d2 := ((d1.set Bar.LNK_PORT_STATUS_LANE_MAP (used.foldl (fun m i => m + 2 ^ i) 0) p).set
        Bar.LNK_PORT_STATUS_WIDTH_UP c p).set Bar.LNK_PORT_MEAS_LOSS worst p
      let d3 := (d2.set Bar.LNK_PORT_STATUS_LOSS_HIGH (if 320 < worst then 1 else 0) p).set Bar.LNK_PORT_MEAS_SKEW_UI
        (min 255 (spread (used.map fun i => (d.port p).skews.getD i 0))) p
      let d4 := if d.portState p = 2 then d3.setPortState p 3 else d3
      d4.setPort p { d4.port p with step := 4, deadline := d.now + 1000000 }
  else d

def execLaneMapAgreed (p partnerGood partnerWidth : Nat) (s : State) : Out :=
  .next (s.live fun d => d.mapAgreed p partnerGood partnerWidth)

/-- LENGTH_DM from a round trip, in units of 0.1 m (R52). -/
def lengthDm (rtt own turn prop : Nat) : Nat :=
  let ui := rtt - own - turn
  min 4095 ((2 * (ui * 2353) + 100 * prop) / (200 * prop))

/-- The device's fixed latency of a lane: from the calibration block, 1,056 UI built in (R52, R468). -/
def Dev.ownLatency (d : Dev) (l : Nat) : Nat := kvGetD d.boot.latUi l 1056

/-- LENGTH_DM follows RTT_UI and the partner's TURNAROUND_UI. -/
def Dev.setLength (d : Dev) (p : Nat) : Dev :=
  d.set Bar.LNK_PORT_MEAS_LENGTH_DM
    (lengthDm (d.get Bar.LNK_PORT_MEAS_RTT_UI p) (d.ownLatency p) (d.get Bar.LNK_PORT_PARTNER_WORD p 3 % 65536)
      (d.get Bar.LNK_PORT_CFG_PROP_PS_PER_M p)) p

/-- The WIDTH code of a number of lanes. -/
def widthCode (lanes : Nat) : Nat := if lanes = 8 then 3 else if lanes = 4 then 2 else if lanes = 2 then 1 else 0

/-- The capability block the device sends (R54). -/
def Dev.capability (d : Dev) (p : Nat) : List Nat :=
  [ 0x02 <<< 24 ||| 0x10 <<< 16 ||| d.myEp, d.boot.serial % 2 ^ 32, widthCode (d.layoutWidth p) <<< 24 ||| 1,
    d.get Bar.MBR_ID_FAILURE_DOMAIN <<< 16 ||| 1024 ]

/-- Step 4 ends: RTT_UI and LENGTH_DM are known and the exchange starts (R52). -/
def execMeasureDone (p rttUi : Nat) (s : State) : Out :=
  .next (s.live fun d =>
    if (d.portState p = 3 ∨ d.portState p = 6) ∧ (d.port p).step = 4 then
      let d1 := (d.set Bar.LNK_PORT_MEAS_RTT_UI (min rttUi 65535) p).setLength p
      let d2 := if d.portState p = 3 then d1.setPortState p 4 else d1
      (d2.setPort p { d2.port p with step := 5, deadline := d.now + 10000000 }).emit (.capability p (d2.capability p))
    else d)

/-- The HOLD reason of the blocks received on the mapped lanes, 0 for none (R47, R55). -/
def Dev.holdReason (d : Dev) (p : Nat) (blocks : List (List Nat)) : Nat :=
  let b := blocks.headD []
  let load := b.getD 0 0 >>> 24
  let serial := b.getD 1 0
  let ep := b.getD 0 0 % 65536
  if load ≠ 1 ∧ load ≠ 2 ∧ load ≠ 3 then 1
  else if b.getD 0 0 >>> 20 % 16 ≠ 1 then 2
  else if blocks.any fun c => c.getD 1 0 != serial then 3
  else if serial = d.boot.serial % 2 ^ 32 ∧ ep = d.myEp then 4
  else match (d.port p).before with
    | some k => if (d.port p).retraining ∧ k ≠ (serial, ep) then 5 else 0
    | none => 0

/-- Steps 5 and 6: the partner's block is stored and checked, and the port enters ACTIVE or HOLD (R54, R55). -/
def Dev.capReceived (d : Dev) (p : Nat) (blocks : List (List Nat)) : Dev :=
  if (d.portState p = 4 ∨ d.portState p = 6) ∧ (d.port p).step = 5 then
    let b := blocks.headD []
    let reason := d.holdReason p blocks
    let d1 := (List.range 4).foldl (fun d i => d.set Bar.LNK_PORT_PARTNER_WORD (b.getD i 0) p i) d
    let d2 := (((d1.set Bar.LNK_PORT_STATUS_PARTNER_EP (b.getD 0 0 % 65536) p).set Bar.LNK_PORT_STATUS_LOAD_TYPE
      (b.getD 0 0 >>> 24) p).set Bar.LNK_PORT_STATUS_LEND (b.getD 2 0 / 2 % 2) p).set
      Bar.LNK_PORT_STATUS_EXPANDER (b.getD 2 0 % 2) p
    let d3 := ((d2.setPort p { d2.port p with known := some (b.getD 1 0, b.getD 0 0 % 65536) }).setLength p).domainReported
      (b.getD 0 0 % 65536) (b.getD 3 0 >>> 16 % 65536)
    if reason = 0 then d3.enterActive p else d3.holdPort p reason
  else d

def execCapabilityReceived (p : Nat) (blocks : List (List Nat)) (s : State) : Out :=
  .next (s.live fun d => d.capReceived p blocks)

/-- ACCEPT admits a port held for SELF or PARTNER_CHANGED (R55). -/
def Dev.portAccept (d : Dev) (p : Nat) : Dev :=
  let r := d.get Bar.LNK_PORT_STATUS_HOLD_REASON p
  if d.portState p = 7 ∧ (r = 4 ∨ r = 5) then d.enterActive p else d

def execPortAccept (p : Nat) (s : State) : Out := .next (s.host fun d => d.portAccept p)

/-- Steps 2, 4 and 5 are bounded (R42, R49). -/
def Dev.bringupExpires (d : Dev) (p : Nat) : Dev :=
  let st := (d.port p).step
  if (st = 2 ∨ st = 4 ∨ st = 5) ∧ (d.port p).deadline ≤ d.now ∧ 2 ≤ d.portState p ∧ d.portState p ≤ 6 ∧
      d.portState p ≠ 5 then d.attemptFails p else d

def execBringupStepTimeout (p : Nat) (s : State) : Out := .next (s.live fun d => d.bringupExpires p)

/-! ## Retraining (R59-R63) -/

/-- A write of RETRAIN: it acts on a port that is ACTIVE, in HOLD or FAILED, and has no effect in DETECT, TRAIN,
MEASURE, EXCHANGE, RETRAIN and DISABLED (R61, R63). A FAILED port starts afresh. -/
def Dev.portRetrain (d : Dev) (p : Nat) : Dev :=
  if d.portState p = 5 ∨ d.portState p = 7 then d.startRetrain p
  else if d.portState p = 8 then (d.setPort p { d.port p with retrains := [], attempts := 0 }).startRetrain p
  else d

def execPortRetrain (p : Nat) (s : State) : Out := .next (s.host fun d => d.portRetrain p)

/-- The number of the counting window that now falls in: [k, k + 1) x WINDOW_MS on the time base (R41, R59). -/
def Dev.degradeWin (d : Dev) : Nat := d.now / (1000000 * max 1 (d.get Bar.LNK_DEGRADE_CTL_WINDOW_MS))

/-- The counts of a lane in the present window. -/
def Dev.laneWin (d : Dev) (l : Nat) : LaneWin :=
  match kvGet? d.laneWins l with
  | some x => if x.win = d.degradeWin then x else { win := d.degradeWin, uncorr := 0, near := 0, acted := false }
  | none => { win := d.degradeWin, uncorr := 0, near := 0, acted := false }

def Dev.setLaneWin (d : Dev) (l : Nat) (x : LaneWin) : Dev := { d with laneWins := kvPut d.laneWins l x }

/-- The traffic of a port goes over its mapped lanes: it is ACTIVE or in HOLD. -/
def Dev.portTrained (d : Dev) (p : Nat) : Bool := d.portState p == 5 || d.portState p == 7

/-- A lane that carries traffic reaches UNCORR_MAX or NEAR_MAX within the window (R59): once in the window, its port
retrains, or only sets DEGRADING. -/
def Dev.laneDegrades (d : Dev) (l : Nat) (cause : DegradeCause) : Dev :=
  let p := d.portOfLane l
  let x := d.laneWin l
  let reached := match cause with
    | .uncorr => decide (d.get Bar.LNK_DEGRADE_CTL_UNCORR_MAX ≤ x.uncorr)
    | .near => decide (d.get Bar.LNK_DEGRADE_CTL_NEAR_MAX ≤ x.near)
  if reached && !x.acted && d.portTrained p && d.laneMapped l then
    let d1 := (d.setLaneWin l { x with acted := true }).setDegrading p
    if d.flag Bar.LNK_PORT_CFG_AUTO_RETRAIN p then d1.startRetrain p else d1
  else d

def execLaneDegrading (lane : Nat) (cause : DegradeCause) (s : State) : Out :=
  .next (s.live fun d => d.laneDegrades lane cause)

/-- A lane of a port that has trained loses signal or lock: a retrain starts at once (R59). -/
def Dev.laneLost (d : Dev) (l : Nat) : Dev :=
  let p := d.portOfLane l
  if d.portTrained p ∧ d.laneMapped l then (d.setDegrading p).startRetrain p else d

def execLossOfSignal (lane : Nat) (s : State) : Out := .next (s.live fun d => d.laneLost lane)

/-- A codeword with corrected symbols on a lane (R59, R64): CORR and the Almanac's tap (R463) count it, NEAR one
with 12 to 15 of them. -/
def Dev.codewordCorrected (d : Dev) (l symbols : Nat) : Dev :=
  if l < 192 ∧ 1 ≤ symbols ∧ symbols ≤ 15 then
    let d1 := ({ d with alm := { d.alm with corrTap := d.alm.corrTap + 1 } }).bump Bar.LNK_LANE_ERR_CORR 1 l
    if symbols < 12 then d1
    else
      let x := d1.laneWin l
      (d1.bump Bar.LNK_LANE_ERR_NEAR 1 l).setLaneWin l { x with near := x.near + 1 }
  else d

/-- The codewords of a port meet the symbol errors of its lanes (R64). -/
def Dev.meetNoise (d : Dev) (p : Nat) : Dev :=
  (d.laneNoise.filter fun e => d.portOfLane e.1 == p && d.laneMapped e.1).foldl (fun d e =>
    ({ d with laneNoise := kvDel d.laneNoise e.1 }).codewordCorrected e.1 e.2) d

/-- A codeword that a lane cannot correct is counted (R58, R59). -/
def Dev.codewordLost (d : Dev) (l : Nat) : Dev :=
  if l < 192 then
    let x := d.laneWin l
    (d.bump Bar.LNK_LANE_ERR_UNCORR 1 l).setLaneWin l { x with uncorr := x.uncorr + 1 }
  else d

/-- A codeword that FEC cannot correct (R58). -/
def execUncorrectableCodeword (lane : Nat) (frame : Option Nat) (s : State) : Out :=
  .next (s.live fun d =>
    let d1 := d.codewordLost lane
    match frame with
    | none => d1
    | some id =>
      let die := portDie (.fabric lane)
      if (d1.trel die).held.any fun h => h.id == id && h.ingress == TPort.fabric (d1.portOfLane lane) then
        d1.markBad die id
      else d1)

/-! ## Credits on the link (R57, R102) -/

/-- At a resynchronisation marker the receiver returns the cells that were lost on the way as credit (R57). -/
def execResyncMarker (p cls senderCells : Nat) (s : State) : Out :=
  .next (s.live fun d =>
    if d.portState p = 5 ∧ cls < 8 then
      let die := portDie (.fabric p)
      let t := d.trel die
      let q := qCode (.fabric p) cls
      let lost := senderCells - kvGetD t.rxCells q 0
      if lost = 0 then d
      else (d.setTrel die { t with rxCells := kvPut t.rxCells q senderCells }).emit (.creditReturn p cls lost)
    else d)

/-- Credit returned by the partner (R57, R103). -/
def execPartnerCreditReceived (p cls cells : Nat) (s : State) : Out :=
  .next (s.live fun d =>
    if d.portState p = 5 ∧ cls < 8 then
      let die := portDie (.fabric p)
      let t := d.trel die
      let q := qCode (.fabric p) cls
      d.setTrel die { t with partner := kvPut t.partner q (kvGetD t.partner q 0 + cells) }
    else d)

/-! ## Frames arriving at a Trellis (R70, R100, R103, R510) -/

/-- The classes that a frame type may travel in (R68). -/
def classOk (type cls : Nat) : Bool :=
  if type = Ty.write then cls ≤ 4
  else if type = Ty.copyData then cls < 4
  else if type = Ty.read || type = Ty.atomic || type = Ty.invoke || type = Ty.warm || type = Ty.reducePart ||
    type = Ty.lend then cls == 4
  else if type = Ty.readResp || type = Ty.result || type = Ty.notify then cls == 5
  else if type = Ty.writeAck then cls == 5 || cls == 6
  else if type = Ty.snoop || type = Ty.snoopResp || type = Ty.writeback then cls == 6
  else cls == 7

/-- A header that R70 drops: reserved TYPE, a class its type may not travel in, LEN above 4,096, or MCAST on a type
that is not multicast. -/
def malformed (f : Frame) : Bool :=
  decide (0x12 < f.type) || !classOk f.type f.cls || decide (4096 < f.len) ||
  (Frame.mcast f && !(f.type == Ty.write || f.type == Ty.copyData || f.type == Ty.result || f.type == Ty.notify))

/-- A frame's header arrives at a fabric port (R70, R100, R103, R510). -/
def Dev.fabricArrival (d : Dev) (l : Nat) (f : Frame) : Dev :=
  let die := portDie (.fabric l)
  let t := d.trel die
  let q := qCode (.fabric l) f.cls
  let k := Frame.cells f
  if d.portState l ≠ 5 then d.bump Bar.LNK_MFP_DROP_MALFORMED 1
  else if kvGetD t.advert q 0 < k then
    ((d.bump Bar.LNK_MFP_DROP_MALFORMED 1).setDegrading l).startRetrain l
  else
    let d1 := d.setTrel die { t with
      advert := kvPut t.advert q (kvGetD t.advert q 0 - k)
      rxCells := kvPut t.rxCells q (kvGetD t.rxCells q 0 + k) }
    if malformed f then (d1.bump Bar.LNK_MFP_DROP_MALFORMED 1).returnCredit (.fabric l) f.cls k
    else if f.len = 0 then
      let d2 := d1.admitHeader (.fabric l) { f with badTail := !f.payload.isEmpty } true
      if f.payload.isEmpty then d2 else d2.bump Bar.TRL_BAD_TAIL_MARKED 1 die
    else d1.admitHeader (.fabric l) { f with payload := [], badTail := false } false

/-- The oldest frame that waits at a port in the class of `f`, and for a cluster port in its allotment, whose origin shaper may
hold it: each source's frames are admitted in the order it issued them (R34, R36, R100, R192). -/
def Dev.nextOut (d : Dev) (p : TPort) (f : Frame) : Option Frame :=
  let cluster := match p with
    | .cluster _ => true
    | _ => false
  (d.outbox.find? fun e => e.1 == p && e.2.cls == f.cls && (!cluster || e.2.allot == f.allot)).map Prod.snd

/-- The bound of a request (R90). -/
def Dev.reqBound (d : Dev) : Nat := 1000 * d.get Bar.LNK_MFP_CTL_REQ_TIMEOUT_US

/-- The bound of a request of the device starts when it enters the Trellis for the first time (R90). -/
def Dev.startBound (d : Dev) (f : Frame) : Dev :=
  if isRequest f && f.srcEp == d.myEp then
    { d with reqs := kvMod d.reqs f.tag fun r =>
        { r with deadline := some (r.deadline.getD (d.now + d.reqBound)) } }
  else d

/-- A frame that waits at an internal port is admitted in its turn; it goes on waiting while the origin shaper (R399) or
the port's fixed lossless limit of 512 cells (R101) holds it. -/
def Dev.internalArrival (d : Dev) (p : TPort) (f : Frame) : Dev :=
  if d.nextOut p f = some f then
    let die := portDie p
    let full := 4 ≤ f.cls && decide (512 < Frame.cells f +
      heldCells (d.trel die).held fun h => h.ingress == p && h.f.cls == f.cls)
    if full then d
    else
      let r := match p with
        | .cluster _ => d.shapeOrigin die f
        | _ => (true, d)
      if r.1 then (({ r.2 with outbox := r.2.outbox.erase (p, f) }).startBound f).admitHeader p f true else d
  else d

def execFrameAdmission (ingress : TPort) (f : Frame) (s : State) : Out :=
  .next (s.live fun d => match ingress with
    | .fabric l => if d.isLeader l then (d.meetNoise l).fabricArrival l f else d
    | .bridge y => if y < 2 then d.bridgeArrival y f else d
    | p => d.internalArrival p f)

/-- The write of TRL_PORT_LL by its own row (R101). -/
def execTrlPortLlWrite (p v : Nat) (s : State) : Out :=
  .next (s.host fun d => if p < 192 then d.writePortLl p v else d)

end Sys2Proof.Machine
end

