-- ==== Sys2Proof/Machine/Recv.lean ====
section
/-! DEFINITION. The checks a destination makes on a delivered frame (R70, R71, R75-R77, R385, R401, R418, R442). -/

namespace Sys2Proof.Machine

/-- A frame of the SPDM mailbox (R413): span 0xFFFF, ALLOT 0, not sealed, READ or WRITE. -/
def inMailbox (f : Frame) : Bool := Frame.addr f / 2 ^ 40 == 0xFFFF

def mailboxFrame (f : Frame) : Bool :=
  inMailbox f && (f.type == Ty.read || f.type == Ty.write) && f.allot == 0 && !Frame.enc f

/-- A mirror push (R449): a WRITE with FLAGS.SESS. -/
def isPush (f : Frame) : Bool := f.type == Ty.write && Frame.sess f

/-- The SEQ value nearest S with the given low 32 bits (R418). -/
def nearestSeq (s lo : Nat) : Nat :=
  let base := s / 2 ^ 32 * 2 ^ 32
  let mid := base + lo
  let dist := fun x : Nat => (x - s) + (s - x)
  let up := mid + 2 ^ 32
  let best := if dist up < dist mid then up else mid
  if 2 ^ 32 ≤ mid ∧ dist (mid - 2 ^ 32) < dist best then mid - 2 ^ 32 else best

/-- The plaintext of a sealed frame under a key (R417): the trailer's last 12 bytes are the tag. -/
def openWith (key : Option Nat) (f : Frame) (seq : Nat) : Option (List Byte) :=
  match key with
  | none => none
  | some k => Config.gcmOpen k (gcmNonce f.srcEp seq) (frameHeader f) f.payload (f.trailer.drop 4)

/-- Check 1 of R75: the frame opened, or none when it fails. -/
def Dev.authenticate (d : Dev) (die : Nat) (f : Frame) : Option Frame × Dev :=
  if neverSealed f.type || mailboxFrame f || !d.flag Bar.SEC_ALT_FAB_EN f.allot then (some f, d)
  else if !Frame.enc f then (none, d)
  else
    let key := die * 65536 + f.srcEp
    let s := kvGetD d.sec.seqHigh key 0
    let c := nearestSeq s (beNat (f.trailer.take 4))
    match (openWith (d.activeKey f.allot) f c).or (openWith (d.rxKey f.allot) f c) with
    | none => (none, d)
    | some p =>
      if s < c + 2 ^ 24 then
        (some { f with payload := p, trailer := [] },
         { d with sec := { d.sec with seqHigh := kvPut d.sec.seqHigh key (max s c) } })
      else (none, d)

/-- Ask an endpoint for the newer epoch, at most once per 250 µs (R442). -/
def Dev.fetchEpoch (d : Dev) (ep : Nat) : Dev :=
  match kvGet? d.mbr.lastFetch ep with
  | some t => if d.now < t + 250000 then d else go d
  | none => go d
where
  go (d : Dev) : Dev :=
    let d1 : Dev := { d with mbr := { d.mbr with lastFetch := kvPut d.mbr.lastFetch ep d.now } }
    d1.sendPlain (.memSide 0) (d1.newFrame Ty.epoch 7 0 ep 0 0 0 (0x7 <<< 28) d1.mbrEpoch 0 [])

/-- The device still hosts a frame's target (R401, R449). -/
def Dev.hosts (d : Dev) (f : Frame) : Bool :=
  if isPush f then d.ses (f.w5 % 65536) Ses.STATE == 2
  else if f.type = Ty.invoke ∨ f.type = Ty.warm then
    if f.type = Ty.warm ∨ Frame.sess f then d.ses (f.w5 % 65536) Ses.STATE == 1
    else
      let slot := f.w5 >>> 22 % 1024
      d.flag Bar.CLU_SLOT_VALID slot && (d.get Bar.CLU_SLOT_CLUSTERS slot).testBit (d.get Bar.CLU_SLOT_HOME_CLUSTER slot)
  else if f.type = Ty.reducePart then
    (if f.w5 < 2 ^ 31 then d.flag Bar.RKS_GRP_VALID (f.w5 % 4096) else (d.waitingGroup f).isSome)
  else (d.spanOf (Frame.addr f)).isSome

/-- The types whose map epoch is checked (table of frame types); R119 with the same drain rule for SNOOP (R189). -/
def mapChecked (f : Frame) : Bool :=
  f.type == Ty.read || f.type == Ty.write || f.type == Ty.atomic || f.type == Ty.invoke || f.type == Ty.warm ||
  f.type == Ty.copyData || f.type == Ty.reducePart || f.type == Ty.lend || f.type == Ty.snoop

/-- Check 5 of R75 (R77): the NAK status, or none when the frame passes. -/
def Dev.mapCheck (d : Dev) (f : Frame) : Option Nat :=
  if !mapChecked f || f.mapEpoch == d.mapEpoch then none
  else if newer f.mapEpoch d.mapEpoch then (if f.type = Ty.snoop then none else some Code.busy)
  else if decide (d.now < d.get Bar.ALT_MAP_INSTALL_NS + 500000) && d.hosts f then none
  else some Code.remap

/-- Take a delivered frame out of the inbox. -/
def Dev.taken (d : Dev) (f : Frame) : Dev := { d with inbox := d.inbox.eraseP fun e => e.2.1 == f }

/-- The port by which a delivered frame entered the package or was sent (R34). -/
def Dev.cameBy (d : Dev) (port : TPort) (f : Frame) : TPort :=
  match d.inbox.find? fun e => e.2.1 == f with
  | some e => e.2.2
  | none => port

/-- A frame in the inbox is acted on in its turn: no frame of its port and class lies before it there (R34, R36). A frame
that is not in the inbox comes with its command. -/
def Dev.inTurn (d : Dev) (f : Frame) : Bool :=
  match d.inbox.find? fun e => e.2.1 == f with
  | some e => ((d.inbox.find? fun x => x.1 == e.1 && x.2.1.cls == f.cls).map fun x => x.2.1) == some f
  | none => true

/-- A frame whose payload does not have the length that LEN gives (R70). -/
def wrongLength (f : Frame) : Bool := decide (f.payload.length ≠ f.len) || decide (4096 < f.len)

/-- Checks 2 to 6 of R75, and R385's part of check 7. EPOCH frames skip 2 and 3. -/
def Dev.epochChecks (d : Dev) (port : TPort) (f : Frame) : Option Frame × Dev :=
  if older f.mbrEpoch d.mbrEpoch then (none, (d.bump Bar.LNK_MFP_DROP_STALE_MBR 1).staleNak port f)
  else if newer f.mbrEpoch d.mbrEpoch then (none, (d.nak port f Code.busy).fetchEpoch f.srcEp)
  else if d.isFenced then (none, d.nak port f Code.fenced)
  else match d.mapCheck f with
    | some st => (none, d.nak port f st)
    | none =>
      if d.inReset f.allot then (none, d.nak port f Code.resetting)
      else if d.disabled f.allot then (none, d.nak port f Code.access)
      else (some f, d)

/-- A frame delivered at a port, in its turn: a wrong length, which also a marked frame keeps (R70, R111), a bad tail (R71),
then checks 1 to 6. None when the frame goes no further, or waits. -/
def Dev.recv (d0 : Dev) (port : TPort) (f : Frame) : Option Frame × Dev :=
  let d := d0.taken f
  if !d0.inTurn f then (none, d0)
  else if wrongLength f then (none, d.bump Bar.LNK_MFP_DROP_MALFORMED 1)
  else if f.badTail && f.len != 0 then (none, d.nak port f Code.badTail)
  else
    let a := d.authenticate (portDie port) f
    match a.1 with
    | none => (none, (a.2.bump Bar.LNK_MFP_DROP_AUTH_FAIL 1).bump Bar.SEC_ALT_AUTH_FAIL 1 f.allot)
    | some g => a.2.epochChecks port g

end Sys2Proof.Machine
end

