-- ==== Sys2Proof/Machine/Pool.lean ====
section
/-! DEFINITION. Pool memory: frames and their allocation, the page map, lines and poison, tier migration and its
jobs (chapter 6, with R168, R196 and R216). Tier-1 frame i of stack s is number 780,288 s + i; tier-2 frame i of link
l is number 2^32 + 2^28 l + i. -/

namespace Sys2Proof.Machine

/-! ## Frames (R121, R122, R126, R137) -/

def stackFrames : Nat := 780288
def isT1 (f : Nat) : Bool := decide (f < 2 ^ 32)
def stackOf (f : Nat) : Nat := f / stackFrames
def linkOf (f : Nat) : Nat := (f - 2 ^ 32) / 2 ^ 28

/-- The lowest number from e on that is not in a rising list, below a bound. -/
def firstGap (bound : Nat) : List Nat → Nat → Option Nat
  | [], e => if e < bound then some e else none
  | k :: ks, e => if k < e then firstGap bound ks e else if k = e then firstGap bound ks (e + 1)
                  else if e < bound then some e else none

/-- Frames in use in a stack and on a link. -/
def Dev.stackUsed (d : Dev) (s : Nat) : Nat :=
  (d.pool.used.filter fun e => isT1 e.1 && stackOf e.1 == s).length
def Dev.linkUsed (d : Dev) (l : Nat) : Nat :=
  (d.pool.used.filter fun e => !isT1 e.1 && linkOf e.1 == l).length

/-- MEM_STACK_STATUS.FREE: 0 for a failed stack (R123). -/
def Dev.stackFree (d : Dev) (s : Nat) : Nat :=
  if d.flag Bar.MEM_STACK_STATUS_FAILED s then 0 else stackFrames - d.stackUsed s

/-- MEM_TIER_STATUS.T1_FREE and T2_FREE. -/
def Dev.t1Free (d : Dev) : Nat := ((List.range 12).map d.stackFree).sum
def Dev.linkReady (d : Dev) (l : Nat) : Bool := d.get Bar.MEM_CXL_STATUS_STATE l == 2
def Dev.linkFree (d : Dev) (l : Nat) : Nat :=
  if d.linkReady l then d.get Bar.MEM_CXL_STATUS_CAP_PAGES l - d.linkUsed l else 0
def Dev.t2Free (d : Dev) : Nat := ((List.range 8).map d.linkFree).sum

/-- A list turned by n places. -/
def turned {α : Type} (l : List α) (n : Nat) : List α := l.drop (n % l.length) ++ l.take (n % l.length)

/-- The stacks that hold an object's frames (R122). -/
def stacksOf (homeDie : Nat) : List Nat :=
  if homeDie = 0 then [0, 1, 2, 3, 4, 5] else if homeDie = 1 then [6, 7, 8, 9, 10, 11] else List.range 12

/-- Take a frame for use under a memory key slot (512: none). -/
def Dev.useFrame (d : Dev) (f slot : Nat) : Dev :=
  let d1 : Dev := { d with pool := { d.pool with used := kvPut d.pool.used f slot } }
  if slot < 512 then d1.bindFrame slot else d1

/-- The slot that an allotment's new frames are bound to. -/
def Dev.slotFor (d : Dev) (a : Nat) : Nat := (d.activeMslot a).getD 512

/-- A tier-1 frame for page number n of an object: round-robin over its stacks, lowest free frame (R122). -/
def Dev.allocT1 (d : Dev) (homeDie n a : Nat) : Option (Nat × Dev) :=
  match (turned (stacksOf homeDie) n).find? (fun s => d.stackFree s != 0) with
  | none => none
  | some s =>
    match firstGap ((s + 1) * stackFrames) ((kvKeys d.pool.used).filter fun k => s * stackFrames ≤ k) (s * stackFrames) with
    | none => none
    | some f => some (f, d.useFrame f (d.slotFor a))

/-- A tier-2 frame for page number n: round-robin over the READY links in link order (R126). -/
def Dev.allocT2 (d : Dev) (n a : Nat) : Option (Nat × Dev) :=
  match (turned ((List.range 8).filter d.linkReady) n).find? (fun l => d.linkFree l != 0) with
  | none => none
  | some l =>
    let base := 2 ^ 32 + l * 2 ^ 28
    match firstGap (base + d.get Bar.MEM_CXL_STATUS_CAP_PAGES l) ((kvKeys d.pool.used).filter fun k => base ≤ k) base with
    | none => none
    | some f => some (f, d.useFrame f (d.slotFor a))

/-- Insert into and remove from a rising list without repeats. -/
def setIns (x : Nat) : List Nat → List Nat
  | [] => [x]
  | y :: ys => if x = y then y :: ys else if x < y then x :: y :: ys else y :: setIns x ys
def setDel (x : Nat) (l : List Nat) : List Nat := l.filter (· != x)

/-- A frame is freed: overwritten with zeros, its key slot unbound (R137, R420). -/
def Dev.releaseFrame (d : Dev) (f : Nat) : Dev :=
  match kvGet? d.pool.used f with
  | none => d
  | some slot =>
    let d1 : Dev := { d with pool := { d.pool with
      used := kvDel d.pool.used f
      mem := memClear d.pool.mem (65536 * f) 65536
      poison := d.pool.poison.filter fun x => x / 512 != f
      flaws := kvFilter d.pool.flaws fun x _ => x / 512 != f } }
    if slot < 512 then d1.unbindFrame slot else d1

/-- Copy a frame's contents and poison to another frame; a line that reads uncorrectable is poisoned there. -/
def Dev.copyFrame (d : Dev) (src dst : Nat) : Dev :=
  let bad := (d.pool.poison.filter fun x => x / 512 == src) ++
    kvKeys (kvFilter d.pool.flaws fun x hard => x / 512 == src && hard)
  { d with pool := { d.pool with
      mem := memCopy d.pool.mem (65536 * src) (65536 * dst) 65536
      poison := bad.foldl (fun p x => setIns (512 * dst + x % 512) p) (d.pool.poison.filter fun x => x / 512 != dst)
      flaws := kvFilter d.pool.flaws fun x _ => x / 512 != dst } }

/-- A frame's key slot is retired: its lines read poisoned (R169). -/
def Dev.frameRetired (d : Dev) (f : Nat) : Bool :=
  let slot := kvGetD d.pool.used f 512
  decide (slot < 512) && d.mslotState slot == 2

/-! ## Pages -/

/-- The physical page of a pool page. -/
def Dev.pageId (d : Dev) (pg : Nat) : Option Nat := kvGet? d.pool.pmap pg

def Dev.page? (d : Dev) (pg : Nat) : Option Page :=
  match d.pageId pg with
  | none => none
  | some i => kvGet? d.pool.pages i

def Dev.setPage (d : Dev) (i : Nat) (p : Page) : Dev :=
  { d with pool := { d.pool with pages := kvPut d.pool.pages i p } }

/-- The frame that serves a page: its tier-1 copy, else its home. -/
def Page.frame (p : Page) : Option Nat := p.copy.or p.home

def Dev.frameOf (d : Dev) (pg : Nat) : Option Nat := (d.page? pg).bind Page.frame

/-- The page has a tier-1 frame or copy. -/
def Dev.inT1 (d : Dev) (pg : Nat) : Bool :=
  match d.frameOf pg with
  | some f => isT1 f
  | none => false

/-- A copy of the page is in progress. -/
def Dev.copying (d : Dev) (pg : Nat) : Bool :=
  match d.pageId pg with
  | some i => (kvGet? d.pool.copies i).isSome
  | none => false

/-- Bind a pool page to a new physical page with a home frame. -/
def Dev.newPage (d : Dev) (pg : Nat) (home : Option Nat) : Dev :=
  let i := d.pool.nextPage
  { d with pool := { d.pool with
      pmap := kvPut d.pool.pmap pg i
      pages := kvPut d.pool.pages i {
        home := home, copy := none, dirty := false, poisoned := false, refs := 1, lastUse := d.now, hot := 0,
        hotWin := 0 }
      nextPage := i + 1 } }

/-- Frames of a page copy that will not be used. -/
def Dev.dropCopy (d : Dev) (i : Nat) : Dev :=
  match kvGet? d.pool.copies i with
  | none => d
  | some c =>
    let d1 : Dev := { d with pool := { d.pool with copies := kvDel d.pool.copies i } }
    let d2 := if c.kind = 1 then d1 else d1.releaseFrame c.dst
    match c.dst2 with
    | some f => d2.releaseFrame f
    | none => d2

/-- A pool page lets go of its physical page, which is freed with its last reference (R137, R212). -/
def Dev.unmapPage (d : Dev) (pg : Nat) : Dev :=
  match d.pageId pg with
  | none => d
  | some i =>
    let d1 : Dev := { d with pool := { d.pool with pmap := kvDel d.pool.pmap pg } }
    match kvGet? d1.pool.pages i with
    | none => d1
    | some p =>
      if 1 < p.refs then d1.setPage i { p with refs := p.refs - 1 }
      else
        let d2 := d1.dropCopy i
        let d3 := [p.home, p.copy].foldl (fun d f => match f with
          | some x => d.releaseFrame x
          | none => d) d2
        { d3 with pool := { d3.pool with pages := kvDel d3.pool.pages i } }

/-- The policy of the object that holds a page; 4 for none. -/
def Dev.policyOf (d : Dev) (pg : Nat) : Nat :=
  match d.objOf pg with
  | some n => d.get Bar.MEM_OBJ_POLICY n
  | none => 4

/-- Set LOST of the object that holds a page; the first time its allotment is told (R517). -/
def Dev.setLost (d : Dev) (n : Nat) : Dev :=
  if d.flag Bar.MEM_OBJ_LOST n then d
  else (d.set Bar.MEM_OBJ_LOST 1 n).notify (d.get Bar.MEM_OBJ_ALLOT n) 0x04 n

/-- The pool pages that name a physical page. -/
def Dev.pagesNaming (d : Dev) (i : Nat) : List Nat := (d.pool.pmap.filter fun e => e.2 == i).map Prod.fst

/-- Set LOST of a region; the first time its allotment is told (R218). -/
def Dev.setRegionLost (d : Dev) (r : Nat) : Dev :=
  if d.flag Bar.VER_REGION_LOST r then d
  else (d.set Bar.VER_REGION_LOST 1 r).notify (d.get Bar.VER_REGION_ALLOT r) 0x05 r

/-- LOST of every object that holds a physical page, and of the regions whose views hold it (R218, R517). -/
def Dev.losePage (d : Dev) (i : Nat) : Dev :=
  ((d.pagesNaming i).filterMap d.objOf).eraseDups.foldl (fun d n =>
    ((List.range 4096).filter fun r => d.flag Bar.VER_REGION_VALID r && d.get Bar.VER_REGION_VIEW_OBJ r == n &&
      d.flag Bar.MEM_OBJ_VERSIONED n).foldl Dev.setRegionLost (d.setLost n)) d

/-! ## Lines (R168, R169, R196) -/

/-- Frame x 512 + line of a global line number (address / 128). -/
def Dev.lineKey (d : Dev) (ln : Nat) : Option Nat :=
  (d.frameOf (ln / 512)).map fun f => 512 * f + ln % 512

/-- A line reads poisoned. -/
def Dev.linePoisoned (d : Dev) (ln : Nat) : Bool :=
  match d.page? (ln / 512), d.lineKey ln with
  | some p, some k =>
    p.poisoned || d.pool.poison.contains k || kvGet? d.pool.flaws k == some true || d.frameRetired (k / 512)
  | _, _ => true

/-- The NMU of a line: the channel of its 2 KiB unit in the stack of its frame (R122). -/
def Dev.nmuOf (d : Dev) (ln : Nat) : Option Nat :=
  match d.frameOf (ln / 512) with
  | some f => if isT1 f then some (32 * stackOf f + ln / 16 % 32) else none
  | none => none

/-- A read of a line meets its flaw: a correctable one is corrected, written back and counted; an uncorrectable one is counted
and recorded and sets LOST (R169, R517). Media poison of a tier-2 line only reads poisoned (R124). -/
def Dev.meetLine (d : Dev) (ln : Nat) : Dev :=
  match d.lineKey ln with
  | none => d
  | some k => match kvGet? d.pool.flaws k, d.nmuOf ln with
    | some false, some n => ({ d with pool := { d.pool with flaws := kvDel d.pool.flaws k } }.bump Bar.NMU_STAT_CORR 1 n).tapCorrected
    | some true, some n =>
      let a := match d.spanOf (128 * ln) with
        | some i => d.get Bar.MEM_SPAN_ALLOT i
        | none => 0
      let d1 := (d.bump Bar.NMU_STAT_UNCORR 1 n).alm1 Blk.nmu 0x01 n a 0 (128 * ln)
      match d1.pageId (ln / 512) with
      | some i => d1.losePage i
      | none => d1
    | _, _ => d

/-- A read of lines. -/
def Dev.meetLines (d : Dev) (lines : List Nat) : Dev := lines.foldl Dev.meetLine d

/-- A line's channel is in a burst: a request that reaches it waits (R175). -/
def Dev.chanBusy (d : Dev) (ln : Nat) : Bool :=
  match d.nmuOf ln with
  | some n => d.nmus.burst.any fun e => e.2.chans.contains n
  | none => false

/-- A channel of a frame's stack is in a burst. -/
def Dev.stackBusy (d : Dev) (f : Nat) : Bool :=
  isT1 f && d.nmus.burst.any fun e => e.2.chans.any fun n => n / 32 == stackOf f

/-- Mark a line poisoned, in the frame that serves it. -/
def Dev.poisonLine (d : Dev) (ln : Nat) : Dev :=
  match d.lineKey ln with
  | some k => { d with pool := { d.pool with poison := setIns k d.pool.poison } }
  | none => d

def Dev.cleanLine (d : Dev) (ln : Nat) : Dev :=
  match d.lineKey ln with
  | some k => { d with pool := { d.pool with poison := setDel k d.pool.poison, flaws := kvDel d.pool.flaws k } }
  | none => d

/-- The global lines of a range of bytes. -/
def linesOf (addr len : Nat) : List Nat :=
  if len = 0 then [] else (List.range ((addr + len - 1) / 128 + 1 - addr / 128)).map (· + addr / 128)

def Dev.rangePoisoned (d : Dev) (addr len : Nat) : Bool := (linesOf addr len).any d.linePoisoned

/-- One byte of pool memory through the page map. -/
def Dev.poolByte (d : Dev) (addr : Nat) : Byte :=
  match d.frameOf (pageOf addr) with
  | some f => memRead d.pool.mem (65536 * f + addr % 65536)
  | none => 0xFF

def Dev.poolBytes (d : Dev) (addr n : Nat) : List Byte := (List.range n).map fun i => d.poolByte (addr + i)

/-- What the DRAM of a stack holds for a line in a tier-1 frame: the ciphertext under the memory key slot bound to the frame,
with pool address bits [55:7] as the tweak, and 8 check bytes over each 64 B of it (R167). State keeps the plaintext; the cipher
and the code are opaque. DEDUCED (log entry 81). -/
def Dev.storedLine (d : Dev) (ln : Nat) : Option (List Byte × List Byte) :=
  match d.frameOf (ln / 512) with
  | none => none
  | some f =>
    if isT1 f then
      let ct := Config.xtsSeal (kvGetD d.pool.used f 512) ln (d.poolBytes (128 * ln) 128)
      some (ct, Config.checkBytes (ct.take 64) ++ Config.checkBytes (ct.drop 64))
    else none

/-- The page's tier-1 copy becomes dirty. -/
def Dev.markDirty (d : Dev) (pg : Nat) : Dev :=
  match d.pageId pg with
  | none => d
  | some i => { d with pool := { d.pool with
      pages := kvMod d.pool.pages i fun p => { p with dirty := p.dirty || p.copy.isSome } } }

/-- Store bytes within one page. -/
def Dev.poolStore (d : Dev) (addr : Nat) (bs : List Byte) : Dev :=
  match d.frameOf (pageOf addr) with
  | some f => ({ d with pool := { d.pool with
      mem := memWrites d.pool.mem (65536 * f + addr % 65536) bs } }).markDirty (pageOf addr)
  | none => d

/-- The poison of a line after bytes of it are written (R196): poisoned data poisons it, sound data over the whole
line cleans it, and part of a line leaves it as it was. -/
def Dev.writePoison (d : Dev) (addr len : Nat) (poison : Bool) (ln : Nat) : Dev :=
  if poison then d.poisonLine ln
  else if addr ≤ 128 * ln && 128 * ln + 128 ≤ addr + len then d.cleanLine ln
  else d

/-- Write bytes of one page; the answer says whether a line it touches is poisoned afterwards (R196). -/
def Dev.writePool (d : Dev) (addr : Nat) (bs : List Byte) (poison : Bool) : Bool × Dev :=
  let d1 := (linesOf addr bs.length).foldl (fun d ln => d.writePoison addr bs.length poison ln) (d.poolStore addr bs)
  (d1.rangePoisoned addr bs.length, d1)

/-- Write bytes that may cross pages. -/
def Dev.writePages (d : Dev) (addr : Nat) (bs : List Byte) (poison : Bool) : Nat → Dev
  | 0 => d
  | fuel + 1 =>
    if bs.isEmpty then d
    else
      let n := 65536 - addr % 65536
      ((d.writePool addr (bs.take n) poison).2).writePages (addr + n) (bs.drop n) poison fuel

def Dev.writeMem (d : Dev) (addr : Nat) (bs : List Byte) (poison : Bool) : Dev :=
  d.writePages addr bs poison (bs.length / 65536 + 2)

/-! ## Use and holds (R138, R139, R172) -/

/-- The session of a unit's invocation. -/
def UnitSt.session (u : UnitSt) : Option Nat := u.inv.bind Inv.sess

/-- A session's pages are held: a hold of R138, or an invocation of the session. -/
def Dev.sesHeld (d : Dev) (id : Nat) : Bool :=
  (kvGet? d.pool.holds id).isSome || d.units.any fun e => e.2.state != 0 && e.2.session == some id

/-- A pool page is held in tier 1. -/
def Dev.pageHeld (d : Dev) (pg : Nat) : Bool :=
  d.nmus.cmds.any (fun e => e.2.held.contains pg) ||
  (match d.objOf pg with
    | none => false
    | some n => d.sess.any fun e => d.ses e.1 Ses.CACHE_OBJ == n && d.sesHeld e.1)

/-- A physical page is held. -/
def Dev.idHeld (d : Dev) (i : Nat) : Bool := (d.pagesNaming i).any d.pageHeld

/-- A page is read or written: its last use, and its hot count while it is served from tier 2; the count that reaches
HOT_COUNT within a window asks for its promotion. -/
def Dev.touch (d : Dev) (pg : Nat) : Dev :=
  match d.pageId pg with
  | none => d
  | some i =>
    match kvGet? d.pool.pages i with
    | none => d
    | some p =>
      let cached := d.policyOf pg == 1 && p.copy.isNone && p.home.isSome
      let win := d.now / (1000 * max 1 (d.get Bar.MEM_TIER_CFG_HOT_WINDOW_US))
      let n := if p.hotWin = win then p.hot + 1 else 1
      let d1 := d.setPage i { p with
        lastUse := d.now, hot := if cached then n else p.hot, hotWin := if cached then win else p.hotWin }
      if cached && decide (n = d.get Bar.MEM_TIER_CFG_HOT_COUNT) then
        { d1 with pool := { d1.pool with jobs := d1.pool.jobs ++ [⟨0, none, 0, 0, [pg]⟩] } }
      else d1

/-! ## Migration (R127, R138-R141) -/

/-- Start a page copy. -/
def Dev.startCopy (d : Dev) (i kind dst : Nat) (dst2 : Option Nat) (owner : Nat) : Dev :=
  { d with pool := { d.pool with copies := kvPut d.pool.copies i ⟨kind, dst, dst2, owner, false⟩ } }

/-- Drop the tier-1 copy of a page that is clean; start to write a dirty one back (R141). -/
def Dev.demoteId (d : Dev) (i : Nat) : Dev :=
  match kvGet? d.pool.pages i with
  | none => d
  | some p =>
    match p.copy, p.home with
    | some c, some h =>
      if (kvGet? d.pool.copies i).isSome then d
      else if p.dirty then d.startCopy i 1 h none 0
      else (((d.setPage i { p with copy := none }).releaseFrame c).bump Bar.MEM_TIER_CNT_DEMOTED 1)
    | _, _ => d

/-- The least recently used tier-1 copy that is not held and not moving. -/
def Dev.lru (d : Dev) : Option Nat :=
  (d.pool.pages.foldl (fun (best : Option (Nat × Nat)) e =>
    if e.2.copy.isSome && e.2.home.isSome && (kvGet? d.pool.copies e.1).isNone && !d.idHeld e.1 then
      match best with
      | none => some (e.1, e.2.lastUse)
      | some b => if e.2.lastUse < b.2 then some (e.1, e.2.lastUse) else best
    else best) none).map Prod.fst

/-- Demote copies, least recently used first, until T1_FREE and the frames being written back reach LOW_WATER plus
4,096 (R139). -/
def Dev.demoteLow (d : Dev) : Nat → Dev
  | 0 => d
  | fuel + 1 =>
    let coming := (d.pool.copies.filter fun e => e.2.kind == 1).length
    if d.get Bar.MEM_TIER_CFG_LOW_WATER + 4096 ≤ d.t1Free + coming then d
    else match d.lru with
      | none => d
      | some i => (d.demoteId i).demoteLow fuel

/-- Low-water demotion starts below LOW_WATER and goes on until T1_FREE has reached LOW_WATER plus 4,096. -/
def Dev.lowWater (d : Dev) : Dev :=
  let on := if d.t1Free < d.get Bar.MEM_TIER_CFG_LOW_WATER then true
    else d.pool.lowering && decide (d.t1Free < d.get Bar.MEM_TIER_CFG_LOW_WATER + 4096)
  let d1 : Dev := { d with pool := { d.pool with lowering := on } }
  if on then d1.demoteLow (d.pool.pages.length + 1) else d1

/-- Page number within its object, home die and allotment of a pool page. -/
def Dev.placeOf (d : Dev) (pg : Nat) : Nat × Nat × Nat :=
  match d.objOf pg with
  | none => (0, 0, 0)
  | some n => (pg - d.get Bar.MEM_OBJ_BASE_PAGE n, d.get Bar.MEM_OBJ_HOME_DIE n, d.get Bar.MEM_OBJ_ALLOT n)

/-- Some page copy is freeing or filling tier-1 frames. -/
def Dev.copiesRun (d : Dev) : Bool := d.pool.copies.any fun e => e.2.kind == 1

/-- What one page of a job needs now: done, kept waiting, or nothing left to try. -/
inductive Moved where
  | done
  | wait
  | short
deriving DecidableEq, Repr

/-- Promote one page (R139): a free tier-1 frame, else one that a demotion frees at once. It waits for a copy of the page in
progress, so that the later grant decides (R141). -/
def Dev.promotePage (d : Dev) (pg : Nat) : Nat → Moved × Dev
  | 0 => (.wait, d)
  | fuel + 1 =>
    match d.pageId pg with
    | none => (.done, d)
    | some i =>
      match kvGet? d.pool.pages i with
      | none => (.done, d)
      | some p =>
        if (kvGet? d.pool.copies i).isSome then (.wait, d)
        else if p.copy.isSome || p.home.isNone || d.policyOf pg != 1 then (.done, d)
        else
          let pl := d.placeOf pg
          match d.allocT1 pl.2.1 pl.1 pl.2.2 with
          | some (f, d1) => (.wait, d1.startCopy i 0 f none pg)
          | none => match d.lru with
            | none => (if d.copiesRun then .wait else .short, d)
            | some v =>
              let d1 := d.demoteId v
              if (kvGet? d1.pool.copies v).isSome then (.wait, d1) else d1.promotePage pg fuel

/-- Demote one page; it waits while the page is held or moving, so that the later grant decides (R141). -/
def Dev.demotePage (d : Dev) (pg : Nat) : Moved × Dev :=
  match d.pageId pg with
  | none => (.done, d)
  | some i =>
    match kvGet? d.pool.pages i with
    | none => (.done, d)
    | some p =>
      if (kvGet? d.pool.copies i).isSome then (.wait, d)
      else if p.copy.isNone || p.home.isNone then (.done, d)
      else if d.idHeld i then (.wait, d)
      else
        let d1 := d.demoteId i
        (if (kvGet? d1.pool.copies i).isSome then .wait else .done, d1)

/-- A frame lies on a link. -/
def onLink (l f : Nat) : Bool := !isT1 f && linkOf f == l

/-- The pool pages to be moved for a link (R127, R128): those homed on it, those that a copy in progress brings to it, and the
CACHED pages that a failure has left with their tier-1 copy alone. -/
def Dev.linkPages (d : Dev) (l : Nat) : List Nat :=
  (d.pool.pmap.filter fun e =>
    (match kvGet? d.pool.pages e.2 with
      | some p => (match p.home with
        | some h => onLink l h
        | none => p.copy.isSome && d.policyOf e.1 == 1)
      | none => false) ||
    (match kvGet? d.pool.copies e.2 with
      | some c => onLink l c.dst || (match c.dst2 with
        | some h => onLink l h
        | none => false)
      | none => false)).map Prod.fst

/-- Re-home one page away from a draining or failed link (R127, R128). -/
def Dev.rehomePage (d : Dev) (link pg : Nat) : Moved × Dev :=
  match d.pageId pg with
  | none => (.done, d)
  | some i =>
    match kvGet? d.pool.pages i with
    | none => (.done, d)
    | some p =>
      let off := match p.home with
        | some h => onLink link h
        | none => p.copy.isSome && d.policyOf pg == 1
      if (kvGet? d.pool.copies i).isSome then (.wait, d)
      else if !off then (.done, d)
      else
        let pl := d.placeOf pg
        match d.allocT2 pl.1 pl.2.2 with
        | some (f, d1) => (.wait, d1.startCopy i 2 f none pg)
        | none => (.short, d)

/-- Move one page to the tier of its object's new policy (R135). -/
def Dev.policyPage (d : Dev) (t1 : Bool) (pg : Nat) : Moved × Dev :=
  match d.pageId pg with
  | none => (.done, d)
  | some i =>
    match kvGet? d.pool.pages i with
    | none => (.done, d)
    | some p =>
      match p.home with
      | none => (.done, d)
      | some h =>
        if (kvGet? d.pool.copies i).isSome then (.wait, d)
        else if isT1 h = t1 then
          (if p.copy.isSome && d.policyOf pg != 1 then
            (if d.idHeld i then (.wait, d) else
             let d1 := d.demoteId i
             (if (kvGet? d1.pool.copies i).isSome then .wait else .done, d1)) else (.done, d))
        else if !t1 && d.idHeld i then (.wait, d)
        else
          let pl := d.placeOf pg
          match if t1 then d.allocT1 pl.2.1 pl.1 pl.2.2 else d.allocT2 pl.1 pl.2.2 with
          | some (f, d1) => (.wait, d1.startCopy i 3 f none pg)
          | none => (.short, d)

/-- One page of a job; of a destroyed object nothing moves any more (R137). -/
def Dev.movePage (d : Dev) (j : Job) (pg : Nat) : Moved × Dev :=
  if (d.objOf pg).isNone then (.done, d)
  else if j.kind = 0 then d.promotePage pg (d.pool.pages.length + 2)
  else if j.kind = 1 then d.demotePage pg
  else if j.kind = 2 then d.rehomePage j.arg pg
  else d.policyPage (j.arg == 1) pg

/-- Every page of a job in order: the pages still to do, and whether the job has run out of frames. -/
def Dev.movePages (d : Dev) (j : Job) : List Nat → List Nat × Bool × Dev
  | [] => ([], false, d)
  | pg :: ps =>
    match d.movePage j pg with
    | (.done, d1) => d1.movePages j ps
    | (.wait, d1) =>
      let r := d1.movePages j ps
      (pg :: r.1, r.2.1, r.2.2)
    | (.short, d1) => (pg :: ps, true, d1)

/-- A command window completes. -/
def Dev.objDone (d : Dev) (w status : Nat) : Dev :=
  (d.set Bar.MEM_OBJ_RESULT_STATUS status w).set Bar.MEM_OBJ_RESULT_DONE 1 w

def Dev.winDone (d : Dev) (w : Option Nat) (status : Nat) : Dev :=
  match w with
  | some x => d.objDone x status
  | none => d

/-- A job has no page left, or stops for want of frames (R127, R139). The pages of a link are looked up anew each time. -/
def Dev.jobStep (d : Dev) (j0 : Job) : Option Job × Dev :=
  let j : Job := if j0.kind = 2 then { j0 with pages := d.linkPages j0.arg } else j0
  let r := d.movePages j j.pages
  if r.1.isEmpty then
    (none, r.2.2.winDone j.win Code.ok)
  else if r.2.1 then
    if j.kind = 0 then
      if r.2.2.pool.copies.any (fun e => r.1.any fun pg => d.pageId pg == some e.1) then
        (some { j with pages := r.1 }, r.2.2)
      else (none, (r.2.2.bump Bar.MEM_TIER_CNT_WARM_SHORT 1).winDone j.win Code.busy)
    else if j.kind = 2 then
      (some { j with pages := r.1 },
        if r.2.2.get Bar.MEM_CXL_STATUS_STATE j.arg = 3 then r.2.2.set Bar.MEM_CXL_STATUS_DRAIN_STUCK 1 j.arg else r.2.2)
    else (some { j with pages := r.1 }, r.2.2)
  else
    (some { j with pages := r.1 },
      if j.kind = 2 then r.2.2.set Bar.MEM_CXL_STATUS_DRAIN_STUCK 0 j.arg else r.2.2)

/-- A granted request, a page copy or an NMU command still uses a pool page. -/
def Dev.pageBusy (d : Dev) (pg : Nat) : Bool :=
  d.copying pg || d.coh.txns.any (fun e => e.2.lines.any fun ln => ln / 512 == pg) ||
  d.nmus.cmds.any fun e => e.2.held.contains pg

/-- Pages of destroyed objects are freed once nothing uses them, and a DESTROY ends with its last page (R137). -/
def Dev.settleLeaving (d : Dev) : Dev :=
  let ready := d.pool.leaving.filter fun e => !d.pageBusy e.1
  let d1 := ready.foldl (fun d e => d.unmapPage e.1) { d with pool := { d.pool with
    leaving := d.pool.leaving.filter fun e => d.pageBusy e.1 } }
  let d2 : Dev := { d1 with coh := { d1.coh with
    dir := d1.coh.dir.filter fun e => !(ready.any fun x => x.1 == e.1 / 512)
    ways := d1.coh.ways.filter fun e => !(ready.any fun x => x.1 == e.1 / 512) } }
  (ready.filterMap Prod.snd).eraseDups.foldl (fun d w =>
    if d.pool.leaving.any (fun e => e.2 == some w) then d else d.objDone w Code.ok) d2

/-- All jobs in order, then low-water demotion. -/
def Dev.pump (d0 : Dev) : Dev :=
  let d := d0.settleLeaving
  let d1 : Dev := { d with pool := { d.pool with jobs := [] } }
  (d.pool.jobs.foldl (fun d j =>
    match d.jobStep j with
    | (none, d2) => d2
    | (some k, d2) => { d2 with pool := { d2.pool with jobs := d2.pool.jobs ++ [k] } }) d1).lowWater

/-- MEM_OBJ.MIGRATING: a command or a policy change is moving pages of the object. -/
def Dev.migrating (d : Dev) (n : Nat) : Bool := d.pool.jobs.any fun j => j.obj == n && (j.kind == 3 || j.win.isSome)

/-- Ask for page moves in the background. -/
def Dev.addJob (d : Dev) (j : Job) : Dev := { d with pool := { d.pool with jobs := d.pool.jobs ++ [j] } }

/-- The pages of an object in ascending order. -/
def Dev.objPages (d : Dev) (n : Nat) : List Nat :=
  (List.range (d.get Bar.MEM_OBJ_PAGES n)).map (· + d.get Bar.MEM_OBJ_BASE_PAGE n)

/-- Promote a session's cache object (WARM, or an INVOKE that finds pages outside tier 1). -/
def Dev.promoteSession (d : Dev) (id : Nat) : Dev :=
  let ps := (d.objPages (d.ses id Ses.CACHE_OBJ)).filter fun pg => !d.inT1 pg
  if ps.isEmpty then d else (d.addJob ⟨0, none, d.ses id Ses.CACHE_OBJ, 0, ps⟩).pump

/-! ## The end of a page copy (R140, R216) -/

/-- A page copy ends: the page map switches, the old frame is freed, the move is counted. -/
def Dev.endCopy (d0 : Dev) (i : Nat) : Dev :=
  let d := match (d0.pagesNaming i).head? with
    | some pg => d0.meetLines ((List.range 512).map (· + 512 * pg))
    | none => d0
  match kvGet? d.pool.copies i, kvGet? d.pool.pages i with
  | some c, some p =>
    let d1 : Dev := { d with pool := { d.pool with copies := kvDel d.pool.copies i } }
    match p.frame with
    | none => d1
    | some src =>
      if c.kind = 0 then
        ((d1.copyFrame src c.dst).setPage i { p with copy := some c.dst, dirty := false }).bump
          Bar.MEM_TIER_CNT_PROMOTED 1
      else if c.kind = 1 then
        ((((d1.copyFrame src c.dst).setPage i { p with copy := none, dirty := false }).releaseFrame src).bump
          Bar.MEM_TIER_CNT_WRITEBACK 1).bump Bar.MEM_TIER_CNT_DEMOTED 1
      else if c.kind = 2 then
        let d2 := (d1.copyFrame src c.dst).setPage i { p with home := some c.dst, dirty := false }
        match p.home with
        | some h => d2.releaseFrame h
        | none => d2
      else if c.kind = 3 then
        let d2 := (d1.copyFrame src c.dst).setPage i { p with home := some c.dst, copy := none, dirty := false }
        let d3 := match p.home with
          | some h => d2.releaseFrame h
          | none => d2
        match p.copy with
        | some x => d3.releaseFrame x
        | none => d3
      else
        -- copy-on-write: the working page takes the new frames and leaves the shared page
        let d2 := d1.copyFrame src c.dst
        let d3 := d2.setPage i { p with refs := p.refs - 1 }
        let n := d3.pool.nextPage
        { d3 with pool := { d3.pool with
            pmap := kvPut d3.pool.pmap c.owner n
            pages := kvPut d3.pool.pages n { p with
              home := match c.dst2 with
                | some h => some h
                | none => some c.dst
              copy := if c.dst2.isSome then some c.dst else none
              dirty := c.dst2.isSome, refs := 1 }
            nextPage := n + 1 } }
  | _, _ => d

/-! ## Copy-on-write (R216, R217) -/

/-- The page is shared with a version. -/
def Dev.shared (d : Dev) (pg : Nat) : Bool :=
  match d.page? pg with
  | some p => decide (1 < p.refs)
  | none => false

/-- Take the frames for a copy-on-write and start the copy; false when no frame is free. -/
def Dev.startCow (d : Dev) (pg : Nat) : Bool × Dev :=
  match d.pageId pg with
  | none => (true, d)
  | some i =>
    match kvGet? d.pool.pages i, kvGet? d.pool.copies i with
    | some p, none =>
      let pl := d.placeOf pg
      let r := match p.frame with
        | some f => if isT1 f then d.allocT1 pl.2.1 pl.1 pl.2.2 else d.allocT2 pl.1 pl.2.2
        | none => none
      match r with
      | none => (false, d)
      | some (f, d1) =>
        if p.copy.isSome then
          match d1.allocT2 pl.1 pl.2.2 with
          | none => (false, d1.releaseFrame f)
          | some (h, d2) => (true, d2.startCopy i 4 f (some h) pg)
        else (true, d1.startCopy i 4 f none pg)
    | _, _ => (true, d)

end Sys2Proof.Machine
end

