-- ==== Sys2Proof/Machine/Requests.lean ====
section
/-! DEFINITION. The device's own requests: tags (R67), issue and bounds (R90), addresses outside the package (R512). -/

namespace Sys2Proof.Machine

/-- Tags of a cluster and of a package unit (R67). -/
def clusterTags (c : Nat) : Nat × Nat := (2048 * c, 2048)
def unitTags (u : Nat) : Nat × Nat := (32768 + 4096 * u, 4096)

/-- The lowest tag of a range that no request and no snoop uses. -/
def Dev.freeTag (d : Dev) (range : Nat × Nat) (busy : List Nat) : Option Nat :=
  firstGap (range.1 + range.2)
    (((kvKeys d.reqs).filter fun t => range.1 ≤ t).foldl (fun l t => setIns t l)
      ((busy.filter fun t => range.1 ≤ t).foldl (fun l t => setIns t l) [])) range.1

/-- Issue a request at an internal port under a free tag of a range; none when no tag is free. Its bound runs from its
entry into the Trellis. -/
def Dev.issue (d : Dev) (range : Nat × Nat) (port : TPort) (f : Frame) (cont : Cont) : Option Dev :=
  match d.freeTag range [] with
  | none => none
  | some t =>
    let g := { f with tag := t }
    let d1 : Dev := { d with reqs := kvPut d.reqs t {
      f := g, port := port, deadline := none, damaged := 0, retryNs := none, waitMap := none
      naked := false, cont := cont } }
    some (d1.send port g)

/-- A request of the tier logic. -/
def Cont.ofTier : Cont → Bool
  | .forward _ => true
  | .lent _ => true
  | _ => false

/-- A request of the tier logic to an endpoint is unresolved after a NAK: younger ones to it are held (R78). -/
def Dev.tierHeld (d : Dev) (ep : Nat) : Bool :=
  d.reqs.any fun e => e.2.naked && e.2.cont.ofTier && e.2.f.dstEp == ep

/-- Issue one waiting request of the tier logic, or keep it waiting: behind an earlier one to its lender, behind a rejected
one, or for a tag (R34, R78, R131). It carries the epochs in force when it is issued (R400). -/
def Dev.tierNext (d : Dev) (e : Nat × Frame × Cont) : Dev :=
  let wait : Dev := { d with coh := { d.coh with tierQ := d.coh.tierQ ++ [e] } }
  let f : Frame := { e.2.1 with srcEp := d.myEp, mapEpoch := d.mapEpoch, mbrEpoch := d.mbrEpoch }
  if d.coh.tierQ.any (fun x => x.2.1.dstEp == f.dstEp) || d.tierHeld f.dstEp then wait
  else (d.issue (unitTags 0) (.memSide e.1) f e.2.2).getD wait

/-- The waiting requests of the tier logic, in order. -/
def Dev.pumpTier (d : Dev) : Dev :=
  d.coh.tierQ.foldl Dev.tierNext { d with coh := { d.coh with tierQ := [] } }

/-- A request of the tier logic, sent from the memory side of a die as soon as it may go. -/
def Dev.issueTier (d : Dev) (die : Nat) (f : Frame) (cont : Cont) : Dev := d.tierNext (die, f, cont)

end Sys2Proof.Machine
end

