-- ==== Sys2Proof/Machine/Directory.lean ====
section
/-! DEFINITION. The directory of a coherence home: agents, entries, snoops and reclaim (R185, R188, R193-R200). Lines
are numbered address / 128. -/

namespace Sys2Proof.Machine

/-! ## Agents (R185, R200) -/

/-- The valid COH_AGENT entry of an endpoint. -/
def Dev.agentIdx (d : Dev) (ep : Nat) : Option Nat :=
  (List.range 1024).find? fun i => d.flag Bar.COH_AGENT_VALID i && d.get Bar.COH_AGENT_ENDPOINT i == ep

/-- The home sends an agent no snoop: it is fenced or being reclaimed (R200). -/
def Dev.agentOut (d : Dev) (ep : Nat) : Bool :=
  match d.agentIdx ep with
  | none => true
  | some i => d.flag Bar.COH_AGENT_RECLAIMING i || d.flag Bar.COH_AGENT_FENCED i

/-! ## Entries (R198) -/

def DirEnt.exact (e : DirEnt) : List Nat :=
  (match e.holder with
    | some h => [h]
    | none => []) ++ e.sharers

/-- Every agent that an entry may cover, the coarse groups expanded to valid agents that are neither fenced nor being
reclaimed (R198, R200). -/
def Dev.entHolders (d : Dev) (e : DirEnt) : List Nat :=
  let grp := if e.coarse then
      ((List.range 1024).filter fun i => d.flag Bar.COH_AGENT_VALID i && !d.flag Bar.COH_AGENT_FENCED i &&
        !d.flag Bar.COH_AGENT_RECLAIMING i && e.vec.testBit (d.get Bar.COH_AGENT_ENDPOINT i / 4096)).map fun i => d.get Bar.COH_AGENT_ENDPOINT i
    else []
  (e.exact ++ grp).eraseDups

/-- A line is in a transaction. -/
def Dev.lineBusy (d : Dev) (ln : Nat) : Bool := d.coh.txns.any fun e => e.2.lines.contains ln

/-- The set of a line, and the lines that have a way of a set in the directory of a die: those with an entry, and those whose
transaction needs one. -/
def dirSet (ln : Nat) : Nat := Config.dirHash ln % 524288
def Dev.setLines (d : Dev) (die set : Nat) : Kv Nat :=
  d.coh.ways.filter fun e => dirSet e.1 == set && (d.homeDie (128 * e.1)).getD 0 == die

/-- A line takes the lowest free way of its set, unless it has one. -/
def Dev.takeWay (d : Dev) (ln : Nat) : Dev :=
  if (kvGet? d.coh.ways ln).isSome then d
  else
    let used := (d.setLines ((d.homeDie (128 * ln)).getD 0) (dirSet ln)).map Prod.snd
    match (List.range 16).find? fun w => !used.contains w with
    | some w => { d with coh := { d.coh with ways := kvPut d.coh.ways ln w } }
    | none => d

/-- A line without an entry and without a transaction gives its way back. -/
def Dev.dropWay (d : Dev) (ln : Nat) : Dev :=
  if (kvGet? d.coh.dir ln).isSome || d.lineBusy ln then d
  else { d with coh := { d.coh with ways := kvDel d.coh.ways ln } }

/-- Store an entry in the way of its line; one that names nobody is dropped. -/
def Dev.setEnt (d : Dev) (ln : Nat) (e : DirEnt) : Dev :=
  if e.holder.isNone && e.sharers.isEmpty && (!e.coarse || e.vec == 0) then
    ({ d with coh := { d.coh with dir := kvDel d.coh.dir ln } }).dropWay ln
  else ({ d with coh := { d.coh with dir := kvPut d.coh.dir ln e } }).takeWay ln

/-- An agent leaves an entry; an entry whose F leaves names no F. -/
def Dev.dropAgent (d : Dev) (ln ep : Nat) : Dev :=
  match kvGet? d.coh.dir ln with
  | none => d
  | some e =>
    if e.holder = some ep then d.setEnt ln { e with holder := none, state := 1 }
    else d.setEnt ln { e with sharers := e.sharers.filter (· != ep) }

/-- The sharers with one more (R198): a fourth switches the entry to coarse mode. -/
def DirEnt.addSharer (e : DirEnt) (ep : Nat) : DirEnt :=
  if e.coarse then { e with vec := e.vec ||| 2 ^ (ep / 4096) }
  else if e.sharers.contains ep then e
  else if e.sharers.length < 3 then { e with sharers := setIns ep e.sharers }
  else { e with
    coarse := true, sharers := [], vec := (e.sharers ++ [ep]).foldl (fun v x => v ||| 2 ^ (x / 4096)) 0 }

/-- The M or E holder becomes a sharer, keeping a clean copy. -/
def Dev.holderToS (d : Dev) (ln : Nat) : Dev :=
  match kvGet? d.coh.dir ln with
  | none => d
  | some e => match e.holder with
    | none => d
    | some h => d.setEnt ln ({ e with holder := none, state := 1 }.addSharer h)

/-- The M holder becomes the F (R194). -/
def Dev.holderToF (d : Dev) (ln : Nat) : Dev :=
  match kvGet? d.coh.dir ln with
  | none => d
  | some e => d.setEnt ln { e with state := if e.holder.isSome then 2 else 1 }

/-- Some agent other than `ep` holds a line. -/
def Dev.othersHold (d : Dev) (ln ep : Nat) : Bool :=
  match kvGet? d.coh.dir ln with
  | none => false
  | some e => e.exact.any (· != ep) || (e.coarse && e.vec != 0)

/-- The grant of a readable copy: E where no other agent held the line when the transaction opened, else F, the former E, M
or F becoming S (R193, R515). -/
def Dev.grantShared (d : Dev) (ln ep : Nat) (shared : Bool) : Nat × Dev :=
  if !shared && !d.othersHold ln ep then (3, d.setEnt ln ⟨3, some ep, [], false, 0⟩)
  else
    let e0 := (kvGet? d.coh.dir ln).getD ⟨2, none, [], false, 0⟩
    let e1 := { e0 with
      holder := if e0.holder = some ep then none else e0.holder, sharers := e0.sharers.filter (· != ep) }
    let e2 := match e1.holder with
      | some h => { e1 with holder := none }.addSharer h
      | none => e1
    (2, d.setEnt ln { e2 with state := 2, holder := some ep })

/-- The grant of M. -/
def Dev.grantOwn (d : Dev) (ln ep : Nat) : Dev := d.setEnt ln ⟨4, some ep, [], false, 0⟩

/-- A line shown in M and its holder. -/
def Dev.mHolder (d : Dev) (ln : Nat) : Option Nat :=
  match kvGet? d.coh.dir ln with
  | some e => if e.state = 4 then e.holder else none
  | none => none

/-- The line in memory, or in a lent range, becomes poisoned by the home. -/
def Dev.homePoison (d : Dev) (ln : Nat) : Dev :=
  match d.lineKey ln with
  | some _ => d.poisonLine ln
  | none => { d with coh := { d.coh with lent := setIns ln d.coh.lent } }

/-- What happens to one agent's copy of a line when the agent is reclaimed (R200). -/
def Dev.reclaimLine (d : Dev) (ep ln : Nat) : Dev :=
  match kvGet? d.coh.dir ln with
  | none => d
  | some e =>
    if e.holder = some ep then
      if e.state = 4 then (d.homePoison ln).setEnt ln { e with holder := none, state := 1 }
      else if e.state = 3 then d.setEnt ln { e with holder := none, state := 1 }
      else match e.sharers with
        | x :: xs => if e.coarse then d.setEnt ln { e with holder := none, state := 1 }
          else d.setEnt ln { e with holder := some x, sharers := xs, state := 2 }
        | [] => d.setEnt ln { e with holder := none, state := 1 }
    else d.setEnt ln { e with sharers := e.sharers.filter (· != ep) }

/-- A transaction that reaches a line treats the agents that get no snoop as reclaimed (R200). -/
def Dev.scrubLine (d : Dev) (ln : Nat) : Dev :=
  match kvGet? d.coh.dir ln with
  | none => d
  | some e => (e.exact.filter d.agentOut).foldl (fun d ep => d.reclaimLine ep ln) d

/-! ## Snoops (R188, R191, R199) -/

def copShare : Nat := 0x8
def copInv : Nat := 0x9
def copFwd : Nat := 0xA

/-- What a request wants of a line. -/
inductive Want where
  | read
  | inv
  | rdShared
  | rdOwn
  | share
deriving DecidableEq, Repr

/-- The snoops a line needs (R193, R194, R203, R204): agent, message, shown in M. -/
def Dev.snoopsFor (d : Dev) (w : Want) (req ln : Nat) : List (Nat × Nat × Bool) :=
  match kvGet? d.coh.dir ln with
  | none => []
  | some e =>
    let m := e.state == 4
    let hold := match e.holder with
      | some h => [h]
      | none => []
    match w with
    | .read =>
      if m then hold.map fun h => (h, copShare, true)
      else if e.state = 2 ∧ !d.inT1 (ln / 512) then hold.map fun h => (h, copFwd, false) else []
    | .share => if m then hold.map fun h => (h, copShare, true) else []
    | .inv => (d.entHolders e).map fun h => (h, copInv, m)
    | .rdOwn => ((d.entHolders e).filter (· != req)).map fun h => (h, copInv, m)
    | .rdShared =>
      let others := hold.filter (· != req)
      if e.state = 3 ∨ e.state = 4 then others.map fun h => (h, copShare, m)
      else if e.state = 2 ∧ !d.inT1 (ln / 512) then others.map fun h => (h, copFwd, false) else []

/-- The allotment of a pool address. -/
def Dev.allotOf (d : Dev) (addr : Nat) : Nat :=
  match d.spanOf addr with
  | some i => d.get Bar.MEM_SPAN_ALLOT i
  | none => 0

/-- Tags of the snoops that a die's home has outstanding. -/
def Dev.snoopTags (d : Dev) (die : Nat) : List Nat :=
  (d.coh.txns.filter fun e => e.2.die == die).flatMap fun e => e.2.snoops.map Snoop.tag

/-- Send one snoop under a free tag of the home (R67, R188). -/
def Dev.sendSnoop (d : Dev) (die tag ep cop ln : Nat) : Dev :=
  let a := 128 * ln
  d.send (.memSide die) (d.newFrame Ty.snoop 6 (d.allotOf a) ep tag 0 0 (cop <<< 28 ||| addrHi a) (addrLo a) 0 [])

/-- Rewrite a transaction. -/
def Dev.modTxn (d : Dev) (id : Nat) (g : Txn → Txn) : Dev :=
  { d with coh := { d.coh with txns := kvMod d.coh.txns id g } }

/-- Send the snoops of a transaction that tags are free for; the others wait (R191). A snoop's bound runs from its sending. -/
def Dev.sendUnsent (d : Dev) (id : Nat) : Dev :=
  match kvGet? d.coh.txns id with
  | none => d
  | some t =>
    if t.unsent.isEmpty then d
    else
      let base := 32768 + 4096 * (3 + t.die)
      let used := d.snoopTags t.die
      let free := ((List.range 4096).map (· + base)).filter fun x => !used.contains x
      let bound := d.now + 1000 * d.get Bar.COH_CFG_SNOOP_TIMEOUT_US
      let snoops := (t.unsent.zip free).map fun x => {
        tag := x.2, agent := x.1.2.1, line := x.1.1, cop := x.1.2.2.1, deadline := bound, wasM := x.1.2.2.2
        wb := false, empty := false : Snoop }
      let d1 := d.modTxn id fun x => { x with snoops := x.snoops ++ snoops, unsent := x.unsent.drop snoops.length }
      snoops.foldl (fun d s => d.sendSnoop t.die s.tag s.agent s.cop s.line) d1

/-- Snoops that waited for a tag go out, transactions in the order they opened. -/
def Dev.pumpSnoops (d : Dev) : Dev := (kvKeys d.coh.txns).foldl Dev.sendUnsent d

/-- Open a transaction and send its snoops (R191). -/
def Dev.openTxn (d0 : Dev) (die : Nat) (kind : TxnKind) (src : TPort) (f : Frame) (members : List (TPort × Frame))
    (lines : List Nat) (w : Want) : Nat × Dev :=
  let d := lines.foldl Dev.scrubLine d0
  let need := lines.flatMap fun ln => (d.snoopsFor w f.srcEp ln).map fun s => (ln, s)
  let id := d.coh.next
  let d1 : Dev := { d with coh := { d.coh with
    next := id + 1
    txns := kvPut d.coh.txns id {
      die := die, kind := kind, src := src, f := f, members := members, lines := lines, snoops := [], unsent := need
      data := [], shared := lines.any fun ln => d.othersHold ln f.srcEp
      remote := kind == .frame && d.policyOf (pageOf (Frame.addr f)) == 3, fwd := false } } }
  (id, d1.sendUnsent id)

/-- The transaction and the snoop that a tag names. -/
def Dev.snoopByTag (d : Dev) (tag : Nat) : Option (Nat × Snoop) :=
  d.coh.txns.findSome? fun e => (e.2.snoops.find? fun s => s.tag == tag).map fun s => (e.1, s)

/-- The kind of the walk that a transaction belongs to meets a poisoned line. -/
def Dev.walkPoison (d : Dev) (kind : TxnKind) : Dev :=
  { d with coh := { d.coh with walks := d.coh.walks.map fun w =>
      if w.kind == kind then { w with poisoned := true } else w } }

/-- A COH event: its record with the agent and the line, and the COH vector (R197, R199, R515). -/
def Dev.cohEvent (d : Dev) (code ep ln : Nat) : Dev :=
  (d.alm1 Blk.coh code ((d.agentIdx ep).getD 0) (d.allotOf (128 * ln)) 0 (128 * ln)).sysVec Blk.coh

/-- A protocol error of an agent (R197, R515): counted, the line poisoned, the agent dropped, recorded. -/
def Dev.protoErr (d : Dev) (die ep ln : Nat) : Dev :=
  ((((d.bump Bar.COH_STAT_PROTO_ERR 1 die).homePoison ln).dropAgent ln ep).cohEvent 0x02 ep ln)

/-- Remove a settled snoop: its tag is free for one that waits. -/
def Dev.settled (d : Dev) (id tag : Nat) : Dev :=
  (d.modTxn id fun t => { t with snoops := t.snoops.filter fun s => s.tag != tag }).pumpSnoops

/-- The accepted entry that backs a page, unless it is being withdrawn (R131, R133). -/
def Dev.lentBy (d : Dev) (pg : Nat) : Option Nat :=
  (List.range 1024).find? fun i => d.flag Bar.MEM_LEND_VALID i && (kvGet? d.pool.withdraw i).isNone &&
    decide (d.get Bar.MEM_LEND_POOL_PAGE i ≤ pg) &&
    decide (pg < d.get Bar.MEM_LEND_POOL_PAGE i + d.get Bar.MEM_LEND_PAGES i)

/-- The lender's address of a pool address that an entry backs. -/
def Dev.lentAddr (d : Dev) (i a : Nat) : Nat :=
  a - 65536 * d.get Bar.MEM_LEND_POOL_PAGE i + 65536 * d.get Bar.MEM_LEND_LOCAL_PAGE i

/-- Data of an M holder goes to memory, or to the lender of the line by a write that waits for its turn and is never lost
(R131, R193, R194, R203); of a range that is being withdrawn it is dropped (R133). -/
def Dev.lineStore (d : Dev) (die ln : Nat) (bs : List Byte) (poison : Bool) : Dev :=
  match d.lineKey ln with
  | some _ => (d.writePool (128 * ln) bs poison).2
  | none =>
    match d.lentBy (ln / 512) with
    | none => d
    | some i =>
      let a := d.lentAddr i (128 * ln)
      let lent := if poison then setIns ln d.coh.lent else setDel ln d.coh.lent
      ({ d with coh := { d.coh with lent := lent } }).issueTier die (d.newFrame Ty.write 4 (d.allotOf (128 * ln))
        (d.get Bar.MEM_LEND_LENDER_EP i) 0 0 (if poison then 1 else 0) (addrHi a) (addrLo a) 0 bs) (.lent ln)

/-- The lender did not take a line's data: the line is poisoned. DESIGN CHOICE (log entry 71). -/
def Dev.lentDone (d : Dev) (ln status : Nat) : Dev := if status = Code.ok then d else d.homePoison ln

/-- The transaction passes an agent's data on: that of an RD_OWN or UPGRADE. -/
def Txn.passes (t : Txn) : Bool := t.f.type == Ty.snoop && t.kind == .frame && t.f.w5 >>> 28 % 16 != 1

/-- Keep the data of a line for the transaction. -/
def Dev.keepData (d : Dev) (id ln : Nat) (bs : List Byte) : Dev :=
  d.modTxn id fun x => { x with data := kvPut x.data ln bs }

/-- An agent's data settles a line of a transaction: RD_OWN passes it on, every other request writes it to memory
(R193, R194). -/
def Dev.takeData (d : Dev) (id : Nat) (t : Txn) (ln : Nat) (bs : List Byte) (poison : Bool) : Dev :=
  if t.passes && !poison then d.keepData id ln bs else d.lineStore t.die ln bs poison

/-- A WRITEBACK that crosses a snoop: it is written to memory, and its data is the agent's snoop data (R197). -/
def Dev.takeCrossing (d : Dev) (id : Nat) (t : Txn) (ln : Nat) (bs : List Byte) (poison : Bool) : Dev :=
  let d1 := d.lineStore t.die ln bs poison
  if t.passes && !poison then d1.keepData id ln bs else d1

end Sys2Proof.Machine
end

