-- ==== Sys2Proof/Machine/Numeric.lean ====
section
/-! DEFINITION. Number formats and their arithmetic (chapter 13): FP32 with round to nearest even, the microscaling
formats and N2, block quantisation, and the operations of R257, R258 and R289. Finite values are exact: a magnitude
times a power of two. -/

namespace Sys2Proof.Machine

namespace Num

/-- A number of a format: NaN, an infinity, or (-1)^neg x m x 2^e. -/
inductive Fp where
  | nan
  | inf (neg : Bool)
  | fin (neg : Bool) (m : Nat) (e : Int)
deriving DecidableEq, Repr

/-- The canonical NaN (R288). -/
def canon : W32 := 0x7FC00000

def bitLen (m : Nat) : Nat := if m = 0 then 0 else Nat.log2 m + 1

/-- m / 2^s to nearest, ties to even. -/
def shiftRne (m s : Nat) : Nat :=
  let q := m >>> s
  let r := m - q <<< s
  let half := 2 ^ s / 2
  if s = 0 then m else if half < r ∨ (r = half ∧ q % 2 = 1) then q + 1 else q

/-- Magnitude pattern of m x 2^e with `mb` mantissa bits and smallest step 2^lsb, rounded to nearest even, without an
upper bound (R276, R277). -/
def roundPat (mb : Nat) (lsb : Int) (m : Nat) (e : Int) : Nat :=
  if m = 0 then 0
  else
    let t := max (e + Int.ofNat (bitLen m) - Int.ofNat (mb + 1)) lsb
    let q := if t ≤ e then m <<< (e - t).toNat else shiftRne m (t - e).toNat
    (t - lsb).toNat * 2 ^ mb + q

/-- An FP32 value. -/
def ofW (x : W32) : Fp :=
  let n := x.toNat
  let neg := decide (2 ^ 31 ≤ n)
  let ex := n / 2 ^ 23 % 256
  let f := n % 2 ^ 23
  if ex = 255 then (if f = 0 then .inf neg else .nan)
  else if ex = 0 then .fin neg f (-149)
  else .fin neg (f + 2 ^ 23) (Int.ofNat ex - 150)

/-- The FP32 pattern of a value, rounded once; NaN is the canonical NaN. -/
def toW (x : Fp) : W32 :=
  let sg := fun neg : Bool => if neg then 2 ^ 31 else 0
  match x with
  | .nan => canon
  | .inf neg => BitVec.ofNat 32 (sg neg + 0x7F800000)
  | .fin neg m e => BitVec.ofNat 32 (sg neg + min 0x7F800000 (roundPat 23 (-149) m e))

/-- A signed exact sum as a value; an exact zero is +0 unless both addends were negative. -/
def ofSum (n : Int) (e : Int) (negZero : Bool) : Fp :=
  if n = 0 then .fin negZero 0 0 else .fin (decide (n < 0)) n.natAbs e

def signed (neg : Bool) (m : Nat) : Int := if neg then -(Int.ofNat m) else Int.ofNat m

def addFp : Fp → Fp → Fp
  | .nan, _ => .nan
  | _, .nan => .nan
  | .inf a, .inf b => if a = b then .inf a else .nan
  | .inf a, _ => .inf a
  | _, .inf b => .inf b
  | .fin na ma ea, .fin nb mb eb =>
    let e := min ea eb
    ofSum (signed na ma * 2 ^ (ea - e).toNat + signed nb mb * 2 ^ (eb - e).toNat) e (na && nb && ma == 0 && mb == 0)

def mulFp : Fp → Fp → Fp
  | .nan, _ => .nan
  | _, .nan => .nan
  | .inf a, .inf b => .inf (a != b)
  | .inf a, .fin b m _ => if m = 0 then .nan else .inf (a != b)
  | .fin b m _, .inf a => if m = 0 then .nan else .inf (a != b)
  | .fin na ma ea, .fin nb mb eb => .fin (na != nb) (ma * mb) (ea + eb)

def negFp : Fp → Fp
  | .nan => .nan
  | .inf a => .inf (!a)
  | .fin n m e => .fin (!n) m e

/-- m1 2^e1 / m2 2^e2 with enough bits and a sticky bit that one rounding is right. -/
def quot (m1 m2 : Nat) : Nat × Int :=
  let s := 90 + bitLen m2
  let q := (m1 <<< s) / m2
  (2 * q + (if (m1 <<< s) % m2 = 0 then 0 else 1), -(Int.ofNat s) - 1)

def divFp : Fp → Fp → Fp
  | .nan, _ => .nan
  | _, .nan => .nan
  | .inf _, .inf _ => .nan
  | .inf a, .fin b _ _ => .inf (a != b)
  | .fin a _ _, .inf b => .fin (a != b) 0 0
  | .fin na ma ea, .fin nb mb eb =>
    if mb = 0 then (if ma = 0 then .nan else .inf (na != nb))
    else let r := quot ma mb; .fin (na != nb) r.1 (r.2 + ea - eb)

/-- Order of two values, in which -0 equals +0; none when one is a NaN. -/
def cmpFp : Fp → Fp → Option Ordering
  | .nan, _ => none
  | _, .nan => none
  | .inf a, .inf b => some (if a = b then .eq else if a then .lt else .gt)
  | .inf a, _ => some (if a then .lt else .gt)
  | _, .inf b => some (if b then .gt else .lt)
  | .fin na ma ea, .fin nb mb eb =>
    let e := min ea eb
    some (compare (signed na ma * 2 ^ (ea - e).toNat) (signed nb mb * 2 ^ (eb - e).toNat))

def isNeg : Fp → Bool
  | .nan => false
  | .inf n => n
  | .fin n _ _ => n

def absFp : Fp → Fp
  | .nan => .nan
  | .inf _ => .inf false
  | .fin _ m e => .fin false m e

/-! ## FP32 operations (R288) -/

def fadd (x y : W32) : W32 := toW (addFp (ofW x) (ofW y))
def fsub (x y : W32) : W32 := toW (addFp (ofW x) (negFp (ofW y)))
def fmul (x y : W32) : W32 := toW (mulFp (ofW x) (ofW y))
def ffma (x y z : W32) : W32 := toW (addFp (mulFp (ofW x) (ofW y)) (ofW z))
def fdiv (x y : W32) : W32 := toW (divFp (ofW x) (ofW y))

/-- Larger of two: the one that is not a NaN, and +0 above -0 (R288). -/
def fmax (x y : W32) : W32 :=
  match ofW x, ofW y with
  | .nan, .nan => canon
  | .nan, _ => y
  | _, .nan => x
  | a, b => match cmpFp a b with
    | some .lt => y
    | some .gt => x
    | _ => if isNeg a then y else x

def fmin (x y : W32) : W32 :=
  match ofW x, ofW y with
  | .nan, .nan => canon
  | .nan, _ => y
  | _, .nan => x
  | a, b => match cmpFp a b with
    | some .lt => x
    | some .gt => y
    | _ => if isNeg a then x else y

/-- A comparison of `vcmp`: 0 lt, 1 le, 2 eq, 3 ne, 4 gt, 5 ge; with a NaN only ne holds. -/
def fcmp (fn : Nat) (x y : W32) : Bool :=
  match cmpFp (ofW x) (ofW y) with
  | none => fn == 3
  | some o =>
    if fn = 0 then o == .lt else if fn = 1 then o != .gt else if fn = 2 then o == .eq
    else if fn = 3 then o != .eq else if fn = 4 then o == .gt else o != .lt

def fzero : W32 := 0
def fone : W32 := 0x3F800000
def finf (neg : Bool) : W32 := if neg then 0xFF800000 else 0x7F800000

/-- x compared with the rational n / 10. -/
def cmpTenths (x : Fp) (n : Int) : Option Ordering :=
  cmpFp (mulFp x (.fin false 10 0)) (.fin (decide (n < 0)) n.natAbs 0)

/-- The largest FP32 magnitude pattern that is not above m x 2^e. -/
def floorPat (m : Nat) (e : Int) : Nat :=
  if m = 0 then 0
  else
    let t := max (e + Int.ofNat (bitLen m) - 24) (-149)
    (t + 149).toNat * 2 ^ 23 + (if t ≤ e then m <<< (e - t).toNat else m >>> (t - e).toNat)

/-- 2^192 ln 2, rounded down. -/
def ln2 : Nat := 4350955369971217654477563090224794165364344896676135745069

/-- 2^192 e^r for r / 2^192 in [0, ln 2): terms of the series from index i on. -/
def expSeries (r : Nat) : Nat → Nat → Nat → Nat
  | 0, _, _ => 0
  | fuel + 1, i, term => term + expSeries r fuel (i + 1) (term * r / 2 ^ 192 / (i + 1))

/-- The largest FP32 pattern not above e^x for x = (-1)^neg m 2^e with -104 < x < 89, computed to 2^-180 or better. -/
def expFloor (neg : Bool) (m : Nat) (e : Int) : Nat :=
  let x := signed neg (m <<< (e + 192).toNat)
  let k := x / Int.ofNat ln2
  floorPat (expSeries (x - k * Int.ofNat ln2).toNat 50 0 (2 ^ 192)) (k - 192)

/-- e^x (R288): fixed outside the range of finite results; inside it a free choice among the values within 2 units in the
last place, which are the two on either side of e^x, and 1 with two on either side for x = 0. -/
def fexp (x : W32) : W32 :=
  match ofW x with
  | .nan => canon
  | .inf n => if n then fzero else finf false
  | .fin n m e =>
    if cmpTenths (.fin n m e) (-1033) = some .lt then fzero
    else if cmpTenths (mulFp (.fin n m e) (.fin false 10 0)) 8872 = some .gt then finf false
    else if m = 0 then BitVec.ofNat 32 (0x3F7FFFFE + Config.vexpPick x % 5)
    else BitVec.ofNat 32 (min 0x7F800000 (expFloor n m e + Config.vexpPick x % 4 - 1))

/-- 1 / x (R288): a free choice among the values within 1 unit in the last place, which are the two on either side of the
quotient, or a quotient that is exact and its two neighbours. -/
def frcp (x : W32) : W32 :=
  match ofW x with
  | .nan => canon
  | .inf n => if n then 0x80000000 else 0
  | .fin n m e =>
    if m = 0 then finf n
    else
      let r := quot 1 m
      let low := floorPat r.1 (r.2 - e)
      let p := if 2 ^ Nat.log2 m = m then low + Config.vrcpPick x % 3 - 1 else low + Config.vrcpPick x % 2
      BitVec.ofNat 32 ((if n then 2 ^ 31 else 0) + min 0x7F800000 p)

/-- One level of the pairwise tree of R258. -/
def pairs (f : W32 → W32 → W32) : List W32 → List W32
  | a :: b :: t => f a b :: pairs f t
  | l => l

def tree (f : W32 → W32 → W32) : Nat → List W32 → W32
  | 0, l => l.headD 0
  | n + 1, l => tree f n (pairs f l)

/-- Sum of 128 lanes in the fixed tree. -/
def treeSum (l : List W32) : W32 := tree fadd 7 l
def treeMax (l : List W32) : W32 := tree fmax 7 l

/-! ## Narrow floats and integers (R276, R284) -/

/-- Narrow an FP32 value to a format with infinities: BF16 (7, -133) or FP16 (10, -24). -/
def narrow (mb : Nat) (lsb : Int) (width expMax nanPat : Nat) (x : W32) : Nat :=
  let sg := fun n : Bool => if n then 2 ^ (width - 1) else 0
  match ofW x with
  | .nan => nanPat
  | .inf n => sg n + expMax * 2 ^ mb
  | .fin n m e => sg n + min (expMax * 2 ^ mb) (roundPat mb lsb m e)

def toBf16 (x : W32) : Nat := narrow 7 (-133) 16 255 0x7FC0 x
def toFp16 (x : W32) : Nat := narrow 10 (-24) 16 31 0x7E00 x

/-- BF16 to FP32 keeps every pattern. -/
def ofBf16 (n : Nat) : W32 := BitVec.ofNat 32 (n % 65536 * 65536)

/-- FP16 to FP32: exact, NaN payloads shifted (R284). -/
def ofFp16 (n : Nat) : W32 :=
  let neg := n / 32768 % 2 = 1
  let ex := n / 1024 % 32
  let f := n % 1024
  let sg := if neg then 2 ^ 31 else 0
  if ex = 31 then BitVec.ofNat 32 (sg + 0x7F800000 + f * 2 ^ 13)
  else toW (if ex = 0 then .fin neg f (-24) else .fin neg (f + 1024) (Int.ofNat ex - 25))

/-- An integer as FP32 (INT8 and INT4 are exact). -/
def ofInt (i : Int) : W32 := toW (.fin (decide (i < 0)) i.natAbs 0)

/-- Round a value to an integer, ties to even; 0 for a NaN, a large bound for an infinity. -/
def roundInt : Fp → Int
  | .nan => 0
  | .inf n => signed n (2 ^ 64)
  | .fin n m e => signed n (if 0 ≤ e then m <<< e.toNat else shiftRne m (-e).toNat)

/-! ## Microscaling formats (R277-R283, R285, R286) -/

/-- Mantissa bits, smallest step, largest finite pattern, emax and width of formats FN 0-4 of R261. -/
def mxShape (fn : Nat) : Nat × Int × Nat × Int × Nat :=
  if fn = 0 then (3, -9, 0x7E, 8, 8) else if fn = 1 then (2, -16, 0x7B, 15, 8)
  else if fn = 2 then (3, -3, 0x1F, 2, 6) else if fn = 3 then (2, -4, 0x1F, 4, 6) else (1, -1, 0x7, 2, 4)

/-- Bits of an element: FN 0-6 of R261. -/
def elemBits (fn : Nat) : Nat :=
  if fn ≤ 1 ∨ 6 ≤ fn then 8 else if fn ≤ 3 then 6 else if fn = 4 then 4 else 2

/-- An element code without its scale (R277, R278). -/
def decElem (fn code : Nat) : Fp :=
  if fn = 5 then .fin (decide (2 ≤ code % 4)) (if code % 2 = 0 then 1 else 3) (-1)
  else if 6 ≤ fn then
    (let i : Int := if code % 256 < 128 then Int.ofNat (code % 256) else Int.ofNat (code % 256) - 256
     .fin (decide (i < 0)) i.natAbs (-6))
  else
    let s := mxShape fn
    let w := s.2.2.2.2
    let neg := decide (2 ^ (w - 1) ≤ code % 2 ^ w)
    let p := code % 2 ^ (w - 1)
    if fn = 0 ∧ p = 0x7F then .nan
    else if fn = 1 ∧ 0x7C ≤ p then (if p = 0x7C then .inf neg else .nan)
    else if p < 2 ^ s.1 then .fin neg p s.2.1
    else .fin neg (p % 2 ^ s.1 + 2 ^ s.1) (s.2.1 + Int.ofNat (p / 2 ^ s.1) - 1)

/-- The value of a scale byte: E8M0, or E4M3 for N2 (R281). -/
def decScale (fn byte : Nat) : Fp :=
  if fn = 5 then decElem 0 byte
  else if byte = 255 then .nan else .fin false 1 (Int.ofNat byte - 127)

/-- Elements per scale. -/
def blockLen (fn : Nat) : Nat := if fn = 5 then 16 else 32

/-- Counts of a quantisation: saturated elements, nonzero values encoded as zero, blocks with a NaN scale. -/
structure QCount where
  sat  : Nat
  zero : Nat
  nan  : Nat
deriving DecidableEq, Repr

def QCount.add (a b : QCount) : QCount := ⟨a.sat + b.sat, a.zero + b.zero, a.nan + b.nan⟩

def isFin : Fp → Bool
  | .fin _ _ _ => true
  | _ => false

/-- Magnitude and exponent of a finite value. -/
def magOf : Fp → Nat × Int
  | .fin _ m e => (m, e)
  | _ => (0, 0)

/-- The largest magnitude of a block. -/
def amax (xs : List Fp) : Fp :=
  xs.foldl (fun a x => if cmpFp a (absFp x) = some .lt then absFp x else a) (.fin false 0 0)

/-- floor(log2) of a positive magnitude. -/
def log2Floor (m : Nat) (e : Int) : Int := Int.ofNat (bitLen m) - 1 + e

def emaxOf (fn : Nat) : Int := if 6 ≤ fn then 0 else (mxShape fn).2.2.2.1

/-- The E8M0 scale byte of a block (R282). -/
def e8Scale (fn : Nat) (xs : List Fp) : Nat :=
  if xs.any (fun x => !isFin x) then 255
  else
    let a := magOf (amax xs)
    if a.1 = 0 then 0
    else (max (log2Floor a.1 a.2 - emaxOf fn) (-127) + 127).toNat

/-- One element scaled and coded, with its saturation and zero counts (R282, R285, R286). -/
def encElem (fn : Nat) (shift : Int) (x : Fp) : Nat × QCount :=
  let a := magOf x
  if 6 ≤ fn then
    let q := if 0 ≤ a.2 - shift + 6 then a.1 <<< (a.2 - shift + 6).toNat else shiftRne a.1 (-(a.2 - shift + 6)).toNat
    let c := min 127 q
    (if isNeg x then (256 - c) % 256 else c, ⟨if 127 < q then 1 else 0, if c = 0 ∧ a.1 ≠ 0 then 1 else 0, 0⟩)
  else
    let s := mxShape fn
    let q := roundPat s.1 s.2.1 a.1 (a.2 - shift)
    let c := min s.2.2.1 q
    (c + (if isNeg x then 2 ^ (s.2.2.2.2 - 1) else 0),
      ⟨if s.2.2.1 < q then 1 else 0, if c = 0 ∧ a.1 ≠ 0 then 1 else 0, 0⟩)

/-- The codes of a block with a NaN scale: no rule states them. -/
def nanCodes (fn : Nat) (xs : List Fp) : List Nat :=
  (List.range xs.length).map fun i => Config.nanCode fn (xs.map toW) i % 2 ^ elemBits fn

/-- A block of 32 values in a microscaling format: scale byte, codes, counts. -/
def quantMx (fn : Nat) (xs : List Fp) : Nat × List Nat × QCount :=
  let sc := e8Scale fn xs
  if sc = 255 then (255, nanCodes fn xs, ⟨0, 0, 1⟩)
  else
    let es := xs.map (encElem fn (Int.ofNat sc - 127))
    (sc, es.map Prod.fst, es.foldl (fun c e => c.add e.2) ⟨0, 0, 0⟩)

/-- The N2 scale of a block of 16 values (R283). -/
def n2Scale (xs : List Fp) : Nat :=
  if xs.any (fun x => !isFin x) then 0x7F
  else
    let a := magOf (amax xs)
    if a.1 = 0 then 0
    else
      let r := quot (2 * a.1) 3
      max 1 (min 0x7E (roundPat 3 (-9) r.1 (r.2 + a.2)))

/-- A block of 16 values in N2 (R283, R286). -/
def quantN2 (xs : List Fp) : Nat × List Nat × QCount :=
  let sc := n2Scale xs
  let s := decElem 0 sc
  if sc = 0x7F then (sc, nanCodes 5 xs, ⟨0, 0, 1⟩)
  else if sc = 0 then (sc, xs.map fun _ => 0, ⟨0, 0, 0⟩)
  else
    (sc, xs.map fun x => (if isNeg x then 2 else 0) + (if cmpFp (absFp x) s = some .lt then 0 else 1),
      ⟨(xs.filter fun x => cmpFp (absFp x) (mulFp s (.fin false 2 0)) == some .gt).length, 0, 0⟩)

def quantBlock (fn : Nat) (xs : List Fp) : Nat × List Nat × QCount :=
  if fn = 5 then quantN2 xs else quantMx fn xs

/-- Split a list into runs of n. -/
def chunks {α : Type} (n : Nat) : Nat → List α → List (List α)
  | 0, _ => []
  | fuel + 1, l => if l.isEmpty then [] else l.take n :: chunks n fuel (l.drop n)

/-- Codes as one bit stream in bytes (R280): element i at bits b i up to b i + b - 1. -/
def packCodes (b : Nat) (codes : List Nat) : List Byte :=
  let v := codes.foldr (fun c acc => acc <<< b + c % 2 ^ b) 0
  toLe ((codes.length * b + 7) / 8) v

/-- Element i of a packed stream. -/
def codeAt (b : Nat) (byte : Nat → Byte) (i : Nat) : Nat :=
  let lo := b * i
  ((byte (lo / 8)).toNat + 256 * (byte (lo / 8 + 1)).toNat) >>> (lo % 8) % 2 ^ b

/-- Quantise a row: packed elements, then scale bytes (R280), with counts. -/
def quantRow (fn : Nat) (xs : List W32) : List Byte × QCount :=
  let qs := (chunks (blockLen fn) xs.length (xs.map ofW)).map (quantBlock fn)
  (packCodes (elemBits fn) (qs.flatMap fun q => q.2.1) ++ qs.map (fun q => BitVec.ofNat 8 q.1),
    qs.foldl (fun c q => c.add q.2.2) ⟨0, 0, 0⟩)

/-- Bytes of n elements and their scales: rb(f, n) of R259 for FN formats; 7 is BF16. -/
def rowBytes (fn n : Nat) : Nat :=
  if fn = 7 then 2 * n else (elemBits fn * n + 7) / 8 + (n + blockLen fn - 1) / blockLen fn

/-- Element i of a packed row of n elements, decoded exactly (R281); 7 is BF16. -/
def rowElem (fn n : Nat) (byte : Nat → Byte) (i : Nat) : Fp :=
  if fn = 7 then ofW (ofBf16 ((byte (2 * i)).toNat + 256 * (byte (2 * i + 1)).toNat))
  else
    let sc := (byte ((elemBits fn * n + 7) / 8 + i / blockLen fn)).toNat
    mulFp (decElem fn (codeAt (elemBits fn) byte i)) (decScale fn sc)

/-- Decode a packed row to FP32; a NaN is 0x7FC00000 (R287). -/
def dequantRow (fn n : Nat) (byte : Nat → Byte) : List W32 := (List.range n).map fun i => toW (rowElem fn n byte i)

/-- The exact sum of products of a group, and one rounded add to the accumulator (R289). An infinity or a NaN in the
group makes the output NaN. -/
def mmaGroup (acc : W32) (as bs : List Fp) : W32 :=
  if as.any (fun x => !isFin x) || bs.any (fun x => !isFin x) then canon
  else toW (addFp ((as.zip bs).foldl (fun s p => addFp s (mulFp p.1 p.2)) (.fin false 0 0)) (ofW acc))

/-! ## INT8, INT4 and sums of squares -/

/-- FP32 to a two's-complement integer of b bits, saturating; the code and whether it saturated or became zero. -/
def toIntB (b : Nat) (x : W32) : Nat × QCount :=
  let v := roundInt (ofW x)
  let hi : Int := 2 ^ (b - 1) - 1
  let lo : Int := -(2 ^ (b - 1))
  let c := if v < lo then lo else if hi < v then hi else v
  let nz := match ofW x with
    | .fin _ m _ => m != 0
    | .inf _ => true
    | .nan => false
  ((c % 2 ^ b).toNat, ⟨if c ≠ v then 1 else 0, if c = 0 && nz then 1 else 0, 0⟩)

/-- A two's-complement code of b bits. -/
def ofIntB (b code : Nat) : W32 :=
  ofInt (if code % 2 ^ b < 2 ^ (b - 1) then Int.ofNat (code % 2 ^ b) else Int.ofNat (code % 2 ^ b) - 2 ^ b)

/-- Relative error e2 of R294 over values and their requantised values, in FP32 in order. -/
def relErr2 (xs qs : List W32) : W32 :=
  let num := (xs.zip qs).foldl (fun s p => let e := fsub p.1 p.2; fadd s (fmul e e)) 0
  let den := xs.foldl (fun s x => fadd s (fmul x x)) 0
  if cmpFp (ofW den) (.fin false 0 0) = some .eq then 0 else fdiv num den

/-- sqrt(e2) above limit / 256, with squares compared exactly. -/
def errAbove (e2 : W32) (limit : Nat) : Bool :=
  cmpFp (ofW e2) (.fin false (limit * limit) (-16)) == some .gt

end Num

end Sys2Proof.Machine
end

