-- ==== Sys2Proof/Machine/Home.lean ====
section
/-! DEFINITION. The coherence home at work: which requests are legal (R82, R119, R189, R208, R326), how they wait, how
they are performed and answered (R79-R81, R131, R190-R197, R216, R356). -/

namespace Sys2Proof.Machine

/-! ## Legality (check 7 of R75) -/

/-- Operand bytes of an ATOMIC. -/
def atomSize (f : Frame) : Nat := 4 * 2 ^ (f.w5 >>> 26 % 4)
def atomOp (f : Frame) : Nat := f.w5 >>> 28 % 16

/-- Bytes that a memory request covers. -/
def reqLen (f : Frame) : Nat :=
  if f.type = Ty.read then f.w7 % 8192
  else if f.type = Ty.atomic then atomSize f
  else if f.type = Ty.snoop ∨ f.type = Ty.writeback then 128
  else f.len

/-- The first byte: coherent frames ignore ADDR bits [6:0] (R188). -/
def reqAddr (f : Frame) : Nat :=
  if f.type = Ty.snoop ∨ f.type = Ty.writeback then Frame.addr f / 128 * 128 else Frame.addr f

/-- The operation is one of the table (R81, R82, R188). -/
def legal (f : Frame) : Bool :=
  let a := Frame.addr f
  if f.type = Ty.read ∨ f.type = Ty.write then 1 ≤ reqLen f && reqLen f ≤ 4096 && a % 4096 + reqLen f ≤ 4096
  else if f.type = Ty.atomic then
    atomOp f ≤ 0xA && f.w5 >>> 26 % 4 ≤ 1 && (atomOp f != 0xA || atomSize f == 4) && a % atomSize f == 0 &&
    f.payload.length == (if atomOp f = 2 then 2 else 1) * atomSize f
  else if f.type = Ty.snoop then 1 ≤ f.w5 >>> 28 % 16 && f.w5 >>> 28 % 16 ≤ 3
  else if f.type = Ty.writeback then f.payload.length == 128
  else 1 ≤ f.len

/-- The region whose view, or whose working copy, an object is. -/
def Dev.viewRegion (d : Dev) (n : Nat) : Option Nat :=
  (List.range 4096).find? fun r => d.flag Bar.VER_REGION_VALID r && d.get Bar.VER_REGION_VIEW_OBJ r == n
def Dev.workRegion (d : Dev) (n : Nat) : Option Nat :=
  (List.range 4096).find? fun r => d.flag Bar.VER_REGION_VALID r && d.get Bar.VER_REGION_WORK_OBJ r == n

/-- The region and slot of a page of a view object (R208). -/
def Dev.viewSlot (d : Dev) (pg : Nat) : Option (Nat × Nat) :=
  match d.objOf pg with
  | none => none
  | some n =>
    if d.flag Bar.MEM_OBJ_VERSIONED n then
      (d.viewRegion n).map fun r =>
        (r, (pg - d.get Bar.MEM_OBJ_BASE_PAGE n) / max 1 (d.get Bar.MEM_OBJ_PAGES (d.get Bar.VER_REGION_WORK_OBJ r)))
    else none

/-- The frame writes, or asks for the right to write. -/
def writes (f : Frame) : Bool :=
  f.type == Ty.write || f.type == Ty.atomic || f.type == Ty.copyData || f.type == Ty.writeback ||
  (f.type == Ty.snoop && decide (f.w5 >>> 28 % 16 ≠ 1))

/-- Check 7 of a memory frame (R119, R185, R189, R208, R326). -/
def Dev.mayServe (d : Dev) (f : Frame) : Bool :=
  let a := reqAddr f
  legal f && d.ownsRange f.allot a (reqLen f) &&
  (match d.viewSlot (pageOf a) with
    | some (r, s) => !writes f && d.get Bar.VER_SLOT_STATE r s == 1
    | none => true) &&
  !(writes f && f.type != Ty.writeback && d.sesOwned a (reqLen f)) &&
  (f.type != Ty.snoop || (d.agentIdx f.srcEp).isSome)

/-! ## Answers -/

/-- n bytes of the error value (R89). -/
def errBytes (n : Nat) : List Byte := List.replicate n 0xFF

/-- READ_RESP, or COPY_DATA when the READ asks for it (R68, R86). -/
def Dev.answerRead (d : Dev) (die : Nat) (q : Frame) (status : Nat) (poison : Bool) (bs : List Byte) : Dev :=
  let fl := if poison then 1 else 0
  if q.type = Ty.read ∧ Frame.copyFlag q then
    d.send (.memSide die) (d.answer q Ty.copyData (q.w7 >>> 13 % 4) status (fl + 32) (q.w7 / 65536 * 65536) bs)
  else d.send (.memSide die) (d.answer q Ty.readResp 5 status fl 0 bs)

/-- WRITE_ACK: in TC6 for a WRITEBACK, with COPY_REF and the bytes for a pushed COPY_DATA (R72, R87, R195). -/
def Dev.answerWrite (d : Dev) (die : Nat) (q : Frame) (status : Nat) : Dev :=
  d.send (.memSide die) (d.answer q Ty.writeAck (if q.type = Ty.writeback then 6 else 5) status 0
    (if q.type = Ty.copyData then q.w7 / 65536 * 65536 + q.len % 8192 else 0) [])

/-- SNOOP_RESP to a coherent request: STATE in word 7 (R188). -/
def Dev.answerGrant (d : Dev) (die : Nat) (q : Frame) (status state : Nat) (poison : Bool) (bs : List Byte) : Dev :=
  d.send (.memSide die) (d.answer q Ty.snoopResp 6 status (if poison then 1 else 0) (state <<< 28) bs)

/-- The error answer of any memory request: the error value, or the status alone (R89, R196). -/
def Dev.answerFail (d : Dev) (die : Nat) (q : Frame) (status : Nat) : Dev :=
  if q.type = Ty.read ∨ q.type = Ty.atomic then d.answerRead die q status true (errBytes (reqLen q))
  else if q.type = Ty.snoop then d.answerGrant die q status 0 true (errBytes 128)
  else d.answerWrite die q status

/-! ## Atomics (R81) -/

def signedOf (bytes x : Nat) : Int := if x < 2 ^ (8 * bytes - 1) then Int.ofNat x else Int.ofNat x - 2 ^ (8 * bytes)

/-- The new value of a word under AOP; `c` is the compare value of CAS. -/
def aop (op bytes old x c : Nat) : Nat :=
  if op = 0 then (old + x) % 2 ^ (8 * bytes)
  else if op = 1 then x
  else if op = 2 then (if old = c then x else old)
  else if op = 3 then old &&& x
  else if op = 4 then old ||| x
  else if op = 5 then old ^^^ x
  else if op = 6 then (if signedOf bytes old < signedOf bytes x then x else old)
  else if op = 7 then (if signedOf bytes x < signedOf bytes old then x else old)
  else if op = 8 then max old x
  else if op = 9 then min old x
  else (Num.fadd (BitVec.ofNat 32 old) (BitVec.ofNat 32 x)).toNat

/-- Operand and compare value in an ATOMIC's payload. -/
def atomArgs (f : Frame) : Nat × Nat :=
  if atomOp f = 2 then (leNat (f.payload.drop (atomSize f)), leNat (f.payload.take (atomSize f)))
  else (leNat (f.payload.take (atomSize f)), 0)

/-! ## Expansion views (R355-R357) -/

/-- The valid view that holds an address. -/
def Dev.egrView (d : Dev) (a : Nat) : Option Nat :=
  (List.range 64).find? fun i => d.flag Bar.EXP_EGR_VALID i &&
    decide (65536 * d.get Bar.EXP_EGR_VIEW_PAGE i ≤ a) &&
    decide (a < 65536 * (d.get Bar.EXP_EGR_VIEW_PAGE i + (8192 * d.get Bar.EXP_EGR_NBLOCKS i + 65535) / 65536))

/-- The coded base of a view, the block number of an address, the address of its index word. -/
def Dev.egrBlock (d : Dev) (i a : Nat) : Nat := (a - 65536 * d.get Bar.EXP_EGR_VIEW_PAGE i) / 8192
def Dev.egrIndex (d : Dev) (i b : Nat) : Nat := d.get Bar.EXP_EGR_INDEX_BASE i / 4 * 4 + 4 * b
def Dev.egrStart (d : Dev) (i b : Nat) : Nat :=
  d.get Bar.EXP_EGR_CODED_BASE i / 16 * 16 + leNat (d.poolBytes (d.egrIndex i b) 4) / 16 * 16

/-- The lines of index word and block that a view READ reads. -/
def Dev.egrLines (d : Dev) (i b : Nat) : List Nat :=
  if b < d.get Bar.EXP_EGR_NBLOCKS i then
    linesOf (d.egrIndex i b) 4 ++ linesOf (d.egrStart i b)
      ((Exc16.size fun n => d.poolByte (d.egrStart i b + n)).getD 16)
  else []

/-- Serve a view READ: a NAK, or an answer (R356, R357). -/
def Dev.serveView (d : Dev) (die i : Nat) (q : Frame) : Dev :=
  let a := Frame.addr q
  let al := d.get Bar.EXP_EGR_ALLOT i
  let b := d.egrBlock i a
  let st := d.egrStart i b
  let byte := fun n => d.poolByte (st + n)
  let size := (Exc16.size byte).getD 16
  let bad := d.bump Bar.EXP_EGR_STAT_FAILED 1
  if d.get Bar.EXP_EGR_NBLOCKS i ≤ b then bad.nak (.memSide die) q Code.access
  else if !d.inObjects al (d.egrIndex i b) 4 then bad.nak (.memSide die) q Code.access
  else if d.rangePoisoned (d.egrIndex i b) 4 then bad.answerFail die q Code.poison
  else if !d.inObjects al st size then bad.nak (.memSide die) q Code.access
  else if d.get Bar.EXP_EGR_CODED_BASE i / 16 * 16 + d.get Bar.EXP_EGR_CODED_BYTES i < st + size then
    bad.answerFail die q Code.compressLen
  else if d.rangePoisoned st size then bad.answerFail die q Code.poison
  else match Exc16.decode byte with
    | .fail s => bad.answerFail die q s
    | .ok raw =>
      let key := die * 2 ^ 32 + i * 2 ^ 16 + b
      let mine := d.eng.egrCache.filter fun k => k / 2 ^ 32 == die
      let d1 := if mine.contains key then d else d.bump Bar.EXP_EGR_STAT_BLOCKS 1
      let kept := (d.eng.egrCache.filter fun k => k / 2 ^ 32 != die) ++
        (if mine.contains key then mine else ((mine ++ [key]).reverse.take 8).reverse)
      ({ d1 with eng := { d1.eng with egrCache := kept } }).answerRead die q Code.ok false ((raw.drop (a % 8192)).take (reqLen q))

/-! ## Lent ranges (R131) -/

/-- A page of a REMOTE object. -/
def Dev.remotePage (d : Dev) (pg : Nat) : Bool := d.policyOf pg == 3

/-- The forwarded request (R131): the original ALLOT, the lender's address, TC4. -/
def Dev.forwardFrame (d : Dev) (i : Nat) (q : Frame) : Frame :=
  let a := d.lentAddr i (reqAddr q)
  let ep := d.get Bar.MEM_LEND_LENDER_EP i
  if q.type = Ty.read ∨ q.type = Ty.snoop then
    d.newFrame Ty.read 4 q.allot ep 0 0 0 (addrHi a) (addrLo a) (reqLen q) []
  else if q.type = Ty.atomic then
    d.newFrame Ty.atomic 4 q.allot ep 0 0 (q.flags % 2) (q.w5 / 2 ^ 26 * 2 ^ 26 + addrHi a) (addrLo a) 0 q.payload
  else d.newFrame Ty.write 4 q.allot ep 0 0 (q.flags % 2) (addrHi a) (addrLo a) 0 q.payload

/-! ## Performing a request -/

/-- The bytes a request reads: what an agent's answer brought, else memory. -/
def Dev.txnByte (d : Dev) (t : Txn) (a : Nat) : Byte :=
  match kvGet? t.data (a / 128) with
  | some bs => bs.getD (a % 128) 0
  | none => d.poolByte a

def Dev.txnBytes (d : Dev) (t : Txn) (a n : Nat) : List Byte := (List.range n).map fun i => d.txnByte t (a + i)

/-- A line reads poisoned at the home: of a REMOTE object, one that no lender backs, or that the home has poisoned (R131,
R133, R196). -/
def Dev.homeBad (d : Dev) (ln : Nat) : Bool :=
  if d.remotePage (ln / 512) then (d.lentBy (ln / 512)).isNone || d.coh.lent.contains ln else d.linePoisoned ln

/-- A line of the request reads poisoned: data that an agent passed on does not. -/
def Dev.txnPoisoned (d : Dev) (t : Txn) (a n : Nat) : Bool :=
  (linesOf a n).any fun ln => (kvGet? t.data ln).isNone && d.homeBad ln

/-- Everyone who asked: the members of a combining entry, or the one request. -/
def Txn.askers (t : Txn) : List (TPort × Frame) := if t.members.isEmpty then [(t.src, t.f)] else t.members

/-- Old values for the members of a combined FADD: each the old value plus the addends before its own (R84). -/
def Dev.answerFadds (d : Dev) (die size : Nat) (poison : Bool) (status : Nat) : Nat → List (TPort × Frame) → Dev
  | _, [] => d
  | old, q :: qs =>
    (d.answerRead die q.2 status poison (if poison then errBytes size else toLe size old)).answerFadds die size poison
      status ((old + (atomArgs q.2).1) % 2 ^ (8 * size)) qs

/-- Perform an ATOMIC at the line (R81, R84, R196). -/
def Dev.performAtomic (d : Dev) (t : Txn) : Dev :=
  let a := Frame.addr t.f
  let n := atomSize t.f
  if d.rangePoisoned a n && !Frame.poisonBit t.f then d.answerFadds t.die n true Code.poison 0 t.askers
  else
    let was := d.rangePoisoned a n
    let old := leNat (d.poolBytes a n)
    let arg := atomArgs t.f
    let r := d.writePool a (toLe n (aop (atomOp t.f) n old arg.1 arg.2)) (Frame.poisonBit t.f)
    r.2.answerFadds t.die n was (if r.1 then Code.poison else Code.ok) old t.askers

/-- Perform and answer a coherent request (R193, R196). -/
def Dev.performCoherent (d : Dev) (t : Txn) : Dev :=
  let a := reqAddr t.f
  let ln := a / 128
  let cop := t.f.w5 >>> 28 % 16
  if d.txnPoisoned t a 128 then d.answerFail t.die t.f Code.poison
  else if cop = 1 then
    let bs := d.txnBytes t a 128
    let g := d.grantShared ln t.f.srcEp t.shared
    g.2.answerGrant t.die t.f Code.ok g.1 false bs
  else
    let named := match kvGet? d.coh.dir ln with
      | some e => e.exact.contains t.f.srcEp
      | none => false
    let bs := if cop = 3 && named then [] else d.txnBytes t a 128
    (d.grantOwn ln t.f.srcEp).answerGrant t.die t.f Code.ok 4 false bs

/-- Perform a request whose snoops have all settled. -/
def Dev.performReq (d0 : Dev) (t : Txn) : Dev :=
  let a := reqAddr t.f
  let n := reqLen t.f
  let reads := t.f.type == Ty.read || t.f.type == Ty.atomic || t.f.type == Ty.snoop
  let d := (if reads then d0.meetLines (t.lines.filter fun ln => (kvGet? t.data ln).isNone) else d0).touch (pageOf a)
  if t.f.type = Ty.read then
    match d.egrView a with
    | some i => t.askers.foldl (fun d q => d.serveView t.die i q.2) d
    | none =>
      let p := d.txnPoisoned t a n
      let bs := if p then errBytes n else d.txnBytes t a n
      t.askers.foldl (fun d q => d.answerRead t.die q.2 (if p then Code.poison else Code.ok) p bs) d
  else if t.f.type = Ty.atomic then d.performAtomic t
  else if t.f.type = Ty.snoop then d.performCoherent t
  else if t.f.type = Ty.writeback then
    ((d.writePool a t.f.payload (Frame.poisonBit t.f)).2.dropAgent (a / 128) t.f.srcEp).answerWrite t.die t.f Code.ok
  else
    let r := d.writePages a t.f.payload (Frame.poisonBit t.f) 2
    r.answerWrite t.die t.f
      (if Frame.poisonBit t.f || r.rangePoisoned a n then Code.poison else Code.ok)

/-- Does a request to a lent line need the lender: all but an UPGRADE of a named agent and lines already brought. -/
def Dev.needsLender (d : Dev) (t : Txn) : Bool :=
  t.remote &&
  !(t.f.type == Ty.snoop && ((kvGet? t.data (reqAddr t.f / 128)).isSome ||
    (t.f.w5 >>> 28 % 16 == 3 && (match kvGet? d.coh.dir (reqAddr t.f / 128) with
      | some e => e.exact.contains t.f.srcEp
      | none => false))))

/-- What a frame wants of its lines; a WRITEBACK snoops nobody, its sender being the one holder (R195). -/
def wantOf (f : Frame) : Want :=
  if f.type = Ty.read then .read
  else if f.type = Ty.snoop then (if f.w5 >>> 28 % 16 = 1 then .rdShared else .rdOwn)
  else if f.type = Ty.writeback then .rdOwn
  else .inv

/-- The transaction takes every copy of its lines away by SNP_INV; one that the device's own read opened does not. -/
def Txn.invalidates (t : Txn) : Bool :=
  match t.kind with
  | .frame => wantOf t.f == .inv
  | .recall _ => true
  | .retire _ _ => true
  | .publish _ => false
  | .capacity => t.f.type == Ty.snoop

/-- No agent of a coarse entry's groups holds a copy any more (R194, R198). -/
def Dev.clearGroups (d : Dev) (ln : Nat) : Dev :=
  match kvGet? d.coh.dir ln with
  | none => d
  | some e => if e.coarse then d.setEnt ln { e with coarse := false, vec := 0 } else d

/-- The transaction leaves the table, and lines it left without an entry give their ways back. -/
def Dev.closeTxn (d : Dev) (id : Nat) : Dev :=
  let d1 : Dev := { d with coh := { d.coh with txns := kvDel d.coh.txns id } }
  match kvGet? d.coh.txns id with
  | some t => t.lines.foldl Dev.dropWay d1
  | none => d1

/-- A request for a lent line goes to its lender; one that no lender backs, and a read of a line that the home has poisoned,
is answered POISON (R131, R133, R196). The sender of a WRITEBACK becomes I in either case (R195). -/
def Dev.toLender (d : Dev) (id : Nat) (t : Txn) : Dev :=
  let a := reqAddr t.f
  let fail (d : Dev) : Dev := (t.askers.foldl (fun d q => d.answerFail t.die q.2 Code.poison) d).closeTxn id
  match d.lentBy (pageOf a) with
  | none => fail (if t.f.type = Ty.writeback then d.dropAgent (a / 128) t.f.srcEp else d)
  | some i =>
    let reads := t.f.type == Ty.read || t.f.type == Ty.snoop || (t.f.type == Ty.atomic && !Frame.poisonBit t.f)
    if reads && (linesOf a (reqLen t.f)).any d.coh.lent.contains then fail d
    else (d.modTxn id fun x => { x with fwd := true }).issueTier t.die (d.forwardFrame i t.f) (.forward id)

/-- All snoops have settled: perform, forward to the lender, or end the line of a walk. -/
def Dev.finishTxn (d0 : Dev) (id : Nat) : Dev :=
  match kvGet? d0.coh.txns id with
  | none => d0
  | some t =>
    let d := if t.invalidates then t.lines.foldl Dev.clearGroups d0 else d0
    if t.kind = .frame then
      if d.needsLender t then d.toLender id t else (d.performReq t).closeTxn id
    else d.closeTxn id

/-- The pages of a request. -/
def reqPages (f : Frame) : List Nat := [pageOf (reqAddr f), pageOf (reqAddr f + (reqLen f - 1))].eraseDups

/-- A write whose page is being copied waits until the page map switches (R140, R202). -/
def Dev.copyHolds (d : Dev) (f : Frame) : Bool := writes f && f.type != Ty.snoop && (reqPages f).any d.copying

/-- A write to the working copy of a region that is being published waits; a WRITEBACK does not (R213). -/
def Dev.publishHolds (d : Dev) (f : Frame) : Bool :=
  writes f && f.type != Ty.writeback && (reqPages f).any fun pg =>
    match (d.objOf pg).bind d.workRegion with
    | some r => d.flag Bar.VER_REGION_PUBLISHING r
    | none => false

/-- Finish a transaction once no snoop is left, its page is not being copied and no burst holds its channel (R140, R175). -/
def Dev.finishIfDone (d : Dev) (id : Nat) : Dev :=
  match kvGet? d.coh.txns id with
  | some t =>
    if t.snoops.isEmpty && t.unsent.isEmpty && !t.fwd &&
        !(t.kind == .frame && (d.copyHolds t.f || t.lines.any d.chanBusy)) then d.finishTxn id else d
  | none => d

/-! ## Taking a request in (R140, R190, R191, R198, R213, R216, R217) -/

/-- The lines of a request: of an expansion view, the index word and the block it reads. -/
def Dev.reqLines (d : Dev) (f : Frame) : List Nat :=
  match if f.type = Ty.read then d.egrView (Frame.addr f) else none with
  | some i => d.egrLines i (d.egrBlock i (Frame.addr f))
  | none => linesOf (reqAddr f) (reqLen f)

/-- The home die of a request: for a view READ, where it arrived. -/
def Dev.reqDie (d : Dev) (src : TPort) (f : Frame) : Nat := (d.homeDie (reqAddr f)).getD (portDie src)

/-- A request waits at the home. -/
def Dev.park (d : Dev) (p : Parked) : Dev := { d with coh := { d.coh with waiting := d.coh.waiting ++ [p] } }

/-- Why a write must wait or copy first: its page is being copied, its region is being published, or its page is
shared (R140, R213, R216). -/
inductive Hold where
  | go
  | wait
  | cow
deriving DecidableEq, Repr

def Dev.holdOf (d : Dev) (f : Frame) : Hold × Nat :=
  if !writes f then (.go, 0)
  else if d.publishHolds f then (.wait, 0)
  else match (reqPages f).find? d.shared with
    | some pg => if d.copying pg then (.wait, 0) else (.cow, pg)
    | none => if d.copyHolds f then (.wait, 0) else (.go, 0)

/-- A request waits behind one that came before it for one of its lines (R32-R34, R191): one that waits for its lines, a
WRITEBACK, one of its own source, or an open combining entry. A WRITEBACK itself waits for its page alone, so that an
agent's data always reaches the home (R190). DESIGN CHOICE (log entry 72): the order is kept per line. -/
def Dev.behind (d : Dev) (p : Parked) : Bool :=
  let ls := d.reqLines p.f
  let src := d.sourceOf p.src p.f
  p.f.type != Ty.writeback &&
  (d.coh.waiting.any (fun w => decide (w.ticket < p.ticket) &&
    (!w.held || w.f.type == Ty.writeback || d.sourceOf w.src w.f == src) && (d.reqLines w.f).any ls.contains) ||
  d.coh.comb.any fun e => decide (e.2.ticket < p.ticket) && e.2.members.any fun m => (d.reqLines m.2).any ls.contains)

/-- A coherent request needs an entry and its set is full: the entry in the way that the round-robin pointer names is
recalled (R198). True when the request must wait. -/
def Dev.makeEntry (d : Dev) (die ln : Nat) : Bool × Dev :=
  if (kvGet? d.coh.ways ln).isSome then (false, d)
  else
    let ls := d.setLines die (dirSet ln)
    let key := 524288 * die + dirSet ln
    let ptr := kvGetD d.coh.way key 0
    match if ls.length < 16 then none else ls.find? fun e => e.2 == ptr with
    | none => (false, d.takeWay ln)
    | some (victim, _) =>
      if d.lineBusy victim then (true, d)
      else
        let d1 : Dev := { d with coh := { d.coh with way := kvPut d.coh.way key ((ptr + 1) % 16) } }
        let d2 := d1.bump Bar.COH_STAT_RECALLS 1 die
        let r := d2.openTxn die .capacity (.memSide die) (d2.newFrame Ty.snoop 6 0 0 0 0 0 0 0 0 []) [] [victim] .inv
        let d3 := r.2.finishIfDone r.1
        if (kvGet? d3.coh.txns r.1).isNone then (false, d3.takeWay ln) else (true, d3)

/-- A requester that the directory shows in M (R515); its own WRITEBACK that waits here has given M up. -/
def Dev.brokenRequester (d : Dev) (f : Frame) : Bool :=
  f.type == Ty.snoop && d.mHolder (reqAddr f / 128) == some f.srcEp &&
  !d.coh.waiting.any fun w => w.f.type == Ty.writeback && w.f.srcEp == f.srcEp && reqAddr w.f == reqAddr f

/-- Open the transaction of a request and carry it as far as it goes. -/
def Dev.begin (d : Dev) (p : Parked) : Dev :=
  let r := d.openTxn (d.reqDie p.src p.f) .frame p.src p.f p.members (d.reqLines p.f) (wantOf p.f)
  r.2.finishIfDone r.1

/-- A coherent request for a line that is free: a broken requester is dropped, a poisoned line answered without a change of
the directory (R196, R515), and the line's entry found a way. -/
def Dev.beginCoherent (d0 : Dev) (p : Parked) : Dev :=
  let ln := reqAddr p.f / 128
  let die := d0.reqDie p.src p.f
  let d := if d0.brokenRequester p.f then d0.protoErr die p.f.srcEp ln else d0
  if (d.mHolder ln).isNone && d.homeBad ln then (d.meetLine ln).answerFail die p.f Code.poison
  else
    let m := d.makeEntry die ln
    if m.1 then m.2.park p else m.2.begin p

/-- NAK a request, or every member of a combining entry (R84). -/
def Dev.nakAll (d : Dev) (p : Parked) (status : Nat) : Dev :=
  let die := d.reqDie p.src p.f
  (if p.members.isEmpty then [(p.src, p.f)] else p.members).foldl (fun d q => d.nak (.memSide die) q.2 status) d

/-- No frame is free for the copy-on-write of a request's page: BUSY, or for a WRITEBACK a wait; each counts once (R217). -/
def Dev.cowShort (d : Dev) (p : Parked) : Dev :=
  let d1 := if p.short then d else d.bump Bar.VER_STAT_COW_SHORT 1
  if p.f.type = Ty.writeback then d1.park { p with held := true, short := true } else d1.nakAll p Code.busy

/-- Take a checked request in: it waits behind a transaction on one of its lines or a burst of their channel, behind what waits for them, behind a copy
or a publish, or it is served. -/
def Dev.serve (d : Dev) (p : Parked) : Dev :=
  if (d.reqLines p.f).any (fun ln => d.lineBusy ln || d.chanBusy ln) || d.behind p then d.park { p with held := false }
  else match d.holdOf p.f with
    | (.wait, _) => d.park { p with held := true }
    | (.cow, pg) =>
      let r := d.startCow pg
      if r.1 then r.2.park { p with held := true } else r.2.cowShort p
    | (.go, _) => if p.f.type = Ty.snoop then d.beginCoherent p else d.begin p

/-- A request takes the next place in the request order. -/
def Dev.enter (d : Dev) (src : TPort) (f : Frame) (k : Dev → Parked → Dev) : Dev :=
  k { d with coh := { d.coh with ticket := d.coh.ticket + 1 } }
    { ticket := d.coh.ticket, src := src, f := f, members := [], held := false, short := false }

/-- The snoop of an agent in M on a line that a transaction waits for. -/
def Dev.crossing (d : Dev) (ep ln : Nat) : Option (Nat × Txn × Snoop) :=
  d.coh.txns.findSome? fun e =>
    (e.2.snoops.find? fun s => s.agent == ep && s.line == ln && s.wasM && !s.wb).map fun s => (e.1, e.2, s)

/-- The same for a snoop that still waits for a tag. -/
def Dev.crossingUnsent (d : Dev) (ep ln : Nat) : Option (Nat × Txn) :=
  d.coh.txns.find? fun e => e.2.unsent.any fun s => s.1 == ln && s.2.1 == ep && s.2.2.2

/-- A WRITEBACK: discarded unless the directory shows its sender in M; it waits while its page is being copied (R202); the
data of a snooped agent when it crosses a snoop, which settles an answer that came first; else a write of the line (R195, R197). -/
def Dev.writebackStep (d : Dev) (p : Parked) : Dev :=
  let f := p.f
  let ln := reqAddr f / 128
  let die := d.reqDie p.src f
  let cross (id : Nat) (t : Txn) : Dev :=
    ((d.takeCrossing id t ln f.payload (Frame.poisonBit f)).dropAgent ln f.srcEp).answerWrite die f Code.ok
  let snooped := (d.crossing f.srcEp ln).isSome || (d.crossingUnsent f.srcEp ln).isSome
  if (d.objOf (pageOf (reqAddr f))).isNone && !snooped || d.mHolder ln != some f.srcEp then d.answerWrite die f Code.poison
  else if d.copyHolds f then d.park { p with held := true }
  else match d.crossing f.srcEp ln, d.crossingUnsent f.srcEp ln with
    | some (id, t, s), _ =>
      if s.empty then ((cross id t).settled id s.tag).finishIfDone id
      else (cross id t).modTxn id fun x => { x with snoops := x.snoops.map fun y =>
        if y.tag == s.tag then { y with wb := true } else y }
    | none, some (id, t) =>
      ((cross id t).modTxn id fun x => { x with unsent := x.unsent.filter fun s => s.1 != ln || s.2.1 != f.srcEp }).finishIfDone id
    | none, none => d.serve p

/-- A waiting request is granted again: its checks hold at the grant. -/
def Dev.again (d : Dev) (p : Parked) : Dev :=
  if p.f.type = Ty.writeback then d.writebackStep p
  else if d.mayServe p.f || (p.f.type == Ty.read && (d.egrView (Frame.addr p.f)).isSome) then d.serve p
  else d.nakAll p Code.access

/-- Start the next transactions of a walk on lines that are free (R203); a recall counts the lines it reaches (R205), and a
walk with SNP_SHARE acts on the lines in M only (R204). -/
def Dev.stepWalk (d : Dev) (w : Walk) : Dev :=
  let r := w.todo.foldl (fun (acc : List Nat × Dev) ln =>
    if acc.2.lineBusy ln then (acc.1 ++ [ln], acc.2)
    else if (kvGet? acc.2.coh.dir ln).isNone || (w.share && (acc.2.mHolder ln).isNone) then acc
    else
      let die := (acc.2.homeDie (128 * ln)).getD 0
      let d0 := match w.kind with
        | .recall x => acc.2.set Bar.COH_RECALL_CTL_LINES (acc.2.get Bar.COH_RECALL_CTL_LINES x + 1) x
        | _ => acc.2
      let x := d0.openTxn die w.kind (.memSide die) (d0.newFrame Ty.snoop 6 0 0 0 0 0 0 0 0 []) [] [ln]
        (if w.share then .share else .inv)
      (acc.1, x.2.finishIfDone x.1)) ([], d)
  { r.2 with coh := { r.2.coh with walks := r.2.coh.walks.map fun x =>
      if x.kind == w.kind then { x with todo := r.1 } else x } }

/-- A walk has no line left and no transaction open. -/
def Dev.walkDone (d : Dev) (kind : TxnKind) : Bool :=
  (match d.coh.walks.find? (fun w => w.kind == kind) with
    | some w => w.todo.isEmpty
    | none => true) && !(d.coh.txns.any fun e => e.2.kind == kind)

def Dev.walkPoisoned (d : Dev) (kind : TxnKind) : Bool :=
  match d.coh.walks.find? (fun w => w.kind == kind) with
  | some w => w.poisoned
  | none => false

def Dev.endWalk (d : Dev) (kind : TxnKind) : Dev :=
  { d with coh := { d.coh with walks := d.coh.walks.filter fun w => w.kind != kind } }

def Dev.startWalk (d : Dev) (kind : TxnKind) (share : Bool) (lines : List Nat) : Dev :=
  let d1 : Dev := { d with coh := { d.coh with walks := d.coh.walks ++ [⟨kind, share, lines, false⟩] } }
  d1.stepWalk ⟨kind, share, lines, false⟩

/-- A transaction or a copy has ended: transactions that waited for the copy end, requests that wait are granted in order
(R32, R33), and walks go on. -/
def Dev.retry (d : Dev) : Dev :=
  let d0 := (kvKeys d.coh.txns).foldl Dev.finishIfDone d
  let d1 : Dev := { d0 with coh := { d0.coh with waiting := [] } }
  let d2 := d0.coh.waiting.foldl Dev.again d1
  d2.coh.walks.foldl (fun d w => d.stepWalk w) d2

/-- A snoop has settled: the transaction goes on, and what waited behind it. -/
def Dev.afterSnoop (d : Dev) (id : Nat) : Dev :=
  let d1 := d.finishIfDone id
  if (kvGet? d1.coh.txns id).isNone then d1.retry else d1

/-! ## Snoop answers and WRITEBACK (R195, R197, R199) -/

/-- The directory after an agent answered that it keeps a clean copy, or none (R193, R194). -/
def Dev.agentKeeps (d : Dev) (t : Txn) (s : Snoop) (state : Nat) : Dev :=
  if state = 0 ∨ s.cop = copInv then d.dropAgent s.line s.agent
  else if s.cop = copShare then
    (if t.kind = .frame ∧ t.f.type = Ty.read ∧ s.wasM then d.holderToF s.line else d.holderToS s.line)
  else d

/-- A snoop answer that fits its snoop; of an agent not in M the home uses the data of an SNP_FWD alone (R193). -/
def Dev.snoopAnswer (d : Dev) (id : Nat) (t : Txn) (s : Snoop) (f : Frame) : Dev :=
  let state := f.w7 >>> 28 % 16
  if s.wb then (d.settled id s.tag).afterSnoop id
  else if f.payload.length = 128 then
    let d1 := if s.wasM then d.takeData id t s.line f.payload (Frame.poisonBit f)
      else if Frame.poisonBit f || s.cop != copFwd then d
      else d.modTxn id fun x => { x with data := kvPut x.data s.line f.payload }
    (((d1.agentKeeps t s state).settled id s.tag).afterSnoop id)
  else if s.wasM then
    if state = 0 then d.modTxn id fun x => { x with snoops := x.snoops.map fun y =>
      if y.tag == s.tag then { y with empty := true } else y }
    else (((d.protoErr t.die s.agent s.line).walkPoison t.kind).settled id s.tag).afterSnoop id
  else ((d.agentKeeps t s state).settled id s.tag).afterSnoop id

/-- A WRITEBACK after its checks (R195, R197, R202). -/
def Dev.takeWriteback (d : Dev) (src : TPort) (f : Frame) : Dev :=
  let d1 := d.enter src f Dev.writebackStep
  if d1.coh.txns.length < d.coh.txns.length then d1.retry else d1

/-- A snoop's bound expires (R199). -/
def Dev.snoopExpires (d : Dev) (id : Nat) (t : Txn) (s : Snoop) : Dev :=
  let d1 := if s.wb then d
    else if s.wasM then ((d.homePoison s.line).dropAgent s.line s.agent).walkPoison t.kind
    else d.dropAgent s.line s.agent
  let d2 := match d.agentIdx s.agent with
    | some i => d1.bump Bar.COH_AGENT_TIMEOUTS 1 i
    | none => d1
  (((d2.bump Bar.COH_STAT_TIMEOUTS 1 t.die).cohEvent 0x01 s.agent s.line).settled id s.tag).afterSnoop id

/-! ## Reclaim (R200, R201) -/

/-- Snoops of a reclaimed agent that still wait for a tag are not sent (R200). -/
def Dev.unsendFor (d : Dev) (ep : Nat) : Dev :=
  d.coh.txns.foldl (fun d e =>
    let mine := e.2.unsent.filter fun s => s.2.1 == ep
    if mine.isEmpty then d
    else
      let d1 := mine.foldl (fun d s => d.reclaimLine ep s.1) d
      (d1.modTxn e.1 fun x => { x with unsent := x.unsent.filter fun s => s.2.1 != ep }).afterSnoop e.1) d

/-- A snoop already sent to a reclaimed agent is settled at once. -/
def Dev.settleFor (d : Dev) (ep : Nat) : Nat → Dev
  | 0 => d
  | fuel + 1 =>
    match d.coh.txns.findSome? fun e => (e.2.snoops.find? fun s => s.agent == ep).map fun s => (e.1, e.2, s) with
    | none => d
    | some (id, t, s) =>
      let d1 := if s.wb then d
        else if s.wasM then ((d.homePoison s.line).dropAgent s.line ep).walkPoison t.kind else d.reclaimLine ep s.line
      ((d1.settled id s.tag).afterSnoop id).settleFor ep fuel

/-- A reclaim of an agent starts. -/
def Dev.startReclaim (d : Dev) (i : Nat) (invalidate : Bool) : Dev :=
  let ep := d.get Bar.COH_AGENT_ENDPOINT i
  let d1 := d.set Bar.COH_AGENT_RECLAIMING 1 i
  let d2 : Dev := { d1 with coh := { d1.coh with
    reclaims := kvPut d1.coh.reclaims i (invalidate || kvGetD d1.coh.reclaims i false) } }
  (d2.unsendFor ep).settleFor ep ((d2.coh.txns.map fun e => e.2.snoops.length).sum + 1)

/-- The walk of both directories ends. -/
def Dev.endReclaim (d : Dev) (i : Nat) : Dev :=
  match kvGet? d.coh.reclaims i with
  | none => d
  | some inval =>
    let ep := d.get Bar.COH_AGENT_ENDPOINT i
    let d1 := (kvKeys d.coh.dir).foldl (fun d ln => d.reclaimLine ep ln) d
    let d2 := d1.set Bar.COH_AGENT_RECLAIMING 0 i
    let d3 : Dev := { d2 with coh := { d2.coh with reclaims := kvDel d2.coh.reclaims i } }
    if inval then d3.set Bar.COH_AGENT_VALID 0 i else d3

/-- COH_AGENT.LINES: entries of both dies that name an agent exactly. -/
def Dev.agentLines (d : Dev) (i : Nat) : Nat :=
  let ep := d.get Bar.COH_AGENT_ENDPOINT i
  (d.coh.dir.filter fun e => e.2.exact.contains ep).length

/-- A write of COH_AGENT (R200, R201, R205): on a valid entry one that changes ENDPOINT has no effect at all. -/
def Dev.writeAgent (d : Dev) (i v : Nat) : Dev :=
  let valid := d.flag Bar.COH_AGENT_VALID i
  let ep := slice v 111 96
  if valid && ep != d.get Bar.COH_AGENT_ENDPOINT i then d
  else
    let d1 :=
      if slice v 127 127 = 1 then
        if valid then d
        else if (d.agentIdx ep).isSome then d
        else ((d.set Bar.COH_AGENT_ENDPOINT ep i).set Bar.COH_AGENT_VALID 1 i).set Bar.COH_AGENT_FENCED
          (if d.mbr.fenced.contains ep then 1 else 0) i
      else if valid then
        (if d.agentLines i = 0 then d.set Bar.COH_AGENT_VALID 0 i else d.startReclaim i true)
      else (d.set Bar.COH_AGENT_ENDPOINT ep i).set Bar.COH_AGENT_FENCED 0 i
    if slice v 126 126 = 1 ∧ d1.flag Bar.COH_AGENT_VALID i then d1.startReclaim i false else d1

/-! ## The lender's answer (R131) -/

/-- The lender's answer to a coherent request: the grant with its data, or its status with the error value and STATE I.
DEDUCED (log entry 73): the status is the lender's own, as for every other forwarded request. -/
def Dev.grantLent (d : Dev) (t : Txn) (status : Nat) (poison : Bool) (bs : List Byte) : Dev :=
  let q := t.f
  let ln := reqAddr q / 128
  if status ≠ Code.ok then d.answerFail t.die q status
  else if poison then d.answerFail t.die q Code.poison
  else if q.w5 >>> 28 % 16 = 1 then
    let g := d.grantShared ln q.srcEp t.shared
    g.2.answerGrant t.die q Code.ok g.1 false bs
  else (d.grantOwn ln q.srcEp).answerGrant t.die q Code.ok 4 false bs

/-- The lender's answer to a write: sound data over a whole line cleans it, and a line that stays poisoned makes the answer
POISON (R196). The sender of a WRITEBACK becomes I (R195). -/
def Dev.wroteLent (d : Dev) (t : Txn) (status : Nat) : Dev :=
  let q := t.f
  let ls := linesOf (reqAddr q) (reqLen q)
  let clean := if status = Code.ok ∧ ¬ Frame.poisonBit q then
      ls.filter fun ln => reqAddr q ≤ 128 * ln && 128 * ln + 128 ≤ reqAddr q + reqLen q
    else []
  let d1 : Dev := { d with coh := { d.coh with lent := d.coh.lent.filter fun l => !clean.contains l } }
  let d2 := if q.type = Ty.writeback then d1.dropAgent (reqAddr q / 128) q.srcEp else d1
  d2.answerWrite t.die q
    (if status = Code.ok && (Frame.poisonBit q || ls.any d2.coh.lent.contains) then Code.poison else status)

/-- The forwarded request of a transaction has been answered, or has ended with a status: a READ or ATOMIC without data is
answered with the error value (R89, R131). -/
def Dev.forwarded (d : Dev) (id status : Nat) (poison : Bool) (bs : List Byte) : Dev :=
  match kvGet? d.coh.txns id with
  | none => d
  | some t =>
    let q := t.f
    let bad := poison || status != Code.ok
    let data := if status = Code.ok then bs else errBytes (reqLen q)
    let d1 :=
      if q.type = Ty.snoop then d.grantLent t status poison bs
      else if q.type = Ty.read then t.askers.foldl (fun d e => d.answerRead t.die e.2 status bad data) d
      else if q.type = Ty.atomic then d.answerFadds t.die (atomSize q) bad status (leNat data) t.askers
      else d.wroteLent t status
    (d1.closeTxn id).retry

end Sys2Proof.Machine
end

