-- ==== Sys2Proof/Machine/MemHome.lean ====
section
/-! DEFINITION. Memory frames at the home: combining, atomics, pushes, coherent requests, snoop answers, recalls, lent
ranges, WARM, and what befalls spans, stacks and tier-2 links (chapters 4, 6 and 9). -/

namespace Sys2Proof.Machine

/-! ## Combining (R83-R85) -/

/-- A request that may open or join a combining entry. -/
def combinable (f : Frame) : Bool :=
  !Frame.noCombine f &&
  ((f.type == Ty.read && !Frame.copyFlag f && reqAddr f % 128 + reqLen f ≤ 128) ||
    (f.type == Ty.atomic && atomOp f == 0))

/-- The key of an entry: kind, ALLOT, ADDR and RDLEN or ASIZE. -/
def sameKey (f g : Frame) : Bool :=
  f.type == g.type && f.allot == g.allot && Frame.addr f == Frame.addr g && reqLen f == reqLen g

/-- An earlier request of the same source (R34) still waits for the home. -/
def Dev.sourceWaits (d : Dev) (src : TPort) (f : Frame) : Bool :=
  let mine := d.sourceOf src f
  d.coh.waiting.any (fun w => d.sourceOf w.src w.f == mine) ||
  d.coh.comb.any (fun e => e.2.members.any fun m => d.sourceOf m.1 m.2 == mine)

/-- Entries of a kind may open (TRL_COMB_CTL). -/
def Dev.combEnabled (d : Dev) (f : Frame) : Bool :=
  if f.type = Ty.read then d.flag Bar.TRL_COMB_CTL_READ_EN else d.flag Bar.TRL_COMB_CTL_FADD_EN

/-- TRL_COMB_STATUS.IN_USE. -/
def Dev.combInUse (d : Dev) (die : Nat) : Nat := (d.coh.comb.filter fun e => e.2.die == die).length

/-- A READ or ATOMIC reaches the combining point: it joins an open entry, is granted at once when the home is free for
it, opens an entry at its place in the request order, or goes on its own. -/
def Dev.combine (d : Dev) (die : Nat) (src : TPort) (f : Frame) : Dev :=
  if !combinable f then d.enter src f Dev.serve
  else
    match d.coh.comb.find? (fun e => e.2.die == die && e.2.members.any fun m => sameKey m.2 f) with
    | some (k, _) =>
      if d.sourceWaits src f then d.enter src f Dev.serve
      else
        let d1 := d.bump Bar.TRL_COMB_STATUS_JOINED 1 die
        { d1 with coh := { d1.coh with
          comb := kvMod d1.coh.comb k fun e => { e with members := e.members ++ [(src, f)] } } }
    | none =>
      if !d.combEnabled f || !((d.reqLines f).any d.lineBusy) then d.enter src f Dev.serve
      else if 16384 ≤ d.combInUse die then (d.bump Bar.TRL_COMB_STATUS_FULL 1 die).enter src f Dev.serve
      else { d with coh := { d.coh with
        comb := kvPut d.coh.comb d.coh.combNext ⟨die, d.coh.ticket, [(src, f)]⟩, combNext := d.coh.combNext + 1
        ticket := d.coh.ticket + 1 } }

/-- The home grants a leader in its turn: the entry closes and its members are served as one access (R84); one poisoned
addend poisons the sum (R196). -/
def Dev.grantEntry (d : Dev) (die k : Nat) : Dev :=
  match kvGet? d.coh.comb k with
  | none => d
  | some e =>
    match e.members with
    | [] => d
    | (src, f) :: ms =>
      let n := atomSize f
      let g := if f.type = Ty.atomic then
          { f with
            payload := toLe n ((((src, f) :: ms).foldl (fun s q => s + (atomArgs q.2).1) 0) % 2 ^ (8 * n))
            flags := f.flags ||| (if ms.any fun q => Frame.poisonBit q.2 then 1 else 0) }
        else f
      let p : Parked := { ticket := e.ticket, src := src, f := g, members := (src, f) :: ms, held := false, short := false }
      if e.die ≠ die ∨ (d.reqLines f).any d.lineBusy ∨ d.behind p then d
      else ({ d with coh := { d.coh with comb := kvDel d.coh.comb k } }).serve p

def execCombineEntryGrant (die entry : Nat) (s : State) : Out := .next (s.live fun d => d.grantEntry die entry)

/-- A READ, not of the mailbox, that has passed checks 1 to 6. -/
def Dev.takeRead (d : Dev) (die : Nat) (src : TPort) (f : Frame) : Dev :=
  match d.egrView (Frame.addr f) with
  | some i =>
    if legal f && d.get Bar.EXP_EGR_ALLOT i == f.allot then d.combine die src f else d.nak (.memSide die) f Code.access
  | none => if d.mayServe f then d.combine die src f else d.nak (.memSide die) f Code.access

/-- A WRITE, not of the mailbox and no mirror push, that has passed checks 1 to 6. -/
def Dev.takeWrite (d : Dev) (die : Nat) (src : TPort) (f : Frame) : Dev :=
  if (d.egrView (Frame.addr f)).isNone && d.mayServe f then d.enter src f Dev.serve
  else d.nak (.memSide die) f Code.access

/-- The die whose home a frame reaches. -/
def Dev.frameDie (d : Dev) (f : Frame) : Nat := (d.homeDie (Frame.addr f)).getD 0

/-- A frame at its home: the checks of R75, then its effect, which is told the port it came by. -/
def Dev.atHome (d : Dev) (f : Frame) (k : Dev → TPort → Frame → Dev) : Dev :=
  match d.recv (.memSide (d.frameDie f)) f with
  | (some g, d1) => k d1 (d.cameBy (.memSide (d.frameDie f)) f) g
  | (none, d1) => d1

def execAtomic (die : Nat) (src : TPort) (f : Frame) (s : State) : Out :=
  .next (s.live fun d =>
    if f.type = Ty.atomic then
      match d.recv (.memSide (die % 2)) f with
      | (some g, d1) => if d1.mayServe g then d1.combine (die % 2) src g else d1.nak (.memSide (die % 2)) g Code.access
      | (none, d1) => d1
    else d)

def execCopyDataPush (f : Frame) (s : State) : Out :=
  .next (s.live fun d =>
    if f.type = Ty.copyData ∧ ¬ Frame.copyFlag f then d.atHome f fun d src g => d.takeWrite (d.frameDie g) src g else d)

/-! ## Coherent requests (R189-R193) -/

/-- Coherent requests that a die's table holds. -/
def Dev.cohLoad (d : Dev) (die : Nat) : Nat :=
  (d.coh.txns.filter fun e => e.2.die == die && e.2.f.type == Ty.snoop).length +
  (d.coh.waiting.filter fun w => w.f.type == Ty.snoop && d.reqDie w.src w.f == die).length

/-- A coherent request after its checks: ACCESS, then BUSY when the transaction table is full (R190). -/
def Dev.takeCoherent (d : Dev) (src : TPort) (f : Frame) : Dev :=
  let die := d.frameDie f
  if !d.mayServe f then d.nak (.memSide die) f Code.access
  else if 2048 ≤ d.cohLoad die then (d.bump Bar.COH_STAT_BUSY 1 die).nak (.memSide die) f Code.busy
  else d.enter src f Dev.serve

def frameCop (f : Frame) : Nat := f.w5 >>> 28 % 16

/-- RD_SHARED; a SNOOP of a reserved COP is answered NAK ACCESS (R188). -/
def execRdShared (f : Frame) (s : State) : Out :=
  .next (s.live fun d =>
    if f.type = Ty.snoop ∧ frameCop f ≠ 2 ∧ frameCop f ≠ 3 then d.atHome f Dev.takeCoherent else d)

def execRdOwn (f : Frame) (s : State) : Out :=
  .next (s.live fun d => if f.type = Ty.snoop ∧ frameCop f = 2 then d.atHome f Dev.takeCoherent else d)

def execUpgrade (f : Frame) (s : State) : Out :=
  .next (s.live fun d => if f.type = Ty.snoop ∧ frameCop f = 3 then d.atHome f Dev.takeCoherent else d)

/-- The die whose home sent the snoop of a tag (R67). -/
def tagDie (tag : Nat) : Nat := if tag / 4096 = 12 then 1 else 0

/-- SNOOP_RESP: the answer of the snoop its tag and sender name, else late (R197, R199). -/
def Dev.takeSnoopResp (d : Dev) (f : Frame) : Dev :=
  match d.snoopByTag f.tag with
  | some (id, sn) =>
    if sn.agent = f.srcEp ∧ sn.line = reqAddr { f with type := Ty.snoop } / 128 then
      (match kvGet? d.coh.txns id with
        | some t => d.snoopAnswer id t sn f
        | none => d)
    else d.bump Bar.COH_STAT_LATE 1 (tagDie f.tag)
  | none => d.bump Bar.COH_STAT_LATE 1 (tagDie f.tag)

def execSnoopResp (f : Frame) (s : State) : Out :=
  .next (s.live fun d =>
    if f.type = Ty.snoopResp then
      match d.recv (.memSide (tagDie f.tag)) f with
      | (some g, d1) => d1.takeSnoopResp g
      | (none, d1) => d1
    else d)

/-- A WRITEBACK: outside a hosted span of its allotment or in a view it is refused; the rest as R195 states. -/
def Dev.checkWriteback (d : Dev) (src : TPort) (f : Frame) : Dev :=
  let die := d.frameDie f
  let owned := match d.spanOf (reqAddr f) with
    | some i => d.get Bar.MEM_SPAN_ALLOT i == f.allot
    | none => false
  if !owned || !legal f || (d.viewSlot (pageOf (reqAddr f))).isSome then d.nak (.memSide die) f Code.access
  else d.takeWriteback src f

def execWriteback (f : Frame) (s : State) : Out :=
  .next (s.live fun d => if f.type = Ty.writeback then d.atHome f Dev.checkWriteback else d)

def Dev.snoopTimeout (d : Dev) (tag : Nat) : Dev :=
  match d.snoopByTag tag with
  | some (id, sn) =>
    if sn.deadline ≤ d.now then
      (match kvGet? d.coh.txns id with
        | some t => d.snoopExpires id t sn
        | none => d)
    else d
  | none => d

def execSnoopTimeout (tag : Nat) (s : State) : Out := .next (s.live fun d => d.snoopTimeout tag)

def execReclaim (agent : Nat) (s : State) : Out :=
  .next (s.host fun d =>
    if agent < 1024 ∧ d.flag Bar.COH_AGENT_VALID agent then d.startReclaim agent false else d)

def execReclaimWalkDone (agent : Nat) (s : State) : Out :=
  .next (s.live fun d => if agent < 1024 then (d.endReclaim agent).retry else d)

def execCohAgentWrite (agent v : Nat) (s : State) : Out :=
  .next (s.host fun d => if agent < 1024 then d.writeAgent agent v else d)

/-! ## Recall (R203) -/

/-- Directory lines within a range of pages. -/
def Dev.dirLines (d : Dev) (page n : Nat) : List Nat :=
  (kvKeys d.coh.dir).filter fun l => 512 * page ≤ l && l < 512 * (page + n)

def Dev.recallDone (d : Dev) (w status : Nat) : Dev :=
  (d.set Bar.COH_RECALL_CTL_STATUS status w).set Bar.COH_RECALL_CTL_DONE 1 w

/-- START of a recall in a window. -/
def Dev.recall (d : Dev) (w : Nat) : Dev :=
  if !d.flag Bar.COH_RECALL_CTL_DONE w then d
  else
    let a := d.get Bar.COH_RECALL_ARG_ALLOT w
    let pg := d.get Bar.COH_RECALL_ARG_BASE_PAGE w
    let n := max 1 (d.get Bar.COH_RECALL_ARG_PAGES w)
    if d.inReset a then d.recallDone w Code.resetting
    else if !d.inObjects a (65536 * pg) (65536 * n) then d.recallDone w Code.access
    else if [0, 1, 2].any fun x => !d.flag Bar.COH_RECALL_CTL_DONE x then d.recallDone w Code.busy
    else
      let ls := d.dirLines pg n
      ((d.set Bar.COH_RECALL_CTL_DONE 0 w).set Bar.COH_RECALL_CTL_LINES 0 w).startWalk (.recall w) false ls

def execRecall (w : Nat) (s : State) : Out := .next (s.window w fun d => if w < 3 then d.recall w else d)

def execRecallDone (w : Nat) (s : State) : Out :=
  .next (s.live fun d =>
    if w < 3 ∧ ¬ d.flag Bar.COH_RECALL_CTL_DONE w ∧ d.walkDone (.recall w) then
      (d.recallDone w (if d.walkPoisoned (.recall w) then Code.poison else Code.ok)).endWalk (.recall w)
    else d)

/-! ## Lent ranges (R129-R133) -/

/-- Payload fields of a LEND. -/
def lendLocal (f : Frame) : Nat := leNat (f.payload.take 8) / 65536 % 2 ^ 40
def lendPages (f : Frame) : Nat := leNat ((f.payload.drop 8).take 4)
def lendOp (f : Frame) : Nat := (f.payload.getD 12 0).toNat

/-- Every page of a LEND lies in one REMOTE object of its ALLOT and none is backed. -/
def Dev.lendOk (d : Dev) (f : Frame) : Bool :=
  let pg := pageOf (Frame.addr f)
  let n := lendPages f
  f.payload.length == 32 && lendOp f == 0 && 1 ≤ n && n ≤ 8388607 &&
  (match d.spanOf (Frame.addr f) with
    | some i => d.get Bar.MEM_SPAN_ALLOT i == f.allot
    | none => false) &&
  (match d.objOf pg with
    | some o => d.get Bar.MEM_OBJ_POLICY o == 3 && d.get Bar.MEM_OBJ_ALLOT o == f.allot &&
        pg + n ≤ d.get Bar.MEM_OBJ_BASE_PAGE o + d.get Bar.MEM_OBJ_PAGES o
    | none => false) &&
  (List.range 1024).all fun i => !(d.flag Bar.MEM_LEND_VALID i &&
    meets pg n (d.get Bar.MEM_LEND_POOL_PAGE i) (d.get Bar.MEM_LEND_PAGES i))

/-- WRITE_ACK to a LEND, with the index of the entry in word 7. -/
def Dev.answerLend (d : Dev) (die : Nat) (f : Frame) (status idx : Nat) : Dev :=
  d.send (.memSide die) (d.answer f Ty.writeAck 5 status 0 idx [])

/-- A LEND after its checks (R130); a view object refuses it by NAK (R208). DESIGN CHOICE (log entry 74): a LEND or
WITHDRAW that R119's address rule refuses is answered WRITE_ACK with status ACCESS, as R130 and R133 have it, and not NAK. -/
def Dev.takeLend (d : Dev) (f : Frame) : Dev :=
  let die := d.frameDie f
  if (d.viewSlot (pageOf (Frame.addr f))).isSome then d.nak (.memSide die) f Code.access
  else if !d.lendOk f then d.answerLend die f Code.access 0
  else match (List.range 1024).find? fun i => !d.flag Bar.MEM_LEND_VALID i with
    | none => d.answerLend die f Code.busy 0
    | some i =>
      let d1 := ((((d.set Bar.MEM_LEND_VALID 1 i).set Bar.MEM_LEND_ALLOT f.allot i).set
        Bar.MEM_LEND_LENDER_EP f.srcEp i).set Bar.MEM_LEND_POOL_PAGE (pageOf (Frame.addr f)) i).set
        Bar.MEM_LEND_LOCAL_PAGE (lendLocal f) i
      (d1.set Bar.MEM_LEND_PAGES (lendPages f) i).answerLend die f Code.ok i

def execLend (f : Frame) (s : State) : Out :=
  .next (s.live fun d => if f.type = Ty.lend ∧ lendOp f ≠ 1 then d.atHome f fun d _ g => d.takeLend g else d)

/-- A WITHDRAW after its checks: a match in address, pages, allotment and lender stops forwarding and sets LOST. -/
def Dev.takeWithdraw (d : Dev) (f : Frame) : Dev :=
  let die := d.frameDie f
  match (List.range 1024).find? fun i => d.flag Bar.MEM_LEND_VALID i && (kvGet? d.pool.withdraw i).isNone &&
      d.get Bar.MEM_LEND_POOL_PAGE i == pageOf (Frame.addr f) && d.get Bar.MEM_LEND_PAGES i == lendPages f &&
      d.get Bar.MEM_LEND_ALLOT i == f.allot && d.get Bar.MEM_LEND_LENDER_EP i == f.srcEp with
  | none => d.answerLend die f Code.access 0
  | some i =>
    let d1 : Dev := { d with pool := { d.pool with withdraw := kvPut d.pool.withdraw i (some (.memSide die, f)) } }
    match d1.objOf (pageOf (Frame.addr f)) with
    | some n => d1.setLost n
    | none => d1

def execWithdraw (f : Frame) (s : State) : Out :=
  .next (s.live fun d => if f.type = Ty.lend ∧ lendOp f = 1 then d.atHome f fun d _ g => d.takeWithdraw g else d)

/-- A page lies in the range of an entry. -/
def Dev.inLend (d : Dev) (i pg : Nat) : Bool :=
  decide (d.get Bar.MEM_LEND_POOL_PAGE i ≤ pg) &&
  decide (pg < d.get Bar.MEM_LEND_POOL_PAGE i + d.get Bar.MEM_LEND_PAGES i)

/-- A request of the tier logic writes a line of an entry's range. -/
def Dev.writesLend (d : Dev) (i : Nat) : Cont → Bool
  | .lent ln => d.inLend i (ln / 512)
  | _ => false

/-- Forwarded requests to a lent entry, or writes of agents' data to it, are in flight or wait to be issued. -/
def Dev.lendBusy (d : Dev) (i : Nat) : Bool :=
  d.coh.txns.any (fun e => e.2.fwd && d.inLend i (pageOf (reqAddr e.2.f))) ||
  d.reqs.any (fun e => d.writesLend i e.2.cont) || d.coh.tierQ.any (fun e => d.writesLend i e.2.2)

/-- The requests in flight have ended: the entry is freed and the WITHDRAW answered. -/
def Dev.withdrawComplete (d : Dev) (i : Nat) : Dev :=
  match kvGet? d.pool.withdraw i with
  | none => d
  | some x =>
    if d.lendBusy i then d
    else
      let d1 : Dev := { d with pool := { d.pool with withdraw := kvDel d.pool.withdraw i } }
      let d2 := d1.putWord Bar.MEM_LEND 0 i
      match x with
      | some (p, f) => d2.answerLend (portDie p) f Code.ok 0
      | none => d2

def execWithdrawComplete (entry : Nat) (s : State) : Out :=
  .next (s.live fun d => if entry < 1024 then d.withdrawComplete entry else d)

/-! ## WARM (R138) -/

/-- A WARM after its checks. -/
def Dev.takeWarm (d : Dev) (f : Frame) : Dev :=
  let id := f.w5 % 65536
  if d.ses id Ses.STATE = 0 then d.bump Bar.MEM_TIER_CNT_WARM_NOSESS 1
  else if d.ses id Ses.ALLOT ≠ f.allot then d.nak (.memSide 0) f Code.access
  else
    let d1 : Dev := { d with pool := { d.pool with
      holds := kvPut d.pool.holds id (d.now + 1000000 * max 1 (d.get Bar.MEM_TIER_CFG_WARM_HOLD_MS)) } }
    d1.promoteSession id

def execWarm (f : Frame) (s : State) : Out :=
  .next (s.live fun d =>
    if f.type = Ty.warm then
      match d.recv (.memSide 0) f with
      | (some g, d1) => d1.takeWarm g
      | (none, d1) => d1
    else d)

def Dev.warmExpires (d : Dev) (session : Nat) : Dev :=
  match kvGet? d.pool.holds session with
  | some t => if t ≤ d.now then ({ d with pool := { d.pool with holds := kvDel d.pool.holds session } }).pump else d
  | none => d

def execWarmHoldExpiry (session : Nat) (s : State) : Out := .next (s.live fun d => d.warmExpires session)

/-! ## Spans, stacks and tier-2 links (R120, R123, R125-R128) -/

/-- A write of MEM_SPAN (R120, R413). -/
def Dev.writeSpan (d : Dev) (i v : Nat) : Dev :=
  let sp := slice v 47 32
  let valid := slice v 63 63
  let dup := (List.range 512).any fun j => j != i && d.flag Bar.MEM_SPAN_VALID j && d.get Bar.MEM_SPAN_SPAN j == sp
  if sp = 0xFFFF ∨ (valid = 1 ∧ dup) then d
  else ((d.set Bar.MEM_SPAN_VALID valid i).set Bar.MEM_SPAN_SPAN sp i).set Bar.MEM_SPAN_ALLOT (slice v 7 0) i

def execMemSpanWrite (i v : Nat) (s : State) : Out :=
  .next (s.host fun d => if i < 512 then d.writeSpan i v else d)

/-- Poison every line of a frame. -/
def Dev.poisonFrame (d : Dev) (f : Nat) : Dev :=
  { d with pool := { d.pool with poison := (List.range 512).foldl (fun p i => setIns (512 * f + i) p) d.pool.poison } }

/-- A page copy that meets failed memory: the page stays at its source (R140). -/
def Dev.failCopy (d : Dev) (i : Nat) (bad : Nat → Bool) : Dev :=
  match kvGet? d.pool.copies i with
  | none => d
  | some c => if bad c.dst || (match c.dst2 with | some f => bad f | none => false) then d.dropCopy i else d

/-- What a failed stack does to one page (R123). -/
def Dev.stackPage (d0 : Dev) (s i : Nat) : Dev :=
  let bad := fun f => isT1 f && stackOf f == s
  let d := d0.failCopy i bad
  match kvGet? d.pool.pages i with
  | none => d
  | some p =>
    match p.copy, p.home with
    | some c, some h =>
      if bad c then
        let d1 := ((d.dropCopy i).setPage i { p with copy := none, dirty := false }).releaseFrame c
        if p.dirty then (d1.poisonFrame h).losePage i else d1
      else d
    | some c, none =>
      if bad c then ((((d.dropCopy i).setPage i { p with copy := none, dirty := false, poisoned := true }).releaseFrame c).losePage i)
      else d
    | none, some h =>
      if bad h then ((((d.dropCopy i).setPage i { p with home := none, poisoned := true }).releaseFrame h).losePage i)
      else d
    | none, none => d

/-- The channels of a failed stack stop at once, and the commands that use its frames will complete POISON (R180). -/
def Dev.stopBursts (d : Dev) (s : Nat) : Dev :=
  let uses (c : NmuCmd) : Bool := c.held.any fun pg => match d.frameOf pg with
    | some f => isT1 f && stackOf f == s
    | none => false
  { d with nmus := { d.nmus with
      cmds := kvMap d.nmus.cmds fun _ c => if uses c then { c with hit := true } else c
      burst := kvFilter d.nmus.burst fun n b => n / 32 != s && !(b.chans.any fun m => m / 32 == s) } }

/-- A channel of a stack fails (R123). -/
def Dev.stackFails (d0 : Dev) (s c : Nat) : Dev :=
  let d := d0.stopBursts s
  let ok := d.get Bar.MEM_STACK_STATUS_CHAN_OK s
  let d1 := (d.set Bar.MEM_STACK_STATUS_CHAN_OK (if ok.testBit c then ok - 2 ^ c else ok) s).set
    Bar.MEM_STACK_STATUS_FAILED 1 s
  let d2 := ((d1.set Bar.MEM_STACK_STATUS_FREE 0 s).alm1 Blk.mem 0x01 s 0 0 (d1.word Bar.MEM_STACK_STATUS s)).alert Blk.mem
  ((kvKeys d2.pool.pages).foldl (fun d i => d.stackPage s i) d2).pump.retry

def execStackFailure (stack channel : Nat) (s : State) : Out :=
  .next (s.live fun d => if stack < 12 ∧ channel < 32 then d.stackFails stack channel else d)

/-- ENABLE is set on a link that is DISABLED: it trains (R125). -/
def Dev.cxlEnable (d : Dev) (l : Nat) : Dev :=
  let d1 := d.set Bar.MEM_CXL_CTL_ENABLE 1 l
  if d1.get Bar.MEM_CXL_STATUS_STATE l = 0 then
    (d1.putWord Bar.MEM_CXL_STATUS 0 l).set Bar.MEM_CXL_STATUS_STATE 1 l
  else d1

def execCxlEnable (link : Nat) (s : State) : Out := .next (s.host fun d => if link < 8 then d.cxlEnable link else d)

/-- Enumeration ends (R124, R125). -/
def Dev.cxlReady (d : Dev) (l : Nat) (x : CxlFinding) : Dev :=
  if d.get Bar.MEM_CXL_STATUS_STATE l ≠ 1 then d
  else match x with
    | .unsupported r => (d.set Bar.MEM_CXL_STATUS_REASON r l).set Bar.MEM_CXL_STATUS_STATE 5 l
    | .memory cap med mx sp wd =>
      let d1 := ((((d.set Bar.MEM_CXL_STATUS_CAP_PAGES (min (cap / 65536) 33554432) l).set
        Bar.MEM_CXL_STATUS_LAT_MED_NS (min med 65535) l).set Bar.MEM_CXL_STATUS_LAT_MAX_NS (min mx 65535) l).set
        Bar.MEM_CXL_STATUS_SPEED sp l).set Bar.MEM_CXL_STATUS_WIDTH wd l
      (d1.set Bar.MEM_CXL_STATUS_STATE 2 l).pump.retry

def execCxlLinkReady (link : Nat) (found : CxlFinding) (s : State) : Out :=
  .next (s.live fun d => if link < 8 then d.cxlReady link found else d)

/-- ENABLE is cleared (R127). -/
def Dev.cxlDisable (d : Dev) (l : Nat) : Dev :=
  let d1 := d.set Bar.MEM_CXL_CTL_ENABLE 0 l
  let st := d1.get Bar.MEM_CXL_STATUS_STATE l
  if st = 2 then
    let d2 := d1.set Bar.MEM_CXL_STATUS_STATE 3 l
    (d2.addJob ⟨2, none, 0, l, []⟩).pump
  else if st = 1 ∨ st = 4 ∨ st = 5 then d1.set Bar.MEM_CXL_STATUS_STATE 0 l
  else d1

def execCxlDisable (link : Nat) (s : State) : Out := .next (s.host fun d => if link < 8 then d.cxlDisable link else d)

def execCxlDrainDone (link : Nat) (s : State) : Out :=
  .next (s.live fun d =>
    if link < 8 ∧ d.get Bar.MEM_CXL_STATUS_STATE link = 3 ∧ d.linkUsed link = 0 then
      (d.set Bar.MEM_CXL_STATUS_DRAIN_STUCK 0 link).set Bar.MEM_CXL_STATUS_STATE 0 link
    else d)

/-- What a failed link does to one page (R128): one with a tier-1 copy keeps it as its only copy, to be re-homed. -/
def Dev.linkPage (d0 : Dev) (l i : Nat) : Dev :=
  let bad := fun f => !isT1 f && linkOf f == l
  let d := d0.failCopy i bad
  match kvGet? d.pool.pages i with
  | none => d
  | some p =>
    match p.home with
    | none => d
    | some h =>
      if bad h then
        let d1 := ((d.dropCopy i).setPage i { p with
          home := none, poisoned := p.copy.isNone, dirty := p.copy.isSome }).releaseFrame h
        if p.copy.isNone then d1.losePage i else d1
      else d

/-- A READY or draining link fails (R128). -/
def Dev.cxlFails (d : Dev) (l : Nat) : Dev :=
  let st := d.get Bar.MEM_CXL_STATUS_STATE l
  if st = 2 ∨ st = 3 then
    let d1 := d.set Bar.MEM_CXL_STATUS_STATE 4 l
    let d2 := (d1.alm1 Blk.mem 0x02 l 0 0 (d1.word Bar.MEM_CXL_STATUS l)).alert Blk.mem
    let d3 : Dev := { d2 with pool := { d2.pool with jobs := d2.pool.jobs.filter fun j => !(j.kind == 2 && j.arg == l) } }
    (((kvKeys d3.pool.pages).foldl (fun d i => d.linkPage l i) d3).addJob ⟨2, none, 0, l, []⟩).pump.retry
  else d

def execCxlLinkFailure (link : Nat) (s : State) : Out :=
  .next (s.live fun d => if link < 8 then d.cxlFails link else d)

/-! ## Page copies (R140, R216) -/

/-- The copy in progress of the physical page of a pool page. -/
def Dev.copyOf (d : Dev) (pg : Nat) : Option (Nat × PageCopy) :=
  match d.pageId pg with
  | none => none
  | some i => (kvGet? d.pool.copies i).map fun c => (i, c)

/-- The page map of a copy may not switch yet: a burst runs in one of its stacks (R175), or the page is to leave tier 1 and
is held there (R138, R172). -/
def Dev.copyWaits (d : Dev) (i : Nat) (c : PageCopy) : Bool :=
  match kvGet? d.pool.pages i with
  | none => false
  | some p => d.stackBusy c.dst || (match p.frame with
      | some f => d.stackBusy f || ((c.kind == 1 || (c.kind == 3 && isT1 f && !isT1 c.dst)) && d.idHeld i)
      | none => false)

/-- A page copy whose data has been moved ends; a copy-on-write is counted for its region. -/
def Dev.settleCopy (d : Dev) (i : Nat) : Dev :=
  match kvGet? d.pool.copies i with
  | none => d
  | some c =>
    if !c.ready || d.copyWaits i c then d
    else
      let d1 := d.endCopy i
      let d2 := match if c.kind = 4 then (d1.objOf c.owner).bind d1.workRegion else none with
        | some r => d1.bump Bar.VER_REGION_COW_PAGES 1 r
        | none => d1
      d2.pump.retry

/-- Every page copy that can end does. -/
def Dev.settleCopies (d : Dev) : Dev := (kvKeys d.pool.copies).foldl Dev.settleCopy d

def Dev.pageCopyDone (d : Dev) (pg : Nat) (cow : Bool) : Dev :=
  match d.copyOf pg with
  | none => d
  | some (i, c) =>
    if (c.kind == 4) != cow then d
    else ({ d with pool := { d.pool with copies := kvPut d.pool.copies i { c with ready := true } } }).settleCopy i

def execPageCopyDone (page : Nat) (s : State) : Out := .next (s.live fun d => d.pageCopyDone page false)

def execCowCopyDone (page : Nat) (s : State) : Out := .next (s.live fun d => d.pageCopyDone page true)

end Sys2Proof.Machine
end

