-- ==== Sys2Proof/Machine/Banks.lean ====
section
/-! DEFINITION. Scratchpad banks: contents and poison, ownership and hand-over, cold frame, marches and the transparent
background test (chapter 7). Cluster scratchpad c starts at 2^24 c; core scratchpad k of cluster c starts at
2^32 + 2^20 (16 c + k). -/

namespace Sys2Proof.Machine

/-! ## Places -/

def clusterBase (c : Nat) : Nat := 2 ^ 24 * c
def coreBase (n : Nat) : Nat := 2 ^ 32 + 2 ^ 20 * n

/-- The bank of a scratchpad byte. -/
def bankOf (a : Nat) : BankId :=
  if a < 2 ^ 32 then .cluster (a / 2 ^ 24) (a / 262144 % 64)
  else .core ((a - 2 ^ 32) / 2 ^ 24) ((a - 2 ^ 32) / 2 ^ 20 % 16) ((a - 2 ^ 32) / 131072 % 8)

/-- The first byte and the size of a bank (R145). -/
def bankStart : BankId → Nat
  | .cluster c b => clusterBase c + 262144 * b
  | .core c k i => coreBase (16 * c + k) + 131072 * i
def bankSize : BankId → Nat
  | .cluster _ _ => 262144
  | .core _ _ _ => 131072

/-- A number for a bank. -/
def bankKey : BankId → Nat
  | .cluster c b => 64 * c + b
  | .core c k i => 1024 + 8 * (16 * c + k) + i

def bankCluster : BankId → Nat
  | .cluster c _ => c
  | .core c _ _ => c

/-- UNIT of an Almanac record about a bank (R457). -/
def bankUnit : BankId → Nat
  | .cluster c b => 256 * c + b
  | .core c k i => 0x8000 + 8 * (16 * c + k) + i

def bankValid : BankId → Bool
  | .cluster c b => c < 16 && b < 64
  | .core c k i => c < 16 && k < 16 && i < 8

/-- The banks that share an owner with a bank: itself, or the eight banks of its core. -/
def bankGroup : BankId → List BankId
  | .cluster c b => [.cluster c b]
  | .core c k _ => (List.range 8).map (BankId.core c k)

/-- One bank for every register of ownership. -/
def ownedUnits : List BankId :=
  ((List.range 16).flatMap fun c => (List.range 64).map fun b => BankId.cluster c b) ++
  ((List.range 16).flatMap fun c => (List.range 16).map fun k => BankId.core c k 0)

/-- Every bank of the package. -/
def allBanks : List BankId := ownedUnits.flatMap bankGroup

/-! ## The registers (R166) -/

/-- A field of a bank's register, by its name in CLU_BANK. -/
def Dev.bankGet (d : Dev) (f g : Fld) : BankId → Nat
  | .cluster c b => d.get f c b
  | .core c k _ => d.get g c k
def Dev.bankSet (d : Dev) (f g : Fld) (x : Nat) : BankId → Dev
  | .cluster c b => d.set f x c b
  | .core c k _ => d.set g x c k
def Dev.bankBump (d : Dev) (f g : Fld) : BankId → Dev
  | .cluster c b => d.bump f 1 c b
  | .core c k _ => d.bump g 1 c k

def Dev.bank (d : Dev) (b : BankId) : Bank := kvGetD d.banks.bank (bankKey b) Bank.blank
def Dev.setBank (d : Dev) (b : BankId) (x : Bank) : Dev :=
  { d with banks := { d.banks with bank := kvPut d.banks.bank (bankKey b) x } }

/-- CLU_CORE_OWN shows the eight banks of a core: STATE is FAILED when one has failed, COLD is set while all are in cold
frame, LOST when one has lost its contents. -/
def Dev.showCore (d : Dev) (c k : Nat) : Dev :=
  let bs := (List.range 8).map fun i => d.bank (.core c k i)
  let st := if bs.any fun x => x.state == 3 then 3 else (bs.map Bank.state).foldl max 0
  ((d.set Bar.CLU_CORE_OWN_STATE st c k).set Bar.CLU_CORE_OWN_COLD (if bs.all Bank.cold then 1 else 0) c k).set
    Bar.CLU_CORE_OWN_LOST (if bs.any Bank.lost then 1 else 0) c k

/-- STATE, COLD and LOST of a bank: in its register, or for a bank of a core in its own record. -/
def Dev.bankState (d : Dev) : BankId → Nat
  | .cluster c b => d.get Bar.CLU_BANK_STATE c b
  | .core c k i => (d.bank (.core c k i)).state
def Dev.bankCold (d : Dev) : BankId → Bool
  | .cluster c b => d.get Bar.CLU_BANK_COLD c b != 0
  | .core c k i => (d.bank (.core c k i)).cold
def Dev.bankLost (d : Dev) : BankId → Bool
  | .cluster c b => d.get Bar.CLU_BANK_LOST c b != 0
  | .core c k i => (d.bank (.core c k i)).lost
def Dev.setBankState (d : Dev) (x : Nat) : BankId → Dev
  | .cluster c b => d.set Bar.CLU_BANK_STATE x c b
  | .core c k i => (d.setBank (.core c k i) { d.bank (.core c k i) with state := x }).showCore c k
def Dev.setBankCold (d : Dev) (x : Bool) : BankId → Dev
  | .cluster c b => d.set Bar.CLU_BANK_COLD (if x then 1 else 0) c b
  | .core c k i => (d.setBank (.core c k i) { d.bank (.core c k i) with cold := x }).showCore c k
def Dev.setBankLost (d : Dev) (x : Bool) : BankId → Dev
  | .cluster c b => d.set Bar.CLU_BANK_LOST (if x then 1 else 0) c b
  | .core c k i => (d.setBank (.core c k i) { d.bank (.core c k i) with lost := x }).showCore c k

/-- STATE as the register of a bank shows it. -/
def Dev.ownState (d : Dev) (b : BankId) : Nat := d.bankGet Bar.CLU_BANK_STATE Bar.CLU_CORE_OWN_STATE b
def Dev.bankAssign (d : Dev) (b : BankId) : Nat := d.bankGet Bar.CLU_BANK_ASSIGN Bar.CLU_CORE_OWN_ASSIGN b
def Dev.bankOwner (d : Dev) (b : BankId) : Nat := d.bankGet Bar.CLU_BANK_OWNER Bar.CLU_CORE_OWN_OWNER b

/-- An allotment may use a bank: it owns it, OWNED or FAILED (R148, R161). -/
def Dev.mayUse (d : Dev) (a : Nat) (b : BankId) : Bool :=
  d.bankAssign b == 1 && d.bankOwner b == a && (d.bankState b == 1 || d.bankState b == 3)

/-- A CLU event of a bank: record and vector (R157, R161, R163). -/
def Dev.cluEvent (d : Dev) (code unit detail : Nat) : Dev := (d.alm1 Blk.clu code unit 0 0 detail).sysVec Blk.clu

/-! ## Contents (R146, R161) -/

/-- The row of a scratchpad byte within its bank. -/
def rowOf (a : Nat) : Nat := (a - bankStart (bankOf a)) / 512

def Dev.rowFailed (d : Dev) (a : Nat) : Bool := (d.bank (bankOf a)).failedRows.contains (rowOf a)

/-- The 8-byte words, and the first bytes of the 512-byte rows, that a range meets. -/
def wordsIn (a n : Nat) : List Nat :=
  if n = 0 then [] else (List.range ((a + n - 1) / 8 + 1 - a / 8)).map (· + a / 8)
def rowsIn (a n : Nat) : List Nat :=
  if n = 0 then [] else (List.range ((a + n - 1) / 512 + 1 - a / 512)).map fun i => (a / 512 + i) * 512

/-- A range of scratchpad reads poisoned. -/
def Dev.spadPoisoned (d : Dev) (a n : Nat) : Bool :=
  (wordsIn a n).any fun w => d.banks.poison.contains w || kvGet? d.banks.flaws w == some true || d.rowFailed (8 * w)

/-- A byte of scratchpad; where the contents are undefined, a free one. -/
def Dev.spadByte (d : Dev) (a : Nat) : Byte :=
  match d.banks.undef.find? fun u => decide (u.1 ≤ a) && decide (a < u.1 + u.2.1) with
  | some u => Config.freeByte u.2.2 a
  | none => memRead d.banks.mem a

def Dev.spadBytes (d : Dev) (a n : Nat) : List Byte := (List.range n).map fun i => d.spadByte (a + i)

/-- The poison of a word after bytes of it are written (R146): it goes only when all eight are. -/
def wordPoison (a n : Nat) (poison : Bool) (ps : List Nat) (w : Nat) : List Nat :=
  if poison then setIns w ps
  else if a ≤ 8 * w ∧ 8 * w + 8 ≤ a + n then setDel w ps
  else ps

/-- Ranges without the bytes [a, a + n). -/
def cutRanges (us : List (Nat × Nat × Nat)) (a n : Nat) : List (Nat × Nat × Nat) :=
  us.flatMap fun u =>
    if u.1 + u.2.1 ≤ a ∨ a + n ≤ u.1 then [u]
    else [(u.1, a - u.1, u.2.2), (a + n, u.1 + u.2.1 - (a + n), u.2.2)].filter fun x => x.2.1 != 0

/-- The errors of words after bytes are written: a word written in all eight bytes is sound, and one that reads uncorrectable
and is written in part is marked poisoned (R146). -/
def Banks.mend (x : Banks) (a n : Nat) : Banks :=
  let hit := x.flaws.filter fun e => decide (a < 8 * e.1 + 8) && decide (8 * e.1 < a + n)
  let whole (w : Nat) : Bool := decide (a ≤ 8 * w) && decide (8 * w + 8 ≤ a + n)
  { x with
    poison := (hit.filter fun e => e.2 && !whole e.1).foldl (fun p e => setIns e.1 p) x.poison
    flaws := x.flaws.filter fun e => !(hit.any fun h => h.1 == e.1 && (h.2 || whole h.1)) }

/-- Write bytes to scratchpad: failed rows discard them. -/
def Dev.spadWrite (d : Dev) (a : Nat) (bs : List Byte) (poison : Bool) : Dev :=
  let n := bs.length
  let ok := (bs.zipIdx.filter fun e => !d.rowFailed (a + e.2))
  let x := d.banks.mend a n
  { d with banks := { x with
      mem := ok.foldl (fun m e => memWrite m (a + e.2) e.1) d.banks.mem
      undef := cutRanges d.banks.undef a n
      poison := (wordsIn a n).foldl (wordPoison a n poison) x.poison } }

/-- A range of words with zeros and valid check bits. -/
def Dev.clearSpad (d : Dev) (a n : Nat) : Dev :=
  let off (w : Nat) : Bool := decide (8 * w < a) || decide (a + n ≤ 8 * w)
  { d with banks := { d.banks with
      mem := memClear d.banks.mem a n
      poison := d.banks.poison.filter off
      flaws := d.banks.flaws.filter fun e => off e.1
      undef := cutRanges d.banks.undef a n } }

/-- Every word of a bank holds a poison syndrome. -/
def Dev.poisonBank (d : Dev) (b : BankId) : Dev :=
  let d1 := d.clearSpad (bankStart b) (bankSize b)
  let lo := bankStart b / 8
  { d1 with banks := { d1.banks with
      poison := d1.banks.poison.filter (· < lo) ++ (List.range (bankSize b / 8)).map (· + lo) ++
        d1.banks.poison.filter (lo ≤ ·) } }

/-- The banks of a range. -/
def banksOf (a n : Nat) : List BankId :=
  if n = 0 then [] else
    let step := if a < 2 ^ 32 then 262144 else 131072
    (List.range ((a + n - 1) / step + 1 - a / step)).map fun i => bankOf ((a / step + i) * step)

/-- A bank is used: its idle count restarts, and what waited for it has been served. -/
def Dev.useBank (d : Dev) (b : BankId) : Dev := d.setBank b { d.bank b with lastUse := d.now, waiters := [] }

/-- An uncorrectable read of a bank writes a record, under the allotment that owns the bank (R146, R457). -/
def Dev.bankErr (d : Dev) (b : BankId) (row : Nat) : Dev :=
  d.alm1 Blk.clu 0x04 (bankUnit b) (if d.bankAssign b = 1 then d.bankOwner b else 0) 0 row

/-- A word with an error is read: a single-bit error is corrected, written back and counted, an uncorrectable one writes a
record (R146). -/
def Dev.meetWord (d : Dev) (w : Nat) (hard : Bool) : Dev :=
  let b := bankOf (8 * w)
  if hard then d.bankErr b (rowOf (8 * w))
  else ({ d with banks := { d.banks with flaws := kvDel d.banks.flaws w } }).bankBump Bar.CLU_BANK_CORR
    Bar.CLU_CORE_OWN_CORR b

/-- A range is read: its errors are met, and each failed row of it writes a record (R146, R161). -/
def Dev.readErrors (d : Dev) (a n : Nat) : Dev :=
  let d1 := (d.banks.flaws.filter fun e => decide (a < 8 * e.1 + 8) && decide (8 * e.1 < a + n)).foldl
    (fun d e => d.meetWord e.1 e.2) d
  ((rowsIn a n).filter d.rowFailed).foldl (fun d r => d.bankErr (bankOf r) (rowOf r)) d1

/-! ## Rows and regions under test (R158, R162) -/

/-- Two ranges (start, length) share a byte. -/
def meetRanges (a n b m : Nat) : Bool := decide (a < b + m) && decide (b < a + n) && decide (0 < n) && decide (0 < m)

/-- The row that a preserving march tests now: each takes 96 waves at the rate last measured. DESIGN CHOICE (log entry 77). -/
def March.row (m : March) : Nat := m.done / 96000

/-- Bytes of a range lie in a row or a region under test. -/
def Dev.underTest (d : Dev) (a n : Nat) : Bool :=
  (match d.banks.tbt with
    | some (b, off) => meetRanges a n (bankStart b + off) 4096
    | none => false) ||
  d.banks.march.any fun e => e.2.preserving && decide (512 * e.2.row < bankSize e.2.bank) &&
    meetRanges a n (bankStart e.2.bank + 512 * e.2.row) 512

/-- An access to a range must wait for a test, or for bytes that wait for one. -/
def Dev.testWaits (d : Dev) (a n : Nat) : Bool :=
  d.underTest a n || d.banks.parcels.any fun p => meetRanges a n p.place p.bytes.length

/-- Bytes land in scratchpad; in a row under test they wait, and those behind them too. -/
def Dev.landSpad (d : Dev) (a : Nat) (bs : List Byte) (poison : Bool) : Dev :=
  (rowsIn a bs.length).foldl (fun d r =>
    let lo := max a r
    let part := (bs.drop (lo - a)).take (r + 512 - lo)
    if d.testWaits lo part.length then
      { d with banks := { d.banks with parcels := d.banks.parcels ++ [⟨lo, part, poison⟩] } }
    else d.spadWrite lo part poison) d

/-- Bytes that waited for a test land, in order, where none is under way any more. -/
def Dev.landParcels (d : Dev) : Dev :=
  let free := d.banks.parcels.filter fun p => !d.underTest p.place p.bytes.length
  free.foldl (fun d p => d.spadWrite p.place p.bytes p.poison)
    { d with banks := { d.banks with parcels := d.banks.parcels.filter fun p => d.underTest p.place p.bytes.length } }

/-- A march of a cluster goes on for a nanosecond (R158). -/
def Dev.marchesRun (d : Dev) : Dev :=
  if d.banks.march.isEmpty then d
  else ({ d with banks := { d.banks with
    march := kvMap d.banks.march fun c m => { m with done := m.done + d.get Bar.TIM_WRATE_CLU_RATE c } } }).landParcels

/-! ## Ownership (R148-R151, R160) -/

/-- An enabled layer-streaming window, or one that is disabled and still loads, names a cluster bank (R142, R144,
R150). -/
def Dev.windowBank (d : Dev) (c b : Nat) : Bool :=
  d.pool.wins.any fun e => e.2.mask.testBit c && e.2.base ≤ b &&
    b < e.2.base + e.2.slots.length * ((e.2.slice + 3) / 4)

/-- A core runs an invocation. -/
def Dev.coreBusy (d : Dev) (n : Nat) : Bool :=
  match kvGet? d.units n with
  | some u => u.state != 0
  | none => false

/-- A march on request runs on a bank. -/
def Dev.marchOn (d : Dev) (b : BankId) : Option March :=
  match kvGet? d.banks.march (bankCluster b) with
  | some m => if m.bank = b then some m else none
  | none => none

/-- A march on request runs on one of the banks that share a bank's owner. -/
def Dev.groupMarch (d : Dev) (b : BankId) : Option March := (bankGroup b).findSome? d.marchOn

/-- A background test has its region in one of the banks that share a bank's owner. -/
def Dev.groupTest (d : Dev) (b : BankId) : Bool := (d.banks.tbt.map fun t => (bankGroup b).contains t.1).getD false

/-- A hand-over begins (R149, R151): a FAILED bank takes no part. -/
def Dev.beginHandover (d : Dev) (b : BankId) (assign owner : Nat) : Dev :=
  let d1 := ((bankGroup b).filter fun x => d.bankState x != 3).foldl (fun d x =>
    (d.setBank x { d.bank x with wasFree := d.bankState x == 0, want := none }).setBankState 2 x) d
  (d1.bankSet Bar.CLU_BANK_ASSIGN Bar.CLU_CORE_OWN_ASSIGN assign b).bankSet Bar.CLU_BANK_OWNER
    Bar.CLU_CORE_OWN_OWNER owner b

/-- A preserving march stops once the row under test is restored. -/
def Dev.stopMarch (d : Dev) (b : BankId) : Dev :=
  let c := bankCluster b
  (({ d with banks := { d.banks with march := kvDel d.banks.march c } }).set Bar.CLU_MARCH_STATUS_BUSY 0 c).landParcels

/-- A hand-over begins once no march stands in its way (R160). -/
def Dev.handOver (d : Dev) (b : BankId) (assign owner : Nat) : Dev :=
  match d.groupMarch b with
  | some m => if m.preserving then (d.stopMarch b).beginHandover b assign owner
    else d.setBank m.bank { d.bank m.bank with want := some (assign, owner) }
  | none => d.beginHandover b assign owner

/-- The ownership part of a write of CLU_BANK or CLU_CORE_OWN: refused when it takes away a bank that a window names. -/
def Dev.writeOwner (d : Dev) (b : BankId) (assign owner : Nat) : Dev :=
  if d.ownState b = 2 ∨ d.ownState b = 3 then d
  else if assign = d.bankAssign b ∧ owner = d.bankOwner b then d
  else
    let refused := match b with
      | .cluster c x => d.bankAssign b == 1 && d.windowBank c x
      | .core _ _ _ => false
    if refused then d.bankSet Bar.CLU_BANK_REFUSED Bar.CLU_CORE_OWN_REFUSED 1 b else d.handOver b assign owner

/-- A write of a bank's register: LOST and REFUSED are cleared by 1, COLD_REQ is stored, ownership changes. -/
def Dev.writeBank (d : Dev) (b : BankId) (v : Nat) : Dev :=
  let d1 := if slice v 60 60 = 1 then (bankGroup b).foldl (fun d x => d.setBankLost false x) d else d
  let d2 := if slice v 59 59 = 1 then d1.bankSet Bar.CLU_BANK_REFUSED Bar.CLU_CORE_OWN_REFUSED 0 b else d1
  let d3 := d2.bankSet Bar.CLU_BANK_COLD_REQ Bar.CLU_CORE_OWN_COLD_REQ (slice v 16 16) b
  d3.writeOwner b (slice v 8 8) (slice v 7 0)

/-- A wake ends; a bank whose contents were lost in cold frame writes poison syndromes (R156, R157). -/
def Dev.wakeDone (d : Dev) (b : BankId) : Dev :=
  if d.bankCold b && (d.bank b).waking then
    let x := d.bank b
    let d1 := (d.setBank b { x with waking := false, gone := false, lastUse := d.now }).setBankCold false b
    if x.gone then d1.poisonBank b else d1
  else d

/-- An access of an invocation, or of an engine, meets cold frame: the bank starts to wake (R156). -/
def Dev.wakeBank (d : Dev) (b : BankId) (who : List (Nat × Nat)) : Dev :=
  d.setBank b { d.bank b with waking := true, waiters := (d.bank b).waiters ++ who.filter fun w => !(d.bank b).waiters.contains w }

/-- An access of an engine that meets cold frame waits for the wake: here it is made to end at once. -/
def Dev.wakeNow (d : Dev) (b : BankId) : Dev := if d.bankCold b then (d.wakeBank b []).wakeDone b else d

/-- Steps 3 to 5 of a hand-over of one bank (R151). -/
def Dev.bankHanded (d : Dev) (assign : Nat) (b : BankId) : Dev :=
  let d1 := d.wakeNow b
  let d2 := if (d1.bank b).wasFree && !d1.bankLost b then d1
    else (d1.clearSpad (bankStart b) (bankSize b)).setBankLost false b
  (d2.setBank b { d2.bank b with lastUse := d.now, wasFree := false }).setBankState (if assign = 1 then 1 else 0) b

/-- Steps 2 to 5 of a hand-over have ended (R151); a core's banks wait for its running invocation, and a region under test
for its test. -/
def Dev.handoverDone (d : Dev) (b : BankId) : Dev :=
  let busy : Bool := match b with
    | .core c k _ => d.coreBusy (16 * c + k)
    | .cluster _ _ => false
  if busy || d.groupTest b then d
  else ((bankGroup b).filter fun x => d.bankState x == 2).foldl (fun d x => d.bankHanded (d.bankAssign b) x) d

def execBankHandoverDone (bank : BankId) (s : State) : Out :=
  .next (s.live fun d => if bankValid bank then d.handoverDone bank else d)

/-- A bank is handed to FREE for the reset of its owner (R152, R161, R395): OWNER keeps the name until the hand-over ends,
and a FAILED bank stays FAILED with no owner. -/
def Dev.takeAway (d : Dev) (a : Nat) (b : BankId) : Dev :=
  let off := d.bankSet Bar.CLU_BANK_ASSIGN Bar.CLU_CORE_OWN_ASSIGN 0 b
  if (bankGroup b).all fun x => d.bankState x == 3 then off.bankSet Bar.CLU_BANK_OWNER Bar.CLU_CORE_OWN_OWNER 0 b
  else if (bankGroup b).any fun x => d.bankState x == 2 then off
  else d.handOver b 0 a

/-! ## Cold frame (R155-R157) -/

/-- A march, a background test or an access that waits for a wake is under way in a bank. -/
def Dev.bankInUse (d : Dev) (b : BankId) : Bool :=
  (d.marchOn b).isSome || (d.banks.tbt.map fun t => t.1 == b).getD false ||
  (d.bank b).waiters.any fun w => match kvGet? d.units w.1 with
    | some u => u.gen == w.2 && u.state != 0
    | none => false

def Dev.enterCold (d : Dev) (b : BankId) : Dev :=
  let idle := d.get Bar.CLU_COLD_CFG_IDLE_US
  let req := d.bankGet Bar.CLU_BANK_COLD_REQ Bar.CLU_CORE_OWN_COLD_REQ b == 1
  if !d.bankCold b && d.bankState b != 2 && !d.bankInUse b &&
      (req || (idle != 0 && decide ((d.bank b).lastUse + 1000 * idle ≤ d.now))) then d.setBankCold true b
  else d

def execColdFrameEntry (bank : BankId) (s : State) : Out :=
  .next (s.live fun d => if bankValid bank then d.enterCold bank else d)

/-- Arrivals at scratchpad (R148): the bytes in banks the allotment owns are written; each other bank counts one
discard. The answer is the number of bytes written. -/
def Dev.arriveAt (d : Dev) (a allot : Nat) (bs : List Byte) (poison : Bool) : Nat × Dev :=
  (banksOf a bs.length).foldl (fun (acc : Nat × Dev) b =>
    let lo := max a (bankStart b)
    let hi := min (a + bs.length) (bankStart b + bankSize b)
    if acc.2.mayUse allot b then
      (acc.1 + (hi - lo), ((acc.2.wakeNow b).landSpad lo ((bs.drop (lo - a)).take (hi - lo)) poison).useBank b)
    else (acc.1, acc.2.bankBump Bar.CLU_BANK_DISCARDED Bar.CLU_CORE_OWN_DISCARDED b)) (0, d)

/-- An engine reads scratchpad for an allotment, waking banks in cold frame and meeting errors: the bytes, whether they are
poisoned, and the device. Bytes of a bank that the allotment does not own any more are the error value. DEDUCED (log entry
78). -/
def Dev.fetchSpad (d : Dev) (a n allot : Nat) : List Byte × Bool × Dev :=
  let bs := banksOf a n
  if bs.all (d.mayUse allot) then
    let d1 := bs.foldl Dev.wakeNow d
    (d1.spadBytes a n, d1.spadPoisoned a n, bs.foldl Dev.useBank (d1.readErrors a n))
  else (errBytes n, true, d)

/-- A bank in cold frame loses its contents (R157). -/
def Dev.loseBank (d : Dev) (b : BankId) : Dev :=
  ((d.setBank b { d.bank b with gone := true }).setBankLost true b).cluEvent 0x05 (bankUnit b) 0

/-- VDD_RET falls: the banks in cold frame lose their contents. -/
def execVddRetLoss (s : State) : Out := .next (s.live fun d => (allBanks.filter d.bankCold).foldl Dev.loseBank d)

/-! ## Marches (R158-R161) -/

/-- The bank that a march or test register names. -/
def marchBank (kind c core bank : Nat) : BankId := if kind = 0 then .cluster c bank else .core c core (min 7 bank)

/-- A weeding pass's march holds the cluster's engine (R465). -/
def Dev.passHolds (d : Dev) (c : Nat) : Bool := d.wdp.held.any fun n => n / 16 == c

/-- A start-up march or a march of the weeding pass is under way in a bank. -/
def Dev.otherMarch (d : Dev) : BankId → Bool
  | .cluster c _ => !d.flag Bar.CLU_MARCH_STATUS_DONE c
  | .core c k _ => !d.flag Bar.CLU_MARCH_STATUS_DONE c || d.wdp.held.contains (16 * c + k)

/-- A write of CLU_MARCH_CTL (R160); a bank in cold frame is woken (R156). -/
def Dev.marchStart (d : Dev) (c v : Nat) : Dev :=
  let kind := slice v 11 11
  let bank := if kind = 1 then min 7 (slice v 5 0) else slice v 5 0
  let d1 := (((d.set Bar.CLU_MARCH_CTL_MODE (slice v 12 12) c).set Bar.CLU_MARCH_CTL_KIND kind c).set
    Bar.CLU_MARCH_CTL_CORE (slice v 9 6) c).set Bar.CLU_MARCH_CTL_BANK bank c
  if slice v 31 31 = 0 then d1
  else
    let b := marchBank kind c (slice v 9 6) bank
    let st := d1.bankState b
    let pres := slice v 12 12 == 1
    if d1.flag Bar.CLU_MARCH_STATUS_BUSY c || d1.passHolds c || st == 2 || st == 3 || (!pres && st != 0) then
      d1.set Bar.CLU_MARCH_STATUS_RESULT 3 c
    else
      let d2 := d1.wakeNow b
      ({ d2 with banks := { d2.banks with march := kvPut d2.banks.march c ⟨b, pres, 0⟩ } }).set Bar.CLU_MARCH_STATUS_BUSY 1 c

def execMarchStart (c v : Nat) (s : State) : Out := .next (s.host fun d => if c < 16 then d.marchStart c v else d)

/-- A failing cluster-bank row takes a spare; without one, or in a core bank, the bank fails (R161). -/
def Dev.repairRow (d : Dev) (b : BankId) (row : Nat) : Bool × Dev :=
  let fails : Dev := ((d.setBank b { d.bank b with failedRows := setIns row (d.bank b).failedRows }).setBankState 3 b).cluEvent
    0x07 (bankUnit b) row
  match b with
  | .cluster c x =>
    if d.get Bar.CLU_BANK_SPARES_LEFT c x ≠ 0 then
      (true, (d.drop Bar.CLU_BANK_SPARES_LEFT 1 c x).cluEvent 0x06 (bankUnit b) row)
    else (false, fails)
  | .core _ _ _ => (false, fails)

/-- Repair every failing row; the answer says whether all found spares. -/
def Dev.repairRows (d : Dev) (b : BankId) (rows : List Nat) : Bool × Dev :=
  rows.foldl (fun (acc : Bool × Dev) r =>
    let x := acc.2.repairRow b r
    (acc.1 && x.1, x.2)) (true, d)

/-- What a march leaves in a bank: zeros, or its contents with the words that read uncorrectable during the save poisoned
(R158, R161). -/
def Dev.marched (d : Dev) (m : March) (words : List Nat) : Dev :=
  if m.preserving then
    { d with banks := { d.banks with
      poison := (words.filter fun w => decide (8 * w < bankSize m.bank)).foldl
        (fun p w => setIns (bankStart m.bank / 8 + w) p) d.banks.poison } }
  else d.clearSpad (bankStart m.bank) (bankSize m.bank)

/-- A march on request ends: the bank's failing rows, and in preserving mode the words that read uncorrectable during
the save, by word number within the bank. What waited for the row under test goes on, and a hand-over that waited begins
(R160). -/
def Dev.marchDone (d : Dev) (c : Nat) (rows words : List Nat) : Dev :=
  match kvGet? d.banks.march c with
  | none => d
  | some m =>
    let d1 := { d with banks := { d.banks with march := kvDel d.banks.march c } }.marched m words
    let r := d1.repairRows m.bank rows
    let res := if rows.isEmpty then 0 else if r.1 then 1 else 2
    let d3 := (((r.2.landParcels).set Bar.CLU_MARCH_STATUS_BUSY 0 c).set Bar.CLU_MARCH_STATUS_RESULT res c).set
      Bar.CLU_MARCH_STATUS_ROWS_FAILED (min 255 rows.length) c
    match (d3.bank m.bank).want with
    | some (x, o) =>
      if d3.bankState m.bank = 3 then d3.setBank m.bank { d3.bank m.bank with want := none }
      else d3.beginHandover m.bank x o
    | none => d3

def execMarchDone (c : Nat) (failRows uncorrWords : List Nat) (s : State) : Out :=
  .next (s.live fun d => d.marchDone c failRows uncorrWords)

/-! ## Transparent background test (R162, R163) -/

def Dev.tbtStart (d : Dev) (v : Nat) : Dev :=
  let kind := slice v 31 31
  let bank := if kind = 1 then min 7 (slice v 26 21) else slice v 26 21
  let off := min (slice v 17 0) (if kind = 1 then 131072 - 4096 else 262144 - 4096)
  let d1 := ((((d.set Bar.CLU_TBT_CTL_CLUSTER (slice v 35 32)).set Bar.CLU_TBT_CTL_KIND kind).set
    Bar.CLU_TBT_CTL_CORE (slice v 30 27)).set Bar.CLU_TBT_CTL_BANK bank).set Bar.CLU_TBT_CTL_OFFSET off
  if slice v 63 63 = 0 then d1
  else
    let b := marchBank kind (slice v 35 32) (slice v 30 27) bank
    if d1.flag Bar.CLU_TBT_STATUS_BUSY || d1.bankState b == 2 || d1.bankState b == 3 || (d1.marchOn b).isSome ||
        d1.otherMarch b then
      d1.set Bar.CLU_TBT_STATUS_RESULT 3
    else
      let d2 := d1.wakeNow b
      ({ d2 with banks := { d2.banks with tbt := some (b, off / 4096 * 4096) } }).set Bar.CLU_TBT_STATUS_BUSY 1

def execTbtStart (v : Nat) (s : State) : Out := .next (s.host fun d => d.tbtStart v)

/-- The contents of a range become undefined: its bytes are free values of a fresh draw. -/
def Dev.undefine (d : Dev) (a n : Nat) : Dev :=
  { d with free := d.free + 1, banks := { d.banks with undef := cutRanges d.banks.undef a n ++ [(a, n, d.free)] } }

/-- The test ends: pass, or the first failing 64-byte unit, whose region's contents are then not guaranteed. What waited for
the region lands afterwards. -/
def Dev.tbtDone (d : Dev) (fail : Option Nat) : Dev :=
  match d.banks.tbt with
  | none => d
  | some (b, off) =>
    let d1 := ({ d with banks := { d.banks with tbt := none } }).set Bar.CLU_TBT_STATUS_BUSY 0
    match fail with
    | none => d1.landParcels.set Bar.CLU_TBT_STATUS_RESULT 0
    | some u =>
      let at' := off + 64 * (u % 64)
      let d2 := (d1.undefine (bankStart b + off) 4096).landParcels
      ((d2.set Bar.CLU_TBT_STATUS_RESULT 1).set Bar.CLU_TBT_STATUS_FAIL_OFFSET at').cluEvent 0x08 (bankUnit b) at'

def execTbtDone (failUnit : Option Nat) (s : State) : Out := .next (s.live fun d => d.tbtDone failUnit)

end Sys2Proof.Machine
end

