-- ==== Sys2Proof/Machine/ObjCmd.lean ====
section
/-! DEFINITION. Object commands (R134-R137, R141, R209, R385) and layer-streaming windows (R142-R144). -/

namespace Sys2Proof.Machine

/-! ## Arguments -/

def Dev.objArg (d : Dev) (w n : Nat) : Nat := d.get Bar.MEM_OBJ_ARG_ARG w n

/-- OBJ names a valid entry. -/
def Dev.objValid (d : Dev) (n : Nat) : Bool := d.pool.objs.contains n

/-- Every page of a range lies in a valid span of an allotment (R119, R136). -/
def Dev.spansOk (d : Dev) (a page n : Nat) : Bool :=
  page + n ≤ 2 ^ 40 && (List.range ((page + n - 1) / 2 ^ 24 + 1 - page / 2 ^ 24)).all fun i =>
    match d.spanOf ((page / 2 ^ 24 + i) * 2 ^ 40) with
    | some x => d.get Bar.MEM_SPAN_ALLOT x == a
    | none => false

/-- A range of pages meets an object, or one whose destruction has not ended. DEDUCED (log entry 75): R137 lets granted
requests and a page copy of a destroyed object complete, so its pages are taken until then. -/
def Dev.overlapsObject (d : Dev) (page n : Nat) : Bool :=
  d.pool.objs.any (fun o => meets page n (d.get Bar.MEM_OBJ_BASE_PAGE o) (d.get Bar.MEM_OBJ_PAGES o)) ||
  d.pool.leaving.any fun e => decide (page ≤ e.1) && decide (e.1 < page + n)

/-- The lowest free entry of the object table. -/
def Dev.freeObj (d : Dev) : Option Nat := firstGap 16384 d.pool.objs 0

/-- An object enters the table. -/
def Dev.addObj (d : Dev) (n a policy die page pages src : Nat) : Dev :=
  let d1 := ((d.putWord Bar.MEM_OBJ 0 n).set Bar.MEM_OBJ_ALLOT a n).set Bar.MEM_OBJ_VALID 1 n
  let d2 := ((d1.set Bar.MEM_OBJ_POLICY policy n).set Bar.MEM_OBJ_HOME_DIE die n).set Bar.MEM_OBJ_BASE_PAGE page n
  let d3 := (d2.set Bar.MEM_OBJ_PAGES pages n).set Bar.MEM_OBJ_STREAM_SRC src n
  { d3 with pool := { d3.pool with objs := setIns n d3.pool.objs } }

/-- The object is homed in tier 1 under a policy (R134). -/
def homeT1 (policy src : Nat) : Bool := policy == 0 || (policy == 2 && src == 1)

/-- Allocate the home frames of k pages, from page number n of an object at `page` on; none when frames run out. -/
def Dev.allocPages (d : Dev) (t1 : Bool) (die a page : Nat) : Nat → Nat → Option Dev
  | 0, _ => some d
  | k + 1, n =>
    match if t1 then d.allocT1 die n a else d.allocT2 n a with
    | none => none
    | some (f, d1) => (d1.newPage (page + n) (some f)).allocPages t1 die a page k (n + 1)

/-! ## CREATE and DESTROY -/

def Dev.objectCreate (d : Dev) (w : Nat) : Dev :=
  let x := d.objArg w 0
  let a := slice x 63 56
  let die := min 2 (slice x 29 28)
  let policy := slice x 25 24
  let src := slice x 16 16
  let page := slice (d.objArg w 1) 55 16
  let pages := max 1 (slice (d.objArg w 2) 27 0)
  if d.inReset a then d.objDone w Code.resetting
  else if d.disabled a || !d.spansOk a page pages || d.overlapsObject page pages then d.objDone w Code.access
  else match d.freeObj with
    | none => d.objDone w Code.busy
    | some n =>
      match if policy = 3 then some d else d.allocPages (homeT1 policy src) die a page pages 0 with
      | none => d.objDone w Code.busy
      | some d1 => (((d1.addObj n a policy die page pages src).set Bar.MEM_OBJ_RESULT_OBJ n w).objDone w Code.ok).pump

/-- An object leaves the table, so that its addresses are unreachable at once; its pages are freed and its directory
entries dropped, those that a granted request, a page copy or an NMU command uses when it has ended (R119, R137). -/
def Dev.dropObj (d : Dev) (n : Nat) (w : Option Nat := none) : Dev :=
  let page := d.get Bar.MEM_OBJ_BASE_PAGE n
  let pages := d.get Bar.MEM_OBJ_PAGES n
  let inside (pg : Nat) : Bool := decide (page ≤ pg) && decide (pg < page + pages)
  let mine := ((d.pool.pmap.map Prod.fst).filter inside)
  let busy := mine.filter d.pageBusy
  let d1 := (mine.filter fun pg => !busy.contains pg).foldl Dev.unmapPage d
  let gone (ln : Nat) : Bool := inside (ln / 512) && !busy.contains (ln / 512)
  let d2 : Dev := { d1 with
    pool := { d1.pool with
      objs := setDel n d1.pool.objs, leaving := busy.foldl (fun m pg => kvPut m pg w) d1.pool.leaving }
    coh := { d1.coh with
      dir := d1.coh.dir.filter fun e => !gone e.1, ways := d1.coh.ways.filter fun e => !gone e.1 } }
  d2.putWord Bar.MEM_OBJ 0 n

/-- The checks that commands on an object share: status, or the object's allotment (R136, R385). -/
def Dev.objCheck (d : Dev) (n : Nat) (plain : Bool) : Option Nat :=
  if !d.objValid n then some Code.access
  else if d.inReset (d.get Bar.MEM_OBJ_ALLOT n) then some Code.resetting
  else if plain && d.flag Bar.MEM_OBJ_VERSIONED n then some Code.access
  else none

/-- DESTROY ends once every page of the object has been freed (R137). -/
def Dev.objectDestroy (d : Dev) (w : Nat) : Dev :=
  let n := slice (d.objArg w 0) 13 0
  match d.objCheck n true with
  | some st => d.objDone w st
  | none =>
    let d1 := (d.set Bar.MEM_OBJ_RESULT_DONE 0 w).dropObj n (some w)
    (if d1.pool.leaving.any (fun e => e.2 == some w) then d1 else d1.objDone w Code.ok).pump.retry

/-! ## SET_POLICY, PROMOTE and DEMOTE -/

/-- Pages whose home lies in the other tier. -/
def Dev.toMove (d : Dev) (n : Nat) (t1 : Bool) : List Nat :=
  (d.objPages n).filter fun pg => match (d.page? pg).bind Page.home with
    | some h => isT1 h != t1
    | none => false

/-- Free frames in the tier and on the die that an object's pages go to. -/
def Dev.freeFor (d : Dev) (n : Nat) (t1 : Bool) : Nat :=
  if t1 then ((stacksOf (d.get Bar.MEM_OBJ_HOME_DIE n)).map d.stackFree).sum else d.t2Free

/-- SET_POLICY: the moves of an earlier policy that are still to be made are given up (R135). -/
def Dev.setPolicy (d : Dev) (w : Nat) : Dev :=
  let x := d.objArg w 0
  let n := slice x 13 0
  let policy := slice x 25 24
  match d.objCheck n true with
  | some st => d.objDone w st
  | none =>
    if (policy == 3) != (d.get Bar.MEM_OBJ_POLICY n == 3) then d.objDone w Code.access
    else if policy = 3 then d.objDone w Code.ok
    else
      let t1 := homeT1 policy (d.get Bar.MEM_OBJ_STREAM_SRC n)
      if d.freeFor n t1 < (d.toMove n t1).length then d.objDone w Code.busy
      else
        let d1 : Dev := { d with pool := { d.pool with jobs := d.pool.jobs.filter fun j => !(j.kind == 3 && j.obj == n) } }
        (((d1.set Bar.MEM_OBJ_POLICY policy n).objDone w Code.ok).addJob
          ⟨3, none, n, if t1 then 1 else 0, d.objPages n⟩).pump

/-- PROMOTE (kind 0) and DEMOTE (kind 1): the window waits for the moves. -/
def Dev.moveObject (d : Dev) (w kind : Nat) : Dev :=
  let n := slice (d.objArg w 0) 13 0
  match d.objCheck n false with
  | some st => d.objDone w st
  | none =>
    if d.get Bar.MEM_OBJ_POLICY n ≠ 1 then d.objDone w Code.access
    else
      let size := d.get Bar.MEM_OBJ_PAGES n
      let first := min (slice (d.objArg w 1) 27 0) (size - 1)
      let count := min (slice (d.objArg w 2) 27 0) (size - first)
      let pgs := (List.range count).map (· + d.get Bar.MEM_OBJ_BASE_PAGE n + first)
      ((d.set Bar.MEM_OBJ_RESULT_DONE 0 w).addJob ⟨kind, some w, n, 0, pgs⟩).pump

/-! ## Layer-streaming windows -/

/-- Banks of one slot. -/
def slotBanks (slice : Nat) : Nat := (slice + 3) / 4

/-- The clusters of a mask, in rising order. -/
def maskList (mask : Nat) : List Nat := (List.range 16).filter mask.testBit

/-- A window's values after the clamps of R142. -/
def Dev.windowOf (d : Dev) (n x : Nat) : Window :=
  let mask := slice x 63 48
  let base := slice x 5 0
  let split := slice x 24 24 == 1
  let room := 64 - base
  let sl0 := max 1 (slice x 39 32)
  let fits := slotBanks sl0 ≤ room
  let sl := if fits then sl0 else 4 * room
  let dep := if fits then min (clampTo 1 8 (slice x 31 28)) (room / slotBanks sl0) else 1
  let per := if split then max 1 (maskList mask).length * sl else sl
  { obj := n, allot := d.get Bar.MEM_OBJ_ALLOT n, mask := mask
    layers := max 1 (min (min 128 (slice x 47 40 + 1)) (d.get Bar.MEM_OBJ_PAGES n / per))
    slice := sl, depth := dep, split := split, base := base, enabled := true
    slots := List.replicate dep ⟨none, 0, false, 0⟩ }

/-- The allotment owns every bank of a window. -/
def Dev.windowOwned (d : Dev) (x : Window) : Bool :=
  (maskList x.mask).all fun c => (List.range (x.depth * slotBanks x.slice)).all fun i =>
    d.mayUse x.allot (.cluster c (x.base + i))

/-- A slot is loading. -/
def WinSlot.loading (s : WinSlot) : Bool := s.layer.isSome && !s.loaded

def Dev.putWin (d : Dev) (w : Nat) (x : Window) : Dev := { d with pool := { d.pool with wins := kvPut d.pool.wins w x } }

/-- The scratchpad address of a slot within its cluster. -/
def Window.place (x : Window) (slot : Nat) : Nat := 262144 * (x.base + slot * slotBanks x.slice)

/-- The contents of a window's acquired slots become undefined, in every cluster of the mask (R144). -/
def Dev.undefineSlots (d : Dev) (x : Window) : Dev :=
  (x.slots.zipIdx.filter fun e => e.1.uses != 0).foldl (fun d e =>
    (maskList x.mask).foldl (fun d c => d.undefine (clusterBase c + x.place e.2) (65536 * x.slice)) d) d

/-- A window is disabled: its banks are released once no load is in progress, and a slot that is still acquired holds
undefined data (R144). -/
def Dev.disableWin (d : Dev) (w : Nat) : Dev :=
  match kvGet? d.pool.wins w with
  | none => d
  | some x =>
    let d1 := d.undefineSlots x
    if x.slots.any WinSlot.loading then d1.putWin w { x with enabled := false }
    else { d1 with pool := { d1.pool with wins := kvDel d1.pool.wins w } }

def Dev.windowCmd (d : Dev) (w : Nat) : Dev :=
  let x := d.objArg w 0
  let n := slice x 13 0
  let win := slice x 37 32
  match d.objCheck n true with
  | some st => d.objDone w st
  | none =>
    if slice x 55 55 = 0 then (d.disableWin win).objDone w Code.ok
    else
      let y := d.windowOf n (d.objArg w 1)
      if d.disabled y.allot || d.get Bar.MEM_OBJ_POLICY n != 2 || !d.windowOwned y then d.objDone w Code.access
      else (d.putWin win y).objDone w Code.ok

/-- Object offset in pages of the slice of a layer for the cluster of rank i. -/
def Window.offset (x : Window) (layer i : Nat) : Nat :=
  if x.split then (layer * (maskList x.mask).length + i) * x.slice else layer * x.slice

/-- The slot for a load: use count 0, least recently acquired. -/
def Window.victim (x : Window) (keep : List Nat) : Option Nat :=
  (x.slots.zipIdx.foldl (fun (best : Option (Nat × Nat)) e =>
    let kept := match e.1.layer with
      | some l => keep.contains l
      | none => false
    if e.1.uses != 0 || kept then best
    else
      let t := if e.1.layer.isNone then 0 else e.1.last
      match best with
      | none => some (e.2, t)
      | some b => if t < b.2 then some (e.2, t) else best) none).map Prod.fst

/-- The layer's slot, if it is resident or loading. -/
def Window.find (x : Window) (l : Nat) : Option Nat := x.slots.findIdx? fun s => s.layer == some l

/-- The next order number of an acquire. -/
def Window.stamp (x : Window) : Nat := (x.slots.map WinSlot.last).foldl max 0 + 1

/-- Start the loads of the layers that follow an acquired one. -/
def Window.ahead (x : Window) (keep : List Nat) (t : Nat) : List Nat → Window
  | [] => x
  | l :: ls =>
    if (x.find l).isSome then x.ahead keep t ls
    else match x.victim keep with
      | none => x.ahead keep t ls
      | some i => { x with slots := x.slots.set i ⟨some l, 0, false, t⟩ }.ahead keep t ls

/-- Acquire a layer: the slot, and the window after it; none while every slot is in use (R143). -/
def Window.acquire (x : Window) (l : Nat) : Option (Nat × Window) :=
  let t := x.stamp
  let keep := (List.range x.depth).map fun i => (l + i) % x.layers
  match (match x.find l with
    | some i => (x.slots[i]?).map fun s => (i, { s with uses := s.uses + 1, last := t })
    | none => (x.victim []).map fun i => (i, ⟨some l, 1, false, t⟩)) with
  | none => none
  | some (i, s) => some (i, { x with slots := x.slots.set i s }.ahead keep t (keep.drop 1))

/-- Release one acquire of a layer. -/
def Window.release (x : Window) (l : Nat) : Window :=
  { x with slots := x.slots.map fun s => if s.layer == some l then { s with uses := s.uses - 1 } else s }

/-! ## The commands -/

/-- A command starts only while its window is DONE (R135). -/
def Dev.objCmd (d : Dev) (w : Nat) (f : Dev → Nat → Dev) : Dev :=
  if w < 3 ∧ d.flag Bar.MEM_OBJ_RESULT_DONE w then f d w else d

def execObjectCreate (w : Nat) (s : State) : Out := .next (s.window w fun d => d.objCmd w Dev.objectCreate)
def execObjectDestroy (w : Nat) (s : State) : Out := .next (s.window w fun d => d.objCmd w Dev.objectDestroy)
def execSetPolicy (w : Nat) (s : State) : Out := .next (s.window w fun d => d.objCmd w Dev.setPolicy)
def execPromote (w : Nat) (s : State) : Out := .next (s.window w fun d => d.objCmd w fun d w => d.moveObject w 0)
def execDemote (w : Nat) (s : State) : Out := .next (s.window w fun d => d.objCmd w fun d w => d.moveObject w 1)
def execWindow (w : Nat) (s : State) : Out := .next (s.window w fun d => d.objCmd w Dev.windowCmd)

end Sys2Proof.Machine
end

