-- ==== Sys2Proof/Machine/Flags.lean ====
section
/-! DEFINITION. Program status of a fetching unit: PSTAT, FLTINFO, arrival counters, and the end of an invocation
(R227, R232, R233, R237, R238). Unit k is core k for k below 256, and Gardener k - 256 otherwise. -/

namespace Sys2Proof.Machine

/-! ## Units -/

/-- A unit with every register at 0 (R231). -/
def UnitSt.idle : UnitSt :=
  { state := 0, gen := 0, inv := none, pc := 0, lastPc := 0, s := [], sPoison := [], v := [], vPoison := [], t := []
    tPoison := [], p := [], a := [], ch := [], sctx := [], pstat := 0, flt := 0, limit := 0, final := none
    sesStatus := none, res := (0, 0), wins := [], queues := [], takes := [], takeTurn := [], halted := false, mem := []
    memPoison := [] }

/-- Every fragment of an invocation has arrived. -/
def Inv.whole (i : Inv) : Bool := (List.range (i.last + 1)).all i.arrived.contains

def Dev.unit (d : Dev) (k : Nat) : UnitSt := kvGetD d.units k UnitSt.idle
def Dev.setUnit (d : Dev) (k : Nat) (u : UnitSt) : Dev := { d with units := kvPut d.units k u }
def Dev.modUnit (d : Dev) (k : Nat) (g : UnitSt → UnitSt) : Dev := d.setUnit k (g (d.unit k))

def unitKey : UnitId → Nat
  | .core n => n % 256
  | .gardener x => 256 + x % 2

def isCore (k : Nat) : Bool := decide (k < 256)

/-- The allotment that a unit acts in: its invocation's, 0 for a Gardener (R242). -/
def Dev.unitAllot (d : Dev) (k : Nat) : Nat :=
  match (d.unit k).inv with
  | some i => i.allot
  | none => 0

/-- The Trellis port and the tags of a unit's requests (R67). -/
def unitPort (k : Nat) : TPort := if k < 256 then .cluster (k / 16) else .memSide (k - 256)
def unitTagRange (k : Nat) : Nat × Nat := if k < 256 then clusterTags (k / 16) else unitTags (k - 255)

/-- An invocation of generation `gen` still runs or drains on a unit: its late answers count. -/
def Dev.holds (d : Dev) (k gen : Nat) : Bool :=
  if k < 256 then
    let u := d.unit k
    (u.state == 2 || u.state == 3) && u.gen == gen && u.final.isNone
  else !(d.unit k).halted

/-! ## PSTAT and FLTINFO -/

def cfailBit (ctr : Nat) : Nat := 32 + ctr % 16
def setBit (x i : Nat) : Nat := if x.testBit i then x else x + 2 ^ i
def clearBit (x i : Nat) : Nat := if x.testBit i then x - 2 ^ i else x

/-- PSTAT.POISON is set (R232). -/
def UnitSt.markPoison (u : UnitSt) : UnitSt := { u with pstat := setBit u.pstat 55 }

/-- A FLTINFO record. -/
def fltRecord (cause status : Nat) (fatal : Bool) (engine pc addr : Nat) : Nat :=
  cause * 2 ^ 120 + status % 256 * 2 ^ 112 + (if fatal then 2 ^ 111 else 0) + engine * 2 ^ 107 +
    pc % 65536 * 2 ^ 80 + addr % 2 ^ 56

/-- A record meets FLTINFO: the first is kept, a later one sets MORE, a fatal one replaces one that is not (R237). -/
def UnitSt.putFlt (u : UnitSt) (r : Nat) : UnitSt :=
  if !u.pstat.testBit 54 || (r.testBit 111 && !u.flt.testBit 111) then { u with flt := r, pstat := setBit u.pstat 54 }
  else { u with flt := setBit u.flt 110 }

namespace Cause
def undefOp : Nat := 0x01
def pcRange : Nat := 0x02
def spadAccess : Nat := 0x03
def poolAccess : Nat := 0x04
def fetchErr : Nat := 0x05
def coreRemoved : Nat := 0x06
def explicit : Nat := 0x07
def fabricErr : Nat := 0x10
end Cause

/-- A request of a program fails: a FABRIC_ERR record names the instruction that issued it (R236). -/
def Dev.fabricErr (d : Dev) (k gen engine pc status addr : Nat) : Dev :=
  if d.holds k gen then d.modUnit k fun u => u.putFlt (fltRecord Cause.fabricErr status false engine pc addr) else d

/-! ## Arrival counters (R233) -/

/-- Bytes arrive: the counter stops at 2^48 - 1. -/
def Dev.arrive (d : Dev) (k gen ctr n : Nat) : Dev :=
  if d.holds k gen then
    d.modUnit k fun u => { u with a := kvPut u.a (ctr % 16) (min (kvGetD u.a (ctr % 16) 0 + n) (2 ^ 48 - 1)) }
  else d

/-- A copy counted on a counter has ended under R88. -/
def Dev.failCounter (d : Dev) (k gen ctr : Nat) : Dev :=
  if d.holds k gen then d.modUnit k fun u => { u with pstat := setBit u.pstat (cfailBit ctr) } else d

/-! ## The end of an invocation -/

/-- Descriptors of an invocation leave a cluster engine's queue (R360). -/
def dropDescs (k gen : Nat) (q : Kv (List Desc)) : Kv (List Desc) :=
  kvMap q fun _ l => l.filter fun x => !(x.core == k && x.gen == gen)

/-- An invocation ends without draining (R227, R238, R240): its copies are cancelled, its descriptors dropped; the
RESULT follows. -/
def Dev.endInv (d : Dev) (k status : Nat) : Dev :=
  let u := d.unit k
  let d1 := d.setUnit k { u with state := 3, final := some status, queues := [] }
  { d1 with
    copies := d1.copies.filter fun e => !(e.2.core == k && e.2.gen == u.gen)
    eng := { d1.eng with
      rake := dropDescs k u.gen d1.eng.rake, sieve := dropDescs k u.gen d1.eng.sieve
      parts := dropDescs k u.gen d1.eng.parts } }

/-- A fatal fault: it ends an invocation with PROGRAM_FAULT (R238), or halts a Gardener (R242). -/
def Dev.fatal (d : Dev) (k cause status engine pc addr : Nat) : Dev :=
  let r := fltRecord cause status true engine pc addr
  let d1 := d.modUnit k fun u => u.putFlt r
  if k < 256 then
    ((d1.endInv k Code.programFault).bump Bar.CLU_STATUS_FAULTS 1 (k / 16)).alm1 Blk.clu 0x02 k (d.unitAllot k) 0 r
  else
    (((d1.modUnit k fun u => { u with halted := true, queues := [] }).alm1 Blk.clu 0x03 (k - 256) 0 0 r).alert Blk.clu).sysVec Blk.clu

/-- A core is removed from dispatch until the next package reset (R15); what it runs ends with CORE_REMOVED. DESIGN CHOICE
(log entry 79): an INVOKE that still assembles on it ends with PROGRAM_FAULT too, without a fault record and without a count
in FAULTS, since no instruction of it has run. -/
def Dev.removeCore (d : Dev) (n cause : Nat) : Dev :=
  let c := n / 16
  let m := d.get Bar.CLU_STATUS_DISABLED c
  if m.testBit (n % 16) then d
  else
    let d1 := ((d.set Bar.CLU_STATUS_DISABLED (setBit m (n % 16)) c).alm1 Blk.clu 0x01 n 0 0 cause).alert Blk.clu
    let u := d1.unit n
    if u.state = 2 ∨ u.state = 3 ∧ u.final.isNone then d1.fatal n Cause.coreRemoved 0 0 u.lastPc 0
    else if u.state = 1 then d1.endInv n Code.programFault
    else d1

end Sys2Proof.Machine
end

