-- ==== Sys2Proof/Machine/Operands.lean ====
section
/-! DEFINITION. Operands of Clepor instructions: register files with their poison bits (R231, R232, R246), scratchpad
operands (R235), lanes and predicates (R257). -/

namespace Sys2Proof.Machine

/-- What an instruction does when its engine performs it: completes, branches, waits by handshake, or faults. -/
inductive Act where
  | go (d : Dev)
  | jump (d : Dev) (target : Int)
  | wait (d : Dev)
  | fault (d : Dev) (cause status addr : Nat)

/-! ## Scalar registers -/

/-- s[i]; s0 reads 0. -/
def UnitSt.rs (u : UnitSt) (i : Nat) : W64 := if i = 0 then 0 else kvGetD u.s i 0

/-- Poison bit of s[i]. -/
def UnitSt.sBad (u : UnitSt) (i : Nat) : Bool := i != 0 && u.sPoison.contains i

/-- Write s[i] with its poison bit; a write to s0 is discarded. Poison also sets PSTAT.POISON (R232). -/
def UnitSt.ws (u : UnitSt) (i : Nat) (x : W64) (bad : Bool) : UnitSt :=
  let u1 := if bad then u.markPoison else u
  if i = 0 then u1
  else { u1 with s := kvPut u1.s i x, sPoison := if bad then setIns i u1.sPoison else setDel i u1.sPoison }

def Dev.rs (d : Dev) (k : Nat) (i : BitVec 5) : W64 := (d.unit k).rs i.toNat
def Dev.sBad (d : Dev) (k : Nat) (i : BitVec 5) : Bool := (d.unit k).sBad i.toNat
def Dev.ws (d : Dev) (k : Nat) (i : BitVec 5) (x : W64) (bad : Bool) : Dev := d.modUnit k fun u => u.ws i.toNat x bad

/-- The second operand of the S format: s[RB] + IMM32, sign-extended (R246). -/
def Dev.opB (d : Dev) (k : Nat) (rb : BitVec 5) (imm : W32) : W64 := d.rs k rb + imm.signExtend 64

/-- A register pair starts at n clamped to 30 (R246). -/
def pairReg (i : BitVec 5) : BitVec 5 := if i = 31 then 30 else i

/-! ## Vector, tile and predicate registers -/

def zeroV : List W32 := List.replicate 128 0
def zeroT : List W32 := List.replicate 4096 0

def Dev.rv (d : Dev) (k : Nat) (i : BitVec 5) : List W32 := kvGetD (d.unit k).v i.toNat zeroV
def Dev.vBad (d : Dev) (k : Nat) (i : BitVec 5) : Bool := (d.unit k).vPoison.contains i.toNat
def UnitSt.wv (u : UnitSt) (i : Nat) (x : List W32) (bad : Bool) : UnitSt :=
  let u1 := if bad then u.markPoison else u
  { u1 with v := kvPut u1.v i x, vPoison := if bad then setIns i u1.vPoison else setDel i u1.vPoison }
def Dev.wv (d : Dev) (k : Nat) (i : BitVec 5) (x : List W32) (bad : Bool) : Dev := d.modUnit k fun u => u.wv i.toNat x bad

def Dev.rt (d : Dev) (k : Nat) (i : Nat) : List W32 := kvGetD (d.unit k).t (i % 8) zeroT
def Dev.tBad (d : Dev) (k : Nat) (i : Nat) : Bool := (d.unit k).tPoison.contains (i % 8)
def UnitSt.wt (u : UnitSt) (i : Nat) (x : List W32) (bad : Bool) : UnitSt :=
  let u1 := if bad then u.markPoison else u
  { u1 with t := kvPut u1.t (i % 8) x, tPoison := if bad then setIns (i % 8) u1.tPoison else setDel (i % 8) u1.tPoison }
def Dev.wt (d : Dev) (k : Nat) (i : Nat) (x : List W32) (bad : Bool) : Dev := d.modUnit k fun u => u.wt i x bad

/-- p[i], by the low 3 bits; p0 reads all-true. -/
def Dev.rp (d : Dev) (k : Nat) (i : Nat) : BitVec 128 :=
  if i % 8 = 0 then BitVec.allOnes 128 else kvGetD (d.unit k).p (i % 8) 0

/-- Write p[i]; a predicate of a poisoned operand is all-false and sets PSTAT.POISON (R232). -/
def UnitSt.wp (u : UnitSt) (i : Nat) (x : BitVec 128) (bad : Bool) : UnitSt :=
  let u1 := if bad then u.markPoison else u
  if i % 8 = 0 then u1 else { u1 with p := kvPut u1.p (i % 8) (if bad then 0 else x) }
def Dev.wp (d : Dev) (k : Nat) (i : Nat) (x : BitVec 128) (bad : Bool) : Dev := d.modUnit k fun u => u.wp i x bad

/-- The active lanes (R257). -/
def Dev.lanes (d : Dev) (k : Nat) (pred : BitVec 3) (pneg : Bool) : BitVec 128 :=
  if pneg then ~~~ d.rp k pred.toNat else d.rp k pred.toNat

/-- A P instruction's destination: the active lanes take the new values, the others stay. -/
def mergeLanes (act : BitVec 128) (new old : List W32) : List W32 :=
  (new.zip old).zipIdx.map fun e => if act.getLsbD e.2 then e.1.1 else e.1.2

/-- Write the active lanes of v[VD]; the old value counts as an operand where a lane keeps it. -/
def Dev.wvP (d : Dev) (k : Nat) (vd : BitVec 5) (act : BitVec 128) (x : List W32) (bad : Bool) : Dev :=
  d.wv k vd (mergeLanes act x (d.rv k vd)) (bad || (act != BitVec.allOnes 128 && d.vBad k vd))

/-- Element of a list of lanes. -/
def laneAt (v : List W32) (i : Nat) : W32 := v.getD i 0

/-! ## Scratchpad operands (R146, R156, R232, R235) -/

/-- Bits [24:0] of a register form a scratchpad address. -/
def spadAddr (x : W64) : Nat := x.toNat % 2 ^ 25

def alignDown (a n : Nat) : Nat := a / n * n

/-- Where a scratchpad address of a core lies. -/
def spadPlace (k a : Nat) : Nat := if a < 2 ^ 20 then coreBase k + a else clusterBase (k / 16) + (a - 2 ^ 24)

/-- Every byte of an access lies inside the allotment (R235, R242). -/
def Dev.spadOk (d : Dev) (k a n : Nat) : Bool :=
  if k < 256 then
    (decide (a + n ≤ 2 ^ 20) || (decide (2 ^ 24 ≤ a) && decide (a + n ≤ 2 ^ 25))) &&
    (banksOf (spadPlace k a) n).all fun b => d.mayUse (d.unitAllot k) b
  else decide (a + n ≤ 2 ^ 18)

/-- The banks of an access that are in cold frame. -/
def Dev.coldBanks (d : Dev) (k a n : Nat) : List BankId :=
  if k < 256 then (banksOf (spadPlace k a) n).filter d.bankCold else []

/-- An access lies in a row or a region under test (R158, R162). -/
def Dev.spadTested (d : Dev) (k a n : Nat) : Bool := decide (k < 256) && d.testWaits (spadPlace k a) n

/-- A Gardener's bytes are written: its words take and lose poison as those of a bank do (R146, R232). -/
def UnitSt.store (u : UnitSt) (a : Nat) (bs : List Byte) (bad : Bool) : UnitSt :=
  { u with mem := memWrites u.mem a bs, memPoison := (wordsIn a bs.length).foldl (wordPoison a bs.length bad) u.memPoison }

/-- A Gardener's bytes from an address, and whether a word of them is poisoned. -/
def UnitSt.load (u : UnitSt) (a n : Nat) : List Byte × Bool :=
  ((List.range n).map fun i => kvGetD u.mem (a + i) 0, (wordsIn a n).any u.memPoison.contains)

/-- Read n bytes of scratchpad as a program sees it: the bytes, whether a word is poisoned, and the device after. -/
def Dev.loadSpad (d : Dev) (k a n : Nat) : List Byte × Bool × Dev :=
  if k < 256 then
    let x := spadPlace k a
    (d.spadBytes x n, d.spadPoisoned x n, (banksOf x n).foldl Dev.useBank (d.readErrors x n))
  else
    let x := (d.unit k).load a n
    (x.1, x.2, d)

/-- Store bytes to scratchpad as a program sees it. -/
def Dev.storeSpad (d : Dev) (k a : Nat) (bs : List Byte) (bad : Bool) : Dev :=
  if k < 256 then
    let x := spadPlace k a
    (banksOf x bs.length).foldl Dev.useBank (d.spadWrite x bs bad)
  else d.modUnit k fun u => u.store a bs bad

/-- Use n bytes of scratchpad: outside the allotment faults, a row under test waits, cold frame wakes and waits. -/
def Dev.withSpad (d : Dev) (k a n : Nat) (f : Unit → Act) : Act :=
  if !d.spadOk k a n then .fault d Cause.spadAccess 0 a
  else if d.spadTested k a n then .wait d
  else if (d.coldBanks k a n).isEmpty then f ()
  else .wait ((d.coldBanks k a n).foldl (fun d b => d.wakeBank b [(k, (d.unit k).gen)]) d)

/-- Data of the device's engines arrives for a unit's allotment (R148). -/
def Dev.landAt (d : Dev) (k a : Nat) (bs : List Byte) (bad : Bool) : Dev :=
  if k < 256 then (d.arriveAt (spadPlace k a) (d.unitAllot k) bs bad).2
  else d.modUnit k fun u => u.store a bs bad

/-- FP32 lanes from bytes and back. -/
def wordsOf (bs : List Byte) : List W32 := ((List.range (bs.length / 4)).map fun i => (bs.drop (4 * i)).take 4).map fun c => BitVec.ofNat 32 (leNat c)
def bytesOf (ws : List W32) : List Byte := ws.flatMap fun w => toLe 4 w.toNat

end Sys2Proof.Machine
end

