-- ==== Sys2Proof/Machine/Vector.lean ====
section
/-! DEFINITION. What vector, tile and vector-scratchpad instructions do when VX or MX performs them (R232, R254, R255,
R257, R258). -/

namespace Sys2Proof.Machine

/-! ## Vector scratchpad (R254) -/

/-- Bytes of vld and vst: 0 means 512, above 512 is clamped, else rounded down to 4 with 1-3 clamped to 4. -/
def vecBytes (n : BitVec 16) : Nat :=
  let x := n.toNat
  if x = 0 ∨ 512 ≤ x then 512 else max 4 (x / 4 * 4)

def Dev.iVld (d : Dev) (k : Nat) (vd va : BitVec 5) (n : BitVec 16) : Act :=
  let m := vecBytes n
  let a := alignDown (spadAddr (d.rs k va)) 64
  d.withSpad k a m fun _ =>
    let r := d.loadSpad k a m
    .go (r.2.2.wv k vd (wordsOf r.1 ++ List.replicate (128 - m / 4) 0) r.2.1)

def Dev.iVst (d : Dev) (k : Nat) (vd va : BitVec 5) (n : BitVec 16) : Act :=
  let m := vecBytes n
  let a := alignDown (spadAddr (d.rs k va)) 64
  d.withSpad k a m fun _ => .go (d.storeSpad k a ((bytesOf (d.rv k vd)).take m) (d.vBad k vd))

/-- BF16 values from bytes and to bytes. -/
def ofHalves (bs : List Byte) : List W32 :=
  (List.range (bs.length / 2)).map fun i => Num.ofBf16 (leNat ((bs.drop (2 * i)).take 2))
def toHalves (ws : List W32) : List Byte := ws.flatMap fun w => toLe 2 (Num.toBf16 w)

def Dev.iVldH (d : Dev) (k : Nat) (vd va : BitVec 5) : Act :=
  let a := alignDown (spadAddr (d.rs k va)) 64
  d.withSpad k a 256 fun _ =>
    let r := d.loadSpad k a 256
    .go (r.2.2.wv k vd (ofHalves r.1) r.2.1)

def Dev.iVstH (d : Dev) (k : Nat) (vd va : BitVec 5) : Act :=
  let a := alignDown (spadAddr (d.rs k va)) 64
  d.withSpad k a 256 fun _ => .go (d.storeSpad k a (toHalves (d.rv k vd)) (d.vBad k vd))

/-! ## Tile scratchpad (R255) -/

/-- An MX operand in a window slot that is still loading waits (R143). -/
def Dev.slotLoading (d : Dev) (k a n : Nat) : Bool :=
  decide (2 ^ 24 ≤ a) && d.pool.wins.any fun e => e.2.mask.testBit (k / 16) &&
    e.2.slots.zipIdx.any fun s => s.1.loading && meets (a - 2 ^ 24) n (e.2.place s.2) (65536 * e.2.slice)

/-- An operand of the MX in scratchpad. -/
def Dev.withMx (d : Dev) (k a n : Nat) (f : Unit → Act) : Act :=
  d.withSpad k a n fun _ => if d.slotLoading k a n then .wait d else f ()

def tileAddr (d : Dev) (k : Nat) (sa : BitVec 5) : Nat := alignDown (spadAddr (d.rs k sa)) 256

def Dev.iTld (d : Dev) (k : Nat) (td : BitVec 3) (sa : BitVec 5) : Act :=
  let a := tileAddr d k sa
  d.withMx k a 16384 fun _ =>
    let r := d.loadSpad k a 16384
    .go (r.2.2.wt k td.toNat (wordsOf r.1) r.2.1)

def Dev.iTst (d : Dev) (k : Nat) (td : BitVec 3) (sa : BitVec 5) : Act :=
  let a := tileAddr d k sa
  d.withSpad k a 16384 fun _ => .go (d.storeSpad k a (bytesOf (d.rt k td.toNat)) (d.tBad k td.toNat))

def Dev.iTstH (d : Dev) (k : Nat) (td : BitVec 3) (sa : BitVec 5) : Act :=
  let a := tileAddr d k sa
  d.withSpad k a 8192 fun _ => .go (d.storeSpad k a (toHalves (d.rt k td.toNat)) (d.tBad k td.toNat))

def Dev.iTzero (d : Dev) (k : Nat) (td : BitVec 3) : Act := .go (d.wt k td.toNat zeroT false)

/-! ## Lane by lane (R257) -/

/-- A P instruction of two vectors. -/
def Dev.iLanes2 (d : Dev) (k : Nat) (vd va vb : BitVec 5) (pred : BitVec 3) (pneg : Bool) (f : W32 → W32 → W32) : Act :=
  .go (d.wvP k vd (d.lanes k pred pneg) (((d.rv k va).zip (d.rv k vb)).map fun p => f p.1 p.2)
    (d.vBad k va || d.vBad k vb))

/-- A P instruction of one vector. -/
def Dev.iLanes1 (d : Dev) (k : Nat) (vd va : BitVec 5) (pred : BitVec 3) (pneg : Bool) (f : W32 → W32) : Act :=
  .go (d.wvP k vd (d.lanes k pred pneg) ((d.rv k va).map f) (d.vBad k va))

def Dev.iVfma (d : Dev) (k : Nat) (vd va vb vc : BitVec 5) (pred : BitVec 3) (pneg : Bool) : Act :=
  .go (d.wvP k vd (d.lanes k pred pneg)
    ((((d.rv k va).zip (d.rv k vb)).zip (d.rv k vc)).map fun p => Num.ffma p.1.1 p.1.2 p.2)
    (d.vBad k va || d.vBad k vb || d.vBad k vc))

def Dev.iVbcast (d : Dev) (k : Nat) (vd sa : BitVec 5) (pred : BitVec 3) (pneg : Bool) : Act :=
  .go (d.wvP k vd (d.lanes k pred pneg) (List.replicate 128 ((d.rs k sa).truncate 32)) (d.sBad k sa))

/-- vsel writes every lane: active lanes take va, the others vb. -/
def Dev.iVsel (d : Dev) (k : Nat) (vd va vb : BitVec 5) (pred : BitVec 3) (pneg : Bool) : Act :=
  .go (d.wv k vd (mergeLanes (d.lanes k pred pneg) (d.rv k va) (d.rv k vb)) (d.vBad k va || d.vBad k vb))

/-- Bits of a predicate from a list of lanes. -/
def predOf (l : List Bool) : BitVec 128 := BitVec.ofNat 128 (l.foldr (fun b acc => 2 * acc + if b then 1 else 0) 0)

/-- vcmp: 0 in inactive lanes; an FN above 5 is clamped to 5. -/
def Dev.iVcmp (d : Dev) (k : Nat) (pd va vb : BitVec 5) (pred : BitVec 3) (pneg : Bool) (fn : BitVec 6) : Act :=
  .go (d.wp k pd.toNat
    (predOf (((d.rv k va).zip (d.rv k vb)).map fun p => Num.fcmp (min 5 fn.toNat) p.1 p.2) &&& d.lanes k pred pneg)
    (d.vBad k va || d.vBad k vb))

def Dev.iVmovS (d : Dev) (k : Nat) (sd va : BitVec 5) (lane : BitVec 16) : Act :=
  .go (d.ws k sd ((laneAt (d.rv k va) (min 127 lane.toNat)).zeroExtend 64) (d.vBad k va))

def Dev.iVins (d : Dev) (k : Nat) (vd sa : BitVec 5) (lane : BitVec 16) : Act :=
  .go (d.wv k vd ((d.rv k vd).set (min 127 lane.toNat) ((d.rs k sa).truncate 32)) (d.vBad k vd || d.sBad k sa))

/-- Row of a tile. -/
def tileRow (t : List W32) (r : Nat) : List W32 := (t.drop (64 * r)).take 64

def Dev.iVtrow (d : Dev) (k : Nat) (vd ta tb : BitVec 5) (row : BitVec 16) : Act :=
  let r := min 63 row.toNat
  .go (d.wv k vd (tileRow (d.rt k ta.toNat) r ++ tileRow (d.rt k tb.toNat) r) (d.tBad k ta.toNat || d.tBad k tb.toNat))

def Dev.iPand (d : Dev) (k : Nat) (pd pa pb : BitVec 5) : Act :=
  .go (d.wp k pd.toNat (d.rp k pa.toNat &&& d.rp k pb.toNat) false)
def Dev.iPor (d : Dev) (k : Nat) (pd pa pb : BitVec 5) : Act :=
  .go (d.wp k pd.toNat (d.rp k pa.toNat ||| d.rp k pb.toNat) false)
def Dev.iPnot (d : Dev) (k : Nat) (pd pa : BitVec 5) : Act := .go (d.wp k pd.toNat (~~~ d.rp k pa.toNat) false)

/-! ## Reductions (R258) -/

/-- Inactive lanes enter the tree as a given value; every lane of v[VD] gets the result. -/
def Dev.iReduce (d : Dev) (k : Nat) (vd va : BitVec 5) (pred : BitVec 3) (pneg : Bool) (g : W32 → W32) (neutral : W32)
    (f : List W32 → W32) : Act :=
  let xs := mergeLanes (d.lanes k pred pneg) ((d.rv k va).map g) (List.replicate 128 neutral)
  .go (d.wv k vd (List.replicate 128 (f xs)) (d.vBad k va))

/-- |x| of an FP32 pattern. -/
def absW (x : W32) : W32 := x &&& 0x7FFFFFFF

end Sys2Proof.Machine
end

