-- ==== Sys2Proof/Machine/Matrix.lean ====
section
/-! DEFINITION. What matrix, expander, quantise and attention-helper instructions do when MX or VX performs them (R259-
R262, R272, R287, R289, R308, R349-R353). -/

namespace Sys2Proof.Machine

/-! ## The expander stream of a core (R272, R349-R352) -/

def Dev.stream (d : Dev) (k : Nat) : Stream := kvGetD d.eng.streams k ⟨0, 0, 0, []⟩
def Dev.setStream (d : Dev) (k : Nat) (x : Stream) : Dev := { d with eng := { d.eng with streams := kvPut d.eng.streams k x } }

/-- Blocks of the stream not yet consumed. -/
def Stream.blocks (x : Stream) : Nat := x.left + x.bufs.length

def Dev.iXcfg (d : Dev) (k : Nat) (sa sb : BitVec 5) : Act :=
  .go (d.setStream k ⟨alignDown (spadAddr (d.rs k sa)) 16, clampTo 1 65535 (d.rs k sb).toNat, 0, []⟩)

def Dev.iXstat (d : Dev) (k : Nat) (sa : BitVec 5) : Act :=
  .go (d.ws k sa (BitVec.ofNat 64 ((d.stream k).consumed * 2 ^ 32 + (d.stream k).blocks)) false)

/-- The byte at an offset from a scratchpad address of a core. -/
def Dev.spadAt (d : Dev) (k a : Nat) (i : Nat) : Byte := d.spadByte (spadPlace k (a + i))

/-- Size of the block at an address: 16 bytes when its FORMAT is invalid. -/
def Dev.blockSize (d : Dev) (k a : Nat) : Nat := (Exc16.size (d.spadAt k a)).getD 16

/-- A block passes or fails its checks: its counters, and XSTAT unless the block is poisoned (R351, R352). -/
def Dev.blockChecked (d : Dev) (k a : Nat) : Option (List Byte) × Dev :=
  let c := k / 16
  let byte := d.spadAt k a
  let n := d.blockSize k a
  if d.spadPoisoned (spadPlace k a) n then (none, d.modUnit k UnitSt.markPoison)
  else
    let d0 := if Exc16.format byte = 1 ∧ Exc16.slow byte then d.bump Bar.EXP_CLU_SLOW 1 c else d
    match Exc16.decode byte with
    | .ok raw => (some raw, d0.bump (if Exc16.format byte = 1 then Bar.EXP_CLU_CODED else Bar.EXP_CLU_RAW) 1 c)
    | .fail s =>
      let d1 := d0.bump (if s = Code.compressLen then Bar.EXP_CLU_LEN else Bar.EXP_CLU_CODE) 1 c
      (none, d1.modUnit k fun u => if slice u.pstat 63 56 = 0 then { u with pstat := splice u.pstat 63 56 s } else u)

/-- The next block of the stream is decoded into a buffer; nothing when none is left to decode or it lies outside the
allotment. -/
def Dev.decodeNext (d : Dev) (k : Nat) : Dev :=
  let x := d.stream k
  if x.left = 0 then d
  else if !d.spadOk k x.next 16 || !d.spadOk k x.next (d.blockSize k x.next) then d
  else
    let n := d.blockSize k x.next
    let at' := spadPlace k x.next
    let d1 := ((banksOf at' n).foldl Dev.wakeNow d).readErrors at' n
    let r := d1.blockChecked k x.next
    r.2.setStream k { x with next := x.next + n, left := x.left - 1, bufs := x.bufs ++ [r.1] }

/-- One of the next n blocks from an address is not ready to be read: it lies in a row or a region under test, or in a window
slot that is still loading (R143, R313). -/
def Dev.blocksHeld (d : Dev) (k : Nat) : Nat → Nat → Bool
  | 0, _ => false
  | n + 1, a =>
    let size := d.blockSize k a
    d.spadTested k a size || d.slotLoading k a size || d.blocksHeld k n (a + size)

/-- A block is decoded ahead of the MX: two buffers (R349, R353). -/
def execExpanderBlockDecoded (core : Nat) (s : State) : Out :=
  .next (s.live fun d =>
    if core < 256 ∧ (d.stream core).bufs.length < 2 ∧ ¬ d.blocksHeld core 1 (d.stream core).next then d.decodeNext core
    else d)

/-- The MX consumes n blocks; none when a block lies outside the allotment, with its address. -/
def Dev.takeBlocks (d : Dev) (k : Nat) : Nat → List (Option (List Byte)) → (List (Option (List Byte)) × Dev) ⊕ Nat
  | 0, acc => .inl (acc.reverse, d)
  | n + 1, acc =>
    let d1 := if (d.stream k).bufs.isEmpty then d.decodeNext k else d
    let x := d1.stream k
    match x.bufs with
    | [] => .inr x.next
    | b :: bs => (d1.setStream k { x with bufs := bs, consumed := x.consumed + 1 }).takeBlocks k n (b :: acc)

/-! ## mma (R259, R289) -/

/-- Formats of A and B by MODE, clamped to 5: FN codes, 7 for BF16. -/
def modeFormats (mode : BitVec 4) : Nat × Nat :=
  match min 5 mode.toNat with
  | 0 => (7, 7)
  | 1 => (0, 0)
  | 2 => (0, 4)
  | 3 => (4, 4)
  | 4 => (0, 5)
  | _ => (6, 6)

/-- Columns and rows of exact operands, group by group along K. -/
def mmaElem (acc : W32) (group kk : Nat) (skip : Nat → Bool) (a b : Nat → Num.Fp) : W32 :=
  (List.range (kk / group)).foldl (fun s g =>
    if skip g then s
    else
      let is := (List.range group).map (· + g * group)
      Num.mmaGroup s (is.map a) (is.map b)) acc

/-- The tile after an mma of M rows. -/
def mmaTile (old : List W32) (m kk group : Nat) (acc : Bool) (skip : Nat → Bool) (a : Nat → Nat → Num.Fp)
    (b : Nat → Nat → Num.Fp) : List W32 :=
  (List.range 4096).map fun i =>
    let r := i / 64
    if r < m then mmaElem (if acc then laneAt old i else 0) group kk skip (a r) fun x => b x (i % 64)
    else laneAt old i

/-- mma with B in scratchpad. -/
def Dev.mmaPlain (d : Dev) (k : Nat) (td : BitVec 3) (sa sb : BitVec 5) (m : Nat) (mode : BitVec 4) (kk : Nat)
    (acc trb : Bool) : Act :=
  let f := modeFormats mode
  let a := spadAddr (d.rs k sa)
  let b := spadAddr (d.rs k sb)
  let ra := Num.rowBytes f.1 kk
  let rb := if trb then Num.rowBytes f.2 64 else Num.rowBytes f.2 kk
  let na := m * ra
  let nb := (if trb then kk else 64) * rb
  d.withMx k a na fun _ => d.withMx k b nb fun _ =>
    let elemA := fun r x => Num.rowElem f.1 kk (d.spadAt k (a + r * ra)) x
    let elemB := fun x c =>
      if trb then Num.rowElem f.2 64 (d.spadAt k (b + x * rb)) c else Num.rowElem f.2 kk (d.spadAt k (b + c * rb)) x
    let t := mmaTile (d.rt k td.toNat) m kk (if f.2 = 5 then 16 else 32) acc (fun _ => false) elemA elemB
    let d1 := (d.loadSpad k a na).2.2
    let d2 := (d1.loadSpad k b nb).2.2
    .go (d2.wt k td.toNat t ((d.loadSpad k a na).2.1 || (d.loadSpad k b nb).2.1 || ((acc || m != 64) && d.tBad k td.toNat)))

/-- mma with B from the expander: K a multiple of 64, at most 64 times the blocks left; zeros when none is left. -/
def Dev.mmaStream (d : Dev) (k : Nat) (td : BitVec 3) (sa : BitVec 5) (m : Nat) (kblk : BitVec 6) (acc : Bool) : Act :=
  let k0 := max 64 (32 * (kblk.toNat + 1) / 64 * 64)
  let left := (d.stream k).blocks
  let kk := if left = 0 then k0 else min k0 (64 * left)
  let a := spadAddr (d.rs k sa)
  let na := 2 * m * kk
  d.withMx k a na fun _ =>
    if left ≠ 0 && d.blocksHeld k (kk / 64 - (d.stream k).bufs.length) (d.stream k).next then .wait d else
    match d.takeBlocks k (if left = 0 then 0 else kk / 64) [] with
    | .inr x => .fault d Cause.spadAccess 0 x
    | .inl (bs, d1) =>
      let elemA := fun r x => Num.rowElem 7 kk (d.spadAt k (a + 2 * r * kk)) x
      let elemB := fun x c => match bs.getD (x / 64) none with
        | some raw => Num.ofW (Num.ofBf16 (leNat ((raw.drop (128 * (x % 64) + 2 * c)).take 2)))
        | none => Num.Fp.fin false 0 0
      let skip := fun g => left != 0 && (bs.getD (g / 2) none).isNone
      let t := mmaTile (d.rt k td.toNat) m kk 32 acc skip elemA elemB
      let bad := (d.loadSpad k a na).2.1 || bs.any Option.isNone || ((acc || m != 64) && d.tBad k td.toNat)
      let u := d1.unit k
      .go ((d1.loadSpad k a na).2.2.setUnit k
        { u with
          t := kvPut u.t (td.toNat % 8) t
          tPoison := if bad then setIns (td.toNat % 8) u.tPoison else setDel (td.toNat % 8) u.tPoison
          pstat := if (d.loadSpad k a na).2.1 || ((acc || m != 64) && d.tBad k td.toNat) then setBit u.pstat 55 else u.pstat })

def Dev.iMma (d : Dev) (k : Nat) (td : BitVec 3) (sa sb sc : BitVec 5) (mode : BitVec 4) (kblk : BitVec 6)
    (acc xb trb : Bool) : Act :=
  let m := clampTo 1 64 (d.rs k sc).toNat
  if xb && mode == 0 then d.mmaStream k td sa m kblk acc
  else d.mmaPlain k td sa sb m mode (32 * (kblk.toNat + 1)) acc trb

def Dev.iTscale (d : Dev) (k : Nat) (td : BitVec 3) (sa : BitVec 5) : Act :=
  .go (d.wt k td.toNat ((d.rt k td.toNat).map fun x => Num.fmul x ((d.rs k sa).truncate 32))
    (d.tBad k td.toNat || d.sBad k sa))

def Dev.iTadd (d : Dev) (k : Nat) (td : BitVec 3) (ta : BitVec 5) : Act :=
  .go (d.wt k td.toNat (((d.rt k td.toNat).zip (d.rt k ta.toNat)).map fun p => Num.fadd p.1 p.2)
    (d.tBad k td.toNat || d.tBad k ta.toNat))

/-! ## Quantise and dequantise (R261, R285-R287) -/

/-- FN clamped to 6. -/
def packFmt (fn : BitVec 6) : Nat := min 6 fn.toNat

/-- A packed vector: the packed bytes, then zeros. -/
def packedLanes (bs : List Byte) : List W32 := wordsOf (bs ++ List.replicate (512 - bs.length) 0)

/-- A packed vector as bytes. -/
def packedByte (v : List W32) (i : Nat) : Byte := BitVec.ofNat 8 ((laneAt v (i / 4)).toNat >>> (8 * (i % 4)))

/-- The counters of a program's conversions. -/
def Dev.countQuant (d : Dev) (k : Nat) (q : Num.QCount) : Dev :=
  ((d.bump Bar.CLU_NUM_SAT_PROG q.sat (k / 16)).bump Bar.CLU_NUM_ZEROED q.zero (k / 16)).bump Bar.CLU_NUM_NAN_BLK
    q.nan (k / 16)

def Dev.iVq (d : Dev) (k : Nat) (vd va : BitVec 5) (fn : BitVec 6) : Act :=
  let r := Num.quantRow (packFmt fn) (d.rv k va)
  .go ((d.wv k vd (packedLanes r.1) (d.vBad k va)).countQuant k r.2)

def Dev.iVdq (d : Dev) (k : Nat) (vd va : BitVec 5) (fn : BitVec 6) : Act :=
  .go (d.wv k vd (Num.dequantRow (packFmt fn) 128 (packedByte (d.rv k va))) (d.vBad k va))

def Dev.iVqerr (d : Dev) (k : Nat) (vd va : BitVec 5) (fn : BitVec 6) : Act :=
  let x := d.rv k va
  let q := packedLanes (Num.quantRow (packFmt fn) x).1
  let y := Num.dequantRow (packFmt fn) 128 (packedByte q)
  let err := (x.zip y).map fun p =>
    let e := Num.fsub p.1 p.2
    if e = Num.canon then e else absW e
  .go (d.wv k vd err (d.vBad k va))

/-! ## Attention helpers (R262, R307, R308) -/

/-- The header of a bias table after its clamps: SLOPE, WINDOW, E, SUB, NBUCKET. -/
def biasHeader (b : Nat → Byte) : W32 × Nat × Nat × Nat × Nat :=
  let e := min 6 (b 8).toNat
  (BitVec.ofNat 32 (leNat [b 0, b 1, b 2, b 3]), leNat [b 4, b 5, b 6, b 7], e, min e (b 9).toNat,
    clampTo 1 256 (leNat [b 10, b 11]))

/-- The bucket of a distance. -/
def biasBucket (e sub n dist : Nat) : Nat :=
  let b := if dist < 2 ^ e then dist
    else
      let p := Nat.log2 dist
      2 ^ e + (p - e) * 2 ^ sub + (dist >>> (p - sub)) % 2 ^ sub
  min b (n - 1)

/-- The bias of a distance: minus infinity when masked, else one rounding of slope times distance plus the entry. -/
def biasOf (b : Nat → Byte) (dist : Int) : W32 :=
  let h := biasHeader b
  if dist < 0 then Num.finf true
  else
    let n := dist.toNat
    if h.2.1 ≠ 0 ∧ h.2.1 ≤ n then Num.finf true
    else
      let i := 16 + 4 * biasBucket h.2.2.1 h.2.2.2.1 h.2.2.2.2 n
      Num.toW (Num.addFp (Num.mulFp (Num.ofW h.1) (.fin false n 0))
        (Num.ofW (BitVec.ofNat 32 (leNat [b i, b (i + 1), b (i + 2), b (i + 3)]))))

/-- Distance below zero gives minus infinity itself; any other bias is added to the score. -/
def biasLane (b : Nat → Byte) (qpos lane0 i : Nat) (x : W32) : W32 :=
  let dist := Int.ofNat qpos - Int.ofNat (lane0 + i)
  let w := (biasHeader b).2.1
  if dist < 0 ∨ (w ≠ 0 ∧ Int.ofNat w ≤ dist) then Num.finf true else Num.fadd x (biasOf b dist)

def Dev.iAbias (d : Dev) (k : Nat) (vd va sb sc : BitVec 5) (pred : BitVec 3) (pneg : Bool) : Act :=
  let a := alignDown (spadAddr (d.rs k sc)) 16
  d.withSpad k a 16 fun _ =>
    let b := d.spadAt k a
    let n := 16 + 4 * (biasHeader b).2.2.2.2
    d.withSpad k a n fun _ =>
      let pos := d.rs k sb
      let out := (d.rv k va).zipIdx.map fun e =>
        biasLane b (pos.toNat / 2 ^ 32) (pos.toNat % 2 ^ 32) e.2 e.1
      let r := d.loadSpad k a n
      .go (r.2.2.wvP k vd (d.lanes k pred pneg) out (d.vBad k va || d.sBad k sb || r.2.1))

/-- The lanes and statistics of astat (R262). -/
def astatOp (act : BitVec 128) (x st : List W32) : List W32 × List W32 :=
  let mOld := laneAt st 0
  let ninf := Num.finf true
  let m := Num.fmax mOld (Num.treeMax (mergeLanes act x (List.replicate 128 ninf)))
  if m = ninf then (zeroV, st.set 2 Num.fone)
  else
    let p := mergeLanes act (x.map fun y => Num.fexp (Num.fsub y m)) zeroV
    let c := if mOld = ninf then 0 else Num.fexp (Num.fsub mOld m)
    (p, ((st.set 0 m).set 1 (Num.fadd (Num.fmul (laneAt st 1) c) (Num.treeSum p))).set 2 c)

def Dev.iAstat (d : Dev) (k : Nat) (vd va vb : BitVec 5) (pred : BitVec 3) (pneg : Bool) : Act :=
  let r := astatOp (d.lanes k pred pneg) (d.rv k va) (d.rv k vb)
  let bad := d.vBad k va || d.vBad k vb
  let d1 := d.wv k vd r.1 bad
  .go (d1.wv k vb (r.2.take 3 ++ (d1.rv k vb).drop 3) bad)

def Dev.iAprune (d : Dev) (k : Nat) (vd va sb : BitVec 5) (pred : BitVec 3) (pneg : Bool) : Act :=
  let f : W32 := (d.rs k sb).truncate 32
  .go (d.wvP k vd (d.lanes k pred pneg) (((d.rv k vd).zip (d.rv k va)).map fun p => Num.fadd p.1 (Num.fmul p.2 f))
    (d.vBad k va || d.vBad k vd || d.sBad k sb))

end Sys2Proof.Machine
end

