-- ==== Sys2Proof/Machine/Nmu.lean ====
section
/-! DEFINITION. Near-memory units (R170-R183): issue and its checks, row bursts, refresh, completion. NMU n serves
channel n mod 32 of stack n / 32 (R9). -/

namespace Sys2Proof.Machine

/-! ## Descriptor fields (R171) -/

def nmuWord (ws : List Nat) (n : Nat) : Nat := ws.getD n 0 % 2 ^ 32
def nmuOp (ws : List Nat) : Nat := nmuWord ws 0 / 2 ^ 24
def nmuFlags (ws : List Nat) : Nat := nmuWord ws 0 / 65536 % 256
def nmuAllot (ws : List Nat) : Nat := nmuWord ws 0 / 256 % 256
def nmuType (ws : List Nat) : Nat := nmuWord ws 0 % 256
def nmuSize (ws : List Nat) : Nat := 4 * 2 ^ (nmuFlags ws / 2 % 4)

/-- DST and SRC with bits [6:0] ignored; an ATOMIC address is rounded down to its size (R172). -/
def nmuDst (ws : List Nat) : Nat :=
  let a := nmuWord ws 1 % 2 ^ 24 * 2 ^ 32 + nmuWord ws 2
  if nmuOp ws = 5 then alignDown a (nmuSize ws) else alignDown a 128
def nmuSrc (ws : List Nat) : Nat := alignDown (nmuWord ws 3 % 2 ^ 24 * 2 ^ 32 + nmuWord ws 4) 128
def nmuCompare (ws : List Nat) : Nat := nmuWord ws 3 * 2 ^ 32 + nmuWord ws 4
def nmuOperand (ws : List Nat) : Nat := nmuWord ws 6 * 2 ^ 32 + nmuWord ws 7

/-- The command writes its DST, and reads a SRC. -/
def nmuWrites (ws : List Nat) : Bool := nmuOp ws == 1 || nmuOp ws == 2 || nmuOp ws == 5
def nmuReads (ws : List Nat) : Bool := nmuOp ws == 2 || (nmuOp ws == 3 && nmuFlags ws % 2 == 0)

/-- LINES clamped to the end of the object that contains DST; 0 is clamped to 1 (R172). -/
def Dev.nmuLines (d : Dev) (ws : List Nat) : Nat :=
  if nmuOp ws = 5 then 1
  else match d.objOf (pageOf (nmuDst ws)) with
    | none => 1
    | some n =>
      let stop := 512 * (d.get Bar.MEM_OBJ_BASE_PAGE n + d.get Bar.MEM_OBJ_PAGES n)
      max 1 (min (nmuWord ws 5 % 2 ^ 24) (stop - nmuDst ws / 128))

/-- Pages of n lines from an address. -/
def pagesFrom (a lines : Nat) : List Nat :=
  (List.range ((a / 128 + lines - 1) / 512 + 1 - pageOf a)).map (· + pageOf a)

/-! ## Issue (R172) -/

/-- The die of a source's dispatcher. -/
def nmuDie (src : Nat) : Nat :=
  if src = 2 then 1 else if src < 3 ∨ src = 1000 then 0 else if src < 272 then (src - 16) / 128 else src - 272

/-- A dispatcher holds 64 commands (R170). -/
def Dev.nmuFull (d : Dev) (src : Nat) : Bool :=
  64 ≤ (d.nmus.cmds.filter fun e => nmuDie e.2.src == nmuDie src).length

/-- The tier logic's fills of freed frames run to their end through a reset (R181). -/
def nmuExempt (src : Nat) (ws : List Nat) : Bool := src == 1000 && nmuOp ws == 1 && nmuOperand ws == 0

/-- A status other than OK that ends a command at issue. -/
def Dev.nmuRefused (d : Dev) (src : Nat) (ws : List Nat) : Option Nat :=
  let a := nmuAllot ws
  let n := d.nmuLines ws
  let dst := nmuDst ws
  let len := if nmuOp ws = 5 then nmuSize ws else 128 * n
  let dead := fun pg => match d.viewSlot pg with
    | some (r, s) => d.get Bar.VER_SLOT_STATE r s != 1
    | none => false
  let pages := pagesFrom dst n ++ (if nmuReads ws then pagesFrom (nmuSrc ws) n else [])
  if d.inReset a && !nmuExempt src ws then some Code.resetting
  else if !d.inObjects a dst len || (nmuReads ws && !d.inObjects a (nmuSrc ws) (128 * n)) ||
      (d.viewSlot (pageOf dst)).isSome || (nmuReads ws && (pagesFrom (nmuSrc ws) n).any dead) ||
      (nmuWrites ws && d.sesOwned dst len) ||
      (nmuOp ws == 5 && (2 ≤ nmuFlags ws / 2 % 4 || 0xA < nmuType ws || (nmuType ws == 0xA && nmuSize ws == 8))) then
    some Code.access
  else if !pages.all d.inT1 then some Code.busy
  else none

/-- Copy every shared page of the range before the first burst; none when no frame is free (R216, R217). -/
def Dev.nmuCow (d : Dev) (ws : List Nat) : Option Dev :=
  if !nmuWrites ws then some d
  else ((pagesFrom (nmuDst ws) (d.nmuLines ws)).filter d.shared).foldl (fun acc pg => match acc with
    | none => none
    | some x => if x.copying pg then some x else
      let r := x.startCow pg
      if r.1 then some r.2 else none) (some d)

/-- The region whose working object holds an address is being published (R213). -/
def Dev.publishing (d : Dev) (addr : Nat) : Bool :=
  match (d.objOf (pageOf addr)).bind d.workRegion with
  | some r => d.flag Bar.VER_REGION_PUBLISHING r
  | none => false

/-! ## The completion record (R183) -/

def nmuRecord (c : NmuCmd) (status result : Nat) : List Nat :=
  [ status * 2 ^ 24 + nmuOp c.words * 65536 + nmuAllot c.words * 256, c.done, c.cached, c.poison, c.mism,
    c.first.getD 0xFFFFFFFF, result / 2 ^ 32 % 2 ^ 32, result % 2 ^ 32 ]

/-- A record goes to its window, or to the scratchpad of the program with 32 bytes on its counter. -/
def Dev.nmuReport (d : Dev) (c : NmuCmd) (status result : Nat) : Dev :=
  let ws := nmuRecord c status result
  if c.src < 3 then
    (ws.zipIdx.foldl (fun d e => d.set Bar.NMU_CMD_REC_WORD e.1 c.src e.2) d).set Bar.NMU_CMD_REC_WORD 0x80000000 c.src 8
  else if c.src = 1000 then d
  else
    let k := c.src - 16
    if d.holds k c.gen then
      let d1 := d.landAt k c.recAddr ((ws.take 6).flatMap (toLe 4)) false
      (d1.landAt k (c.recAddr + 24) ((ws.drop 6).flatMap (toLe 4)) c.bad).arrive k c.gen c.ctr 32
    else d

/-- A command as the dispatcher takes it. -/
def Dev.nmuCmd (d : Dev) (src recAddr ctr gen : Nat) (ws : List Nat) : NmuCmd :=
  let n := d.nmuLines ws
  { words := ws, src := src, recAddr := recAddr, ctr := ctr, gen := gen, left := List.range n, done := 0, cached := 0
    poison := 0, mism := 0, first := none, parts := [], bad := false, late := d.publishing (nmuDst ws), hit := false
    held := pagesFrom (nmuDst ws) n ++ (if nmuReads ws then pagesFrom (nmuSrc ws) n else []) }

/-- Issue a command: a reserved OP has no effect (R7), a refused command completes at once with a status, any other enters
the dispatcher. -/
def Dev.nmuIssue (d : Dev) (src recAddr ctr gen : Nat) (ws : List Nat) : Dev :=
  let c := d.nmuCmd src recAddr ctr gen ws
  if nmuOp ws = 0 ∨ 5 < nmuOp ws then d
  else match d.nmuRefused src ws with
  | some st => d.nmuReport c st 0
  | none => match d.nmuCow ws with
    | none => (d.bump Bar.VER_STAT_COW_SHORT 1).nmuReport c Code.busy 0
    | some d1 => { d1 with nmus := { d1.nmus with cmds := kvPut d1.nmus.cmds d1.nmus.next c, next := d1.nmus.next + 1 } }

/-- A window's START: nothing while DONE is 0 (R170). -/
def Dev.nmuWindow (d : Dev) (w op : Nat) : Dev :=
  let ws := (List.range 8).map fun n => d.get Bar.NMU_CMD_DESC_WORD w n
  if w < 3 ∧ nmuOp ws = op ∧ d.get Bar.NMU_CMD_REC_WORD w 8 = 0x80000000 ∧ ¬ d.nmuFull w then
    (d.set Bar.NMU_CMD_REC_WORD 0 w 8).nmuIssue w 0 0 0 ws
  else d

def Dev.nmuCommand (d : Dev) (src : NmuSrc) (op : Nat) : Dev :=
  match src with
  | .window w => d.nmuWindow w op
  | .logic ws => if nmuOp ws = op ∧ ¬ d.nmuFull 1000 then d.nmuIssue 1000 0 0 0 ws else d

/-- A command of a window is a register command; the tier and region logic issue theirs at any time. -/
def State.nmu (s : State) (src : NmuSrc) (op : Nat) : State :=
  match src with
  | .window w => s.window w fun d => d.nmuCommand src op
  | .logic _ => s.live fun d => d.nmuCommand src op

def execNmuFill (src : NmuSrc) (s : State) : Out := .next (s.nmu src 1)
def execNmuCopy (src : NmuSrc) (s : State) : Out := .next (s.nmu src 2)
def execNmuCompare (src : NmuSrc) (s : State) : Out := .next (s.nmu src 3)
def execNmuReduce (src : NmuSrc) (s : State) : Out := .next (s.nmu src 4)
def execNmuAtomic (src : NmuSrc) (s : State) : Out := .next (s.nmu src 5)

/-! ## Bursts (R173-R180) -/

def Dev.lineBytes (d : Dev) (ln : Nat) : List Byte := d.poolBytes (128 * ln) 128

/-- The operand repeated over a line. -/
def patternLine (x : Nat) : List Byte := (List.replicate 16 (toLe 8 x)).flatten

/-- Combine an element into a partial reduction (table of DTYPE). -/
def redStep (dt : Nat) (acc : Option Nat) (x : Nat) : Option Nat :=
  let w := BitVec.ofNat 32 x
  let nan := Num.ofW w == .nan
  if dt = 0 then some (match acc with
    | none => x
    | some a => (Num.fadd (BitVec.ofNat 32 a) w).toNat)
  else if dt = 1 then some ((acc.getD 0 + (if x < 2 ^ 31 then x else x + (2 ^ 64 - 2 ^ 32))) % 2 ^ 64)
  else if dt = 2 then some ((acc.getD 0 + x) % 2 ^ 64)
  else if dt = 3 ∨ dt = 4 then
    (if nan then acc else some (match acc with
      | none => x
      | some a => (if dt = 3 then Num.fmax (BitVec.ofNat 32 a) w else Num.fmin (BitVec.ofNat 32 a) w).toNat))
  else some (acc.getD 0 ^^^ x)

/-- Combine two partial results. -/
def redJoin (dt a b : Nat) : Nat :=
  if dt = 1 then (a + b) % 2 ^ 64 else (redStep dt (some a) b).getD a

/-- The elements of a line by DTYPE: 4 or 8 bytes. -/
def redElems (dt : Nat) (bs : List Byte) : List Nat :=
  let n := if dt = 2 ∨ 5 ≤ dt then 8 else 4
  (List.range (128 / n)).map fun i => leNat ((bs.drop (n * i)).take n)

def dtypeOf (ws : List Nat) : Nat := min 5 (nmuType ws)

/-- Count a poisoned line, or a mismatch at an index. -/
def NmuCmd.poisoned (c : NmuCmd) : NmuCmd := { c with poison := c.poison + 1 }
def NmuCmd.mismatch (c : NmuCmd) (i : Nat) : NmuCmd :=
  { c with mism := c.mism + 1, first := some (match c.first with
      | none => i
      | some j => min i j) }

/-- One line of a command on NMU n; the lines it reads meet their flaws (R169). -/
def Dev.nmuLine (d0 : Dev) (n : Nat) (c0 : NmuCmd) (i : Nat) : NmuCmd × Dev :=
  let ws := c0.words
  let dl := nmuDst ws / 128 + i
  let sl := nmuSrc ws / 128 + i
  let d := d0.meetLines ((if nmuReads ws then [sl] else []) ++ (if 3 ≤ nmuOp ws then [dl] else []))
  let count := fun ln => if (kvGet? d.coh.dir ln).isSome then 1 else 0
  let c := { c0 with
    done := c0.done + 1
    cached := c0.cached + count dl + (if nmuReads ws then count sl else 0) }
  let op := nmuOp ws
  if op = 1 then (c, (d.writePool (128 * dl) (patternLine (nmuOperand ws)) false).2)
  else if op = 2 then
    let total := d.nmuLines ws
    let inOverlap := decide (nmuSrc ws / 128 ≤ dl) && decide (dl < nmuSrc ws / 128 + total)
    if d.linePoisoned sl then (c.poisoned, (d.writePool (128 * dl) (d.lineBytes sl) true).2)
    else if inOverlap then
      let x := d.fresh
      (c, (x.2.writePool (128 * dl) (toLe 128 x.1) false).2)
    else (c, (d.writePool (128 * dl) (d.lineBytes sl) false).2)
  else if op = 3 then
    let src := if nmuReads ws then d.lineBytes sl else patternLine (nmuOperand ws)
    if d.linePoisoned dl || (nmuReads ws && d.linePoisoned sl) then (c.poisoned.mismatch i, d)
    else if d.lineBytes dl = src then (c, d) else (c.mismatch i, d)
  else if op = 4 then
    if d.linePoisoned dl then ({ c.poisoned with bad := true }, d)
    else
      let acc := (redElems (dtypeOf ws) (d.lineBytes dl)).foldl (redStep (dtypeOf ws)) (kvGet? c.parts n)
      ({ c with parts := match acc with
          | some x => kvPut c.parts n x
          | none => c.parts }, d)
  else
    let a := nmuDst ws
    let m := nmuSize ws
    if d.rangePoisoned a m then ({ c.poisoned with bad := true, parts := [(0, 256 ^ m - 1)] }, d)
    else
      let old := leNat (d.poolBytes a m)
      let x := aop (nmuType ws) m old (nmuOperand ws % 256 ^ m) (nmuCompare ws % 256 ^ m)
      ({ c with parts := [(0, old)] }, (d.writePool a (toLe m x) false).2)

/-- A line of a command can still be done: its destination, and its source, lie in tier 1. -/
def Dev.nmuReach (d : Dev) (c : NmuCmd) (i : Nat) : Bool :=
  (d.nmuOf (nmuDst c.words / 128 + i)).isSome &&
  (!nmuReads c.words || (d.nmuOf (nmuSrc c.words / 128 + i)).isSome)

/-- The lines of a burst: those still to do on NMU n, in at most BURST_UNITS of its 2 KiB units (R174). -/
def Dev.burstLines (d : Dev) (n : Nat) (c : NmuCmd) : List Nat :=
  let base := nmuDst c.words / 128
  let mine := c.left.filter fun i => d.nmuOf (base + i) == some n && d.nmuReach c i
  let units := (mine.map fun i => (base + i) / 16).eraseDups.take (max 1 (d.get Bar.NMU_CFG_BURST_UNITS))
  mine.filter fun i => units.contains ((base + i) / 16)

/-- The channels that lines of a command use: those of its destination, and of its source (R174). -/
def Dev.lineChans (d : Dev) (c : NmuCmd) (is : List Nat) : List Nat :=
  (is.flatMap fun i => (d.nmuOf (nmuDst c.words / 128 + i)).toList ++
    (if nmuReads c.words then (d.nmuOf (nmuSrc c.words / 128 + i)).toList else [])).eraseDups

/-- An earlier command of the same source still has lines on a channel that these lines use (R177). -/
def Dev.nmuBehind (d : Dev) (id : Nat) (c : NmuCmd) (is : List Nat) : Bool :=
  let mine := d.lineChans c is
  d.nmus.cmds.any fun e => decide (e.1 < id) && e.2.src == c.src && (d.lineChans e.2 e.2.left).any mine.contains

/-- The command may not start yet: a page of its DST is shared or being copied, or its region is being published. -/
def Dev.nmuHeld (d : Dev) (c : NmuCmd) : Bool :=
  (nmuWrites c.words && (pagesFrom (nmuDst c.words) (d.nmuLines c.words)).any fun pg => d.shared pg || d.copying pg) ||
  (c.late && d.publishing (nmuDst c.words))

/-- A command could be granted NMU n now. -/
def Dev.nmuReady (d : Dev) (n id : Nat) (c : NmuCmd) : Bool :=
  let is := d.burstLines n c
  !is.isEmpty && !d.nmuBehind id c is && !d.nmuHeld c && !(d.inReset (nmuAllot c.words) && !nmuExempt c.src c.words) &&
  !(d.nmus.burst.any fun e => (d.lineChans c is).any e.2.chans.contains)

/-- It is the turn of a source at a channel: no other source that is ready comes before it after the token (R33, R175). -/
def Dev.nmuTurn (d : Dev) (n src : Nat) : Bool :=
  let key (x : Nat) : Nat := (x + 1023 - kvGetD d.nmus.token n 1023) % 1024
  !d.nmus.cmds.any fun e => d.nmuReady n e.1 e.2 && decide (key e.2.src < key src)

/-- Picoseconds for one line (R174): 128 B at 85.6 GB/s, half as fast where a line is read and another read or written in one
channel; between stacks the network slows it by a free value. DESIGN CHOICE (log entry 76). -/
def Dev.linePace (d : Dev) (c : NmuCmd) (is : List Nat) : Nat × Dev :=
  if !nmuReads c.words then (1496, d)
  else
    let far := is.any fun i => (d.nmuOf (nmuDst c.words / 128 + i)).map (· / 32) != (d.nmuOf (nmuSrc c.words / 128 + i)).map (· / 32)
    if far then (1496 + d.fresh.1, d.fresh.2) else (if (d.lineChans c is).length ≤ 1 then 2991 else 1496, d)

/-- Process lines of a burst. -/
def Dev.burstDo (d : Dev) (n : Nat) (b : Burst) (is : List Nat) : Dev :=
  match kvGet? d.nmus.cmds b.cmd with
  | none => d
  | some c =>
    let r := is.foldl (fun (acc : NmuCmd × Dev) i => acc.2.nmuLine n acc.1 i) (c, d)
    let c1 := { r.1 with left := c.left.filter fun i => !is.contains i }
    { r.2 with nmus := { r.2.nmus with
        cmds := kvPut r.2.nmus.cmds b.cmd c1
        burst := kvPut r.2.nmus.burst n { b with
          done := b.done + is.length, todo := b.todo.filter fun i => !is.contains i } } }

/-- NMU n is granted its channel for a burst of a command, in the turn of its source: at most BURST_UNITS units and the lines
that begin within 2 µs (R174). The first line is processed now, the others as time passes or when the burst ends. -/
def Dev.burstGrant (d : Dev) (n id : Nat) : Dev :=
  match kvGet? d.nmus.cmds id with
  | none => d
  | some c =>
    if !d.nmuReady n id c || !d.nmuTurn n c.src then d
    else
      let p := d.linePace c (d.burstLines n c)
      let is := (d.burstLines n c).take ((2000000 + p.1 - 1) / p.1)
      let b : Burst := { cmd := id, start := d.now, pace := p.1, done := 0, todo := is, chans := n :: d.lineChans c is }
      let d1 := p.2.burstDo n b (is.take 1)
      { d1 with nmus := { d1.nmus with token := kvPut d1.nmus.token n c.src } }

def execNmuBurstGrant (nmu cmd : Nat) (s : State) : Out :=
  .next (s.live fun d => if nmu < 384 then d.burstGrant nmu cmd else d)

/-- The channel is released: the refreshes owed run, and what waited for the channel goes on (R175, R176). -/
def Dev.burstClose (d : Dev) (n : Nat) : Dev :=
  ({ d with nmus := { d.nmus with burst := kvDel d.nmus.burst n, owed := kvDel d.nmus.owed n } }).settleCopies.retry

/-- The burst ends with its last line. -/
def Dev.burstEnd (d : Dev) (n : Nat) : Dev :=
  match kvGet? d.nmus.burst n with
  | none => d
  | some b => (d.burstDo n b b.todo).burstClose n

def execNmuBurstEnd (nmu : Nat) (s : State) : Out := .next (s.live fun d => d.burstEnd nmu)

/-- The lines of a burst that have begun by now. -/
def Dev.burstDue (d : Dev) (b : Burst) : List Nat := b.todo.take (1000 * (d.now - b.start) / b.pace + 1 - b.done)

/-- Time passes in a burst: lines are processed at its pace, and it ends when its last one has been moved. -/
def Dev.burstRun (d : Dev) (n : Nat) : Dev :=
  match kvGet? d.nmus.burst n with
  | none => d
  | some b =>
    let d1 := d.burstDo n b (d.burstDue b)
    if (b.done + b.todo.length) * b.pace ≤ 1000 * (d.now - b.start) then d1.burstClose n else d1

def Dev.burstsRun (d : Dev) : Dev := (kvKeys d.nmus.burst).foldl Dev.burstRun d

/-- A refresh falls due: it runs at once, or is owed while a burst runs; the fourth owed ends the burst at the boundary of
the line in progress, and the command goes on after the refreshes (R176). -/
def Dev.refreshDue (d : Dev) (n : Nat) : Dev :=
  match kvGet? d.nmus.burst n with
  | none => d
  | some b =>
    let o := kvGetD d.nmus.owed n 0 + 1
    let d1 := ({ d with nmus := { d.nmus with owed := kvPut d.nmus.owed n o } }).set Bar.NMU_STAT_REF_OWED_MAX
      (max (d.get Bar.NMU_STAT_REF_OWED_MAX n) (min 4 o)) n
    if 4 ≤ o then (d1.burstDo n b (d1.burstDue b)).burstClose n else d1

def execRefreshDue (nmu : Nat) (s : State) : Out := .next (s.live fun d => if nmu < 384 then d.refreshDue nmu else d)

/-- A command that waits for a publish to end copies the pages that it left shared; when no frame is free it completes
BUSY without having done anything (R213, R216, R217). -/
def Dev.nmuCopies (d : Dev) (id : Nat) : Dev :=
  match kvGet? d.nmus.cmds id with
  | none => d
  | some c =>
    if c.late && d.publishing (nmuDst c.words) || c.done != 0 then d
    else match d.nmuCow c.words with
      | some d1 => d1
      | none =>
        let d1 : Dev := { d with nmus := { d.nmus with cmds := kvDel d.nmus.cmds id } }
        (d1.bump Bar.VER_STAT_COW_SHORT 1).nmuReport c Code.busy 0

def Dev.pumpNmus (d : Dev) : Dev := (kvKeys d.nmus.cmds).foldl Dev.nmuCopies d

/-! ## Completion (R180-R183) -/

/-- Put partial results into an order that no rule fixes (R171, R291): each goes to a free place among the earlier
ones. -/
def Dev.shuffle (d : Dev) : List Nat → List Nat → List Nat × Dev
  | [], acc => (acc, d)
  | x :: xs, acc =>
    let r := d.fresh
    r.2.shuffle xs ((acc.take (r.1 % (acc.length + 1))) ++ x :: acc.drop (r.1 % (acc.length + 1)))

/-- RESULT of a command. -/
def Dev.nmuResult (d : Dev) (c : NmuCmd) : Nat × Dev :=
  if nmuOp c.words = 4 then
    let dt := dtypeOf c.words
    let r := d.shuffle (c.parts.map Prod.snd) []
    match r.1 with
    | [] => (if dt = 3 ∨ dt = 4 then 0x7FC00000 else 0, r.2)
    | x :: xs => (xs.foldl (redJoin dt) x, r.2)
  else if nmuOp c.words = 5 then (kvGetD c.parts 0 0, d)
  else (0, d)

/-- A command ends once no burst of it runs and no channel has lines of it: lines of failed memory are given up, and a
command that used a failed stack ends POISON (R180); in reset it stops at the burst boundary (R181). -/
def Dev.nmuComplete (d : Dev) (id : Nat) : Dev :=
  match kvGet? d.nmus.cmds id with
  | none => d
  | some c =>
    let stopped := !nmuExempt c.src c.words && d.inReset (nmuAllot c.words)
    let waits := c.left.any (d.nmuReach c)
    if d.nmus.burst.any (fun e => e.2.cmd == id) || (waits && !stopped) then d
    else
      let st := if stopped then Code.resetting
        else if c.hit || c.poison != 0 || !c.left.isEmpty then Code.poison else Code.ok
      let r := d.nmuResult c
      let d1 : Dev := { r.2 with nmus := { r.2.nmus with cmds := kvDel r.2.nmus.cmds id } }
      (d1.nmuReport c st r.1).settleCopies.pump.retry

def execNmuCommandComplete (cmd : Nat) (s : State) : Out := .next (s.live fun d => d.nmuComplete cmd)

end Sys2Proof.Machine
end

