-- ==== Sys2Proof/Machine/Access.lean ====
section
/-! DEFINITION. How the device's own engines reach pool memory of this package: the home keeps coherence for them
(R193), copies of pages and publishes hold them (R140, R213, R216). -/

namespace Sys2Proof.Machine

/-- Make lines free for an access of an engine: true when no burst holds their channels and no agent has to be snooped, else
the snoops are sent and the engine waits. -/
def Dev.claim (d : Dev) (lines : List Nat) (w : Want) : Bool × Dev :=
  if lines.any fun ln => d.lineBusy ln || d.chanBusy ln then (false, d)
  else
    let d1 := lines.foldl Dev.scrubLine d
    let need := lines.filter fun ln => !(d1.snoopsFor w 0 ln).isEmpty
    if need.isEmpty then (true, d1)
    else
      (false, need.foldl (fun d ln =>
        let die := (d.homeDie (128 * ln)).getD 0
        let r := d.openTxn die .capacity (.memSide die) (d.newFrame (if w = .inv then Ty.snoop else Ty.read) 6 0 0 0 0 0 0 0 0 []) [] [ln] w
        r.2.finishIfDone r.1) d1)

/-- Ready to read a range, which then meets its lines' flaws (R169). -/
def Dev.readyRead (d : Dev) (addr len : Nat) : Bool × Dev :=
  let r := d.claim (linesOf addr len) .read
  (r.1, if r.1 then r.2.meetLines (linesOf addr len) else r.2)

/-- May a range be written: 0 go, 1 wait, 2 no frame for a copy-on-write. -/
def Dev.askWrite (d : Dev) (addr len : Nat) (ignorePublish : Bool := false) : Nat × Dev :=
  let pgs := (List.range ((addr + len - 1) / 65536 + 1 - pageOf addr)).map (· + pageOf addr)
  if !ignorePublish && pgs.any (fun pg => d.publishing (65536 * pg)) then (1, d)
  else if pgs.any d.copying then (1, d)
  else match pgs.find? d.shared with
    | some pg =>
      let r := d.startCow pg
      (if r.1 then 1 else 2, r.2)
    | none =>
      let r := d.claim (linesOf addr len) .inv
      (if r.1 then 0 else 1, r.2)

/-- Ready to write a range: as `Dev.askWrite`, with a shortage of frames counted (R217). -/
def Dev.readyWrite (d : Dev) (addr len : Nat) (ignorePublish : Bool := false) : Nat × Dev :=
  let r := d.askWrite addr len ignorePublish
  (r.1, if r.1 = 2 then r.2.bump Bar.VER_STAT_COW_SHORT 1 else r.2)

/-! ## Loads of layer-streaming windows (R143, R144) -/

/-- The part of a slice that lies in one bank lands: line by line, the words of a poisoned line poisoned (R232). A bank that
the window's allotment does not own discards it (R148). -/
def Dev.loadBank (d : Dev) (allot addr spad n : Nat) (b : BankId) : Dev :=
  let lo := max spad (bankStart b)
  let hi := min (spad + n) (bankStart b + bankSize b)
  if d.mayUse allot b then
    ((linesOf (addr + (lo - spad)) (hi - lo)).foldl (fun d ln =>
      let from' := max (addr + (lo - spad)) (128 * ln)
      let stop := min (addr + (hi - spad)) (128 * ln + 128)
      d.landSpad (spad + (from' - addr)) (d.poolBytes from' (stop - from')) (d.linePoisoned ln)) (d.wakeNow b)).useBank b
  else d.bankBump Bar.CLU_BANK_DISCARDED Bar.CLU_CORE_OWN_DISCARDED b

/-- Where the slices of a layer lie in the pool, by cluster. -/
def Dev.layerSlices (d : Dev) (x : Window) (l : Nat) : List (Nat × Nat) :=
  (maskList x.mask).zipIdx.map fun e => (e.1, 65536 * d.get Bar.MEM_OBJ_BASE_PAGE x.obj + 65536 * x.offset l e.2)

/-- The slices of a layer are ready to be read. -/
def Dev.slicesReady (d : Dev) (n : Nat) : List Nat → Bool × Dev
  | [] => (true, d)
  | a :: as =>
    let r := d.readyRead a n
    if r.1 then r.2.slicesReady n as else r

/-- A layer's slice has arrived in its slot of every cluster of the mask; it waits while the home must snoop its lines. -/
def Dev.layerLoaded (d : Dev) (w slot : Nat) : Dev :=
  match kvGet? d.pool.wins w with
  | none => d
  | some x =>
    match x.slots[slot]? with
    | none => d
    | some s =>
      match s.layer, s.loaded with
      | some l, false =>
        let n := 65536 * x.slice
        let r := d.slicesReady n ((d.layerSlices x l).map Prod.snd).eraseDups
        if !r.1 then r.2
        else
          let d1 := (d.layerSlices x l).foldl (fun d e =>
            (banksOf (clusterBase e.1 + x.place slot) n).foldl (fun d b =>
              d.loadBank x.allot e.2 (clusterBase e.1 + x.place slot) n b) d) r.2
          let y : Window := { x with slots := x.slots.set slot { s with loaded := true } }
          if y.enabled then d1.putWin w y else (d1.putWin w y).disableWin w
      | _, _ => d

def execWindowLayerLoaded (win slot : Nat) (s : State) : Out := .next (s.live fun d => d.layerLoaded win slot)

end Sys2Proof.Machine
end

