-- ==== Sys2Proof/Machine/Regions.lean ====
section
/-! DEFINITION. Versioned regions (R206-R219): create, open, close, retire, publish, destroy. -/

namespace Sys2Proof.Machine

/-! ## Answers -/

def Dev.verArg (d : Dev) (w n : Nat) : Nat := d.get Bar.VER_ARG_ARG w n

/-- A command window completes. -/
def Dev.verDone (d : Dev) (w status region slot version : Nat) : Dev :=
  let d1 := ((d.set Bar.VER_RESULT_STATUS status w).set Bar.VER_RESULT_REGION region w).set Bar.VER_RESULT_SLOT slot w
  (d1.set Bar.VER_RESULT_VERSION version w).set Bar.VER_RESULT_DONE 1 w

/-- The answer to a window, or 8 bytes in scratchpad with 8 on the counter for a program (R271). -/
def Dev.verAnswer (d : Dev) (who : Caller) (status region slot version : Nat) : Dev :=
  if who.src < 3 then d.verDone who.src status region slot version
  else
    let k := who.src - 16
    if d.holds k who.gen then
      (d.landAt k who.spad (toLe 8 (status * 2 ^ 56 + slot * 2 ^ 32 + version)) false).arrive k who.gen who.ctr 8
    else d

def Dev.regionValid (d : Dev) (r : Nat) : Bool := d.flag Bar.VER_REGION_VALID r && (kvGet? d.ver.destroy r).isNone

/-- Pages of the working object, and the first page of a slot's range (R208). -/
def Dev.workPages (d : Dev) (r : Nat) : Nat := d.get Bar.MEM_OBJ_PAGES (d.get Bar.VER_REGION_WORK_OBJ r)
def Dev.workBase (d : Dev) (r : Nat) : Nat := d.get Bar.MEM_OBJ_BASE_PAGE (d.get Bar.VER_REGION_WORK_OBJ r)
def Dev.slotPage (d : Dev) (r s : Nat) : Nat :=
  d.get Bar.MEM_OBJ_BASE_PAGE (d.get Bar.VER_REGION_VIEW_OBJ r) + s * d.workPages r

/-! ## CREATE_REGION (R206, R207) -/

def Dev.createRegion (d : Dev) (w : Nat) : Dev :=
  let x := d.verArg w 0
  let a := slice x 63 56
  let n := slice x 13 0
  let page := slice (d.verArg w 1) 55 16
  let pages := 16 * d.get Bar.MEM_OBJ_PAGES n
  let policy := d.get Bar.MEM_OBJ_POLICY n
  if d.inReset a then d.verDone w Code.resetting 0 0 0
  else if d.disabled a || !d.objValid n || d.get Bar.MEM_OBJ_ALLOT n != a || 2 ≤ policy ||
      d.flag Bar.MEM_OBJ_VERSIONED n || !d.spansOk a page pages || d.overlapsObject page pages then
    d.verDone w Code.access 0 0 0
  else match (List.range 4096).find? (fun r => !d.flag Bar.VER_REGION_VALID r), d.freeObj with
    | some r, some v =>
      let d1 := (d.addObj v a policy (d.get Bar.MEM_OBJ_HOME_DIE n) page pages 0).set Bar.MEM_OBJ_VERSIONED 1 v
      let d2 := ((d1.set Bar.MEM_OBJ_VERSIONED 1 n).putWord Bar.VER_REGION 0 r).set Bar.VER_REGION_VALID 1 r
      let d3 := ((d2.set Bar.VER_REGION_ALLOT a r).set Bar.VER_REGION_WORK_OBJ n r).set Bar.VER_REGION_VIEW_OBJ v r
      (d3.bump Bar.VER_STAT_IN_USE 1).verDone w Code.ok r 0 0
    | _, _ => d.verDone w Code.busy 0 0 0

/-! ## Retirement (R212) -/

/-- A version that is neither current nor open retires: its lines are recalled. -/
def Dev.retire (d : Dev) (r s : Nat) : Dev :=
  let d1 := (d.set Bar.VER_SLOT_STATE 2 r s).set Bar.VER_REGION_LIVE_MASK
    (clearBit (d.get Bar.VER_REGION_LIVE_MASK r) s) r
  d1.startWalk (.retire r s) false (d1.dirLines (d1.slotPage r s) (d1.workPages r))

def Dev.retireIfIdle (d : Dev) (r s : Nat) : Dev :=
  let current := d.get Bar.VER_REGION_CUR_VERSION r != 0 && d.get Bar.VER_REGION_CUR_SLOT r == s
  if d.get Bar.VER_SLOT_STATE r s = 1 ∧ d.get Bar.VER_SLOT_OPENS r s = 0 ∧ ¬ current then d.retire r s else d

/-- A region ends: both objects are destroyed (R219). -/
def Dev.freeRegion (d : Dev) (r : Nat) : Dev :=
  let d1 := (d.dropObj (d.get Bar.VER_REGION_VIEW_OBJ r)).dropObj (d.get Bar.VER_REGION_WORK_OBJ r)
  let d2 := (List.range 16).foldl (fun d s => d.putWord Bar.VER_SLOT 0 r s) (d1.putWord Bar.VER_REGION 0 r)
  d2.drop Bar.VER_STAT_IN_USE 1

/-- A region being destroyed whose last version has retired is freed and its command completes. -/
def Dev.destroyIfEmpty (d : Dev) (r : Nat) : Dev :=
  match kvGet? d.ver.destroy r with
  | none => d
  | some w =>
    if (List.range 16).all fun s => d.get Bar.VER_SLOT_STATE r s == 0 then
      let d1 := ({ d with ver := { d.ver with destroy := kvDel d.ver.destroy r } }).freeRegion r
      match w with
      | some x => (d1.verDone x Code.ok r 0 0).pump.retry
      | none => d1.pump.retry
    else d

/-- The recall of a retiring slot has ended: its pages are let go and the slot becomes FREE. -/
def Dev.retireDone (d : Dev) (r s : Nat) : Dev :=
  if d.get Bar.VER_SLOT_STATE r s = 2 ∧ d.walkDone (.retire r s) then
    let base := d.slotPage r s
    let d1 := (d.endWalk (.retire r s)).putWord Bar.VER_SLOT 0 r s
    let d2 := (List.range (d.workPages r)).foldl (fun d i => d.unmapPage (base + i)) d1
    (d2.destroyIfEmpty r).pump.retry
  else d

def execVersionRetireDone (r slot : Nat) (s : State) : Out :=
  .next (s.live fun d => if r < 4096 ∧ slot < 16 then d.retireDone r slot else d)

/-! ## OPEN and CLOSE (R211, R212, R385) -/

def Dev.openRegion (d : Dev) (r : Nat) (who : Caller) : Dev :=
  if d.inReset who.allot then d.verAnswer who Code.resetting r 0 0
  else if d.disabled who.allot || !d.regionValid r || d.get Bar.VER_REGION_ALLOT r != who.allot ||
      d.get Bar.VER_REGION_CUR_VERSION r == 0 then d.verAnswer who Code.access r 0 0
  else
    let s := d.get Bar.VER_REGION_CUR_SLOT r
    if d.get Bar.VER_SLOT_OPENS r s = 16777215 then d.verAnswer who Code.busy r 0 0
    else (d.bump Bar.VER_SLOT_OPENS 1 r s).verAnswer who Code.ok r s (d.get Bar.VER_REGION_CUR_VERSION r)

/-- One open of a slot ends. -/
def Dev.closeSlot (d : Dev) (r s : Nat) : Dev := (d.drop Bar.VER_SLOT_OPENS 1 r s).retireIfIdle r s

def Dev.closeRegion (d : Dev) (r s : Nat) (who : Caller) : Dev :=
  if d.inReset who.allot then d.verAnswer who Code.resetting r s 0
  else if !d.regionValid r || d.get Bar.VER_REGION_ALLOT r != who.allot || d.get Bar.VER_SLOT_OPENS r s == 0 then
    d.verAnswer who Code.access r s 0
  else (d.closeSlot r s).verAnswer who Code.ok r s (d.get Bar.VER_SLOT_VERSION r s)

/-! ## PUBLISH (R213-R215) -/

/-- The ACTIVE session whose cache object a region's working object is (R215). -/
def Dev.prefixSession (d : Dev) (r : Nat) : Option Nat :=
  (kvKeys d.sess).find? fun id => d.ses id Ses.STATE == 1 && d.ses id Ses.CACHE_OBJ == d.get Bar.VER_REGION_WORK_OBJ r &&
    d.ses id Ses.ALLOT == d.get Bar.VER_REGION_ALLOT r

/-- No invocation of a session is assembling, running or draining, and no prune record is queued. One that has been assembled
and waits at dispatch is none of these (R215). -/
def Dev.atBoundary (d : Dev) (id : Nat) : Bool :=
  let active (u : UnitSt) : Bool := u.state != 0 && !(u.state == 1 && u.final.isNone && u.inv.any Inv.whole)
  !(d.units.any fun e => active e.2 && e.2.session == some id) &&
  (match d.sesn id with
    | some x => x.prunes.isEmpty
    | none => true)

/-- Step 3 has ended: earlier NMU commands on the working object have completed, and the session of a prefix region is
at a step boundary. -/
def Dev.drained (d : Dev) (r : Nat) : Bool :=
  !(d.nmus.cmds.any fun e => !e.2.late &&
    d.objOf (pageOf (nmuDst e.2.words)) == some (d.get Bar.VER_REGION_WORK_OBJ r)) &&
  (match d.prefixSession r with
    | some id => d.atBoundary id
    | none => true)

/-- Step 4: the M lines of the working object are recalled with SNP_SHARE; a line of a request that was granted before step 3
is looked at once that request has completed (R204). -/
def Dev.startRecall (d : Dev) (r : Nat) (who : Caller) : Dev :=
  let mine (ln : Nat) : Bool := decide (d.workBase r ≤ ln / 512) && decide (ln / 512 < d.workBase r + d.workPages r)
  let open' := (d.coh.txns.flatMap fun e => e.2.lines).filter mine
  let ls := (open' ++ (d.dirLines (d.workBase r) (d.workPages r)).filter fun ln => (d.mHolder ln).isSome).eraseDups
  ({ d with ver := { d.ver with pubs := kvPut d.ver.pubs r (who, true) } }).startWalk (.publish r) true ls

/-- Steps 1 to 3. -/
def Dev.startPublish (d : Dev) (r : Nat) (base : Option Nat) (who : Caller) : Dev :=
  let cur := d.get Bar.VER_REGION_CUR_VERSION r
  let stale := match base with
    | some b => b != cur
    | none => false
  if d.inReset who.allot then d.verAnswer who Code.resetting r 0 0
  else if d.disabled who.allot || !d.regionValid r || d.get Bar.VER_REGION_ALLOT r != who.allot then
    d.verAnswer who Code.access r 0 0
  else if stale then (d.bump Bar.VER_STAT_STALE 1).verAnswer who Code.versionStale r 0 0
  else if !(List.range 16).any fun s => d.get Bar.VER_SLOT_STATE r s == 0 then d.verAnswer who Code.busy r 0 0
  else
    let d1 := ({ d with ver := { d.ver with pubs := kvPut d.ver.pubs r (who, false) } }).set Bar.VER_REGION_PUBLISHING 1 r
    if d1.drained r then d1.startRecall r who else d1

/-- A line of a page is poisoned. -/
def Dev.pagePoisoned (d : Dev) (pg : Nat) : Bool :=
  match d.page? pg, d.frameOf pg with
  | some p, some f => p.poisoned || d.frameRetired f || d.pool.poison.any (fun x => x / 512 == f) ||
      d.pool.flaws.any fun x => x.2 && x.1 / 512 == f
  | _, _ => true

/-- Step 6 for one page: the slot's page names the working page's physical page. -/
def Dev.bindPage (d : Dev) (work view : Nat) : Dev :=
  match d.pageId work with
  | none => d
  | some i => { d with pool := { d.pool with
      pmap := kvPut d.pool.pmap view i
      pages := kvMod d.pool.pages i fun p => { p with refs := p.refs + 1 } } }

/-- The prefix record in bytes 4-23 of the score-area header (R215). -/
def Dev.prefixRecord (d : Dev) (id : Nat) : List Byte :=
  toLe 4 0x7290 ++ toLe 8 (d.sesWord id 0) ++ toLe 8 (d.sesWord id 1)

/-- Bind the working pages to a slot and make it current (step 6). -/
def Dev.bindVersion (d : Dev) (r s : Nat) : Dev :=
  let old := d.get Bar.VER_REGION_CUR_VERSION r
  let oldSlot := d.get Bar.VER_REGION_CUR_SLOT r
  let v := if old = 2 ^ 32 - 1 then 1 else old + 1
  let d1 := (List.range (d.workPages r)).foldl (fun d i => d.bindPage (d.workBase r + i) (d.slotPage r s + i)) d
  let d2 := ((d1.set Bar.VER_SLOT_STATE 1 r s).set Bar.VER_SLOT_OPENS 0 r s).set Bar.VER_SLOT_VERSION v r s
  let d3 := ((d2.set Bar.VER_REGION_CUR_SLOT s r).set Bar.VER_REGION_CUR_VERSION v r).set Bar.VER_REGION_LIVE_MASK
    (setBit (d2.get Bar.VER_REGION_LIVE_MASK r) s) r
  if old = 0 then d3 else d3.retireIfIdle r oldSlot

/-- Commands that were issued meanwhile are held no longer (step 7). -/
def Dev.endPublish (d : Dev) (r : Nat) : Dev :=
  let d1 := ((d.set Bar.VER_REGION_PUBLISHING 0 r).endWalk (.publish r))
  let w := d.get Bar.VER_REGION_WORK_OBJ r
  let free (c : NmuCmd) : NmuCmd := if d.objOf (pageOf (nmuDst c.words)) = some w then { c with late := false } else c
  let cmds := kvMap d1.nmus.cmds fun _ c => free c
  { d1 with ver := { d1.ver with pubs := kvDel d1.ver.pubs r }, nmus := { d1.nmus with cmds := cmds } }

/-- A region operation is granted, or waits while a publish of the region is in progress. -/
def Dev.regionOp (d : Dev) (x : RegionOp) : Dev :=
  if (kvGet? d.ver.pubs x.region).isSome then { d with ver := { d.ver with waiting := d.ver.waiting ++ [x] } }
  else if x.op = 3 then d.openRegion x.region x.who
  else if x.op = 4 then d.closeRegion x.region x.slot x.who
  else d.startPublish x.region x.base x.who

/-- The operations that waited are granted in order. -/
def Dev.regrant (d : Dev) : Dev :=
  d.ver.waiting.foldl Dev.regionOp { d with ver := { d.ver with waiting := [] } }

/-- Step 5: a line of the working object is poisoned, or was by a snoop of step 4. -/
def Dev.publishBad (d : Dev) (r : Nat) : Bool :=
  d.walkPoisoned (.publish r) || (List.range (d.workPages r)).any fun i => d.pagePoisoned (d.workBase r + i)

/-- Steps 5 to 7 with the outcome. -/
def Dev.finishPublish (d : Dev) (r : Nat) (who : Caller) : Dev :=
  if d.publishBad r then
    ((d.endPublish r).verAnswer who (if d.inReset who.allot then Code.resetting else Code.poison) r 0 0).regrant.retry
  else
    let free := ((List.range 16).find? fun s => d.get Bar.VER_SLOT_STATE r s == 0).getD 0
    let d1 := d.bindVersion r free
    ((d1.endPublish r).verAnswer who (if d.inReset who.allot then Code.resetting else Code.ok) r free
      (d1.get Bar.VER_REGION_CUR_VERSION r)).regrant.retry

/-- Held work has drained, or the M lines have been recalled: the publish goes on. The prefix record is written between
steps 5 and 6 (R215). -/
def Dev.publishStep (d : Dev) (r : Nat) : Dev :=
  match kvGet? d.ver.pubs r with
  | none => d
  | some (who, false) => if d.drained r then d.startRecall r who else d
  | some (who, true) =>
    if !d.walkDone (.publish r) then d
    else match d.prefixSession r with
      | none => d.finishPublish r who
      | some id =>
        let a := d.ses id Ses.AREA_BASE + d.offS id + 4
        let rec4 := d.prefixRecord id
        if d.publishBad r || d.poolBytes a 20 == rec4 then d.finishPublish r who
        else
          let w := d.readyWrite a 20 true
          if w.1 = 0 then ((w.2.writePool a rec4 false).2).finishPublish r who else w.2

/-! ## DESTROY_REGION (R219) -/

/-- Retire every live version; the region is freed once the last has retired. -/
def Dev.beginDestroy (d : Dev) (r : Nat) (w : Option Nat) : Dev :=
  let d1 := ({ d with ver := { d.ver with destroy := kvPut d.ver.destroy r w } }).set Bar.VER_REGION_CUR_VERSION 0 r
  let d2 := (List.range 16).foldl (fun d s => if d.get Bar.VER_SLOT_STATE r s = 1 then d.retire r s else d) d1
  d2.destroyIfEmpty r

def Dev.destroyRegion (d : Dev) (w : Nat) : Dev :=
  let r := slice (d.verArg w 0) 43 32
  if !d.regionValid r then d.verDone w Code.access r 0 0
  else if d.inReset (d.get Bar.VER_REGION_ALLOT r) then d.verDone w Code.resetting r 0 0
  else if (kvGet? d.ver.pubs r).isSome || (List.range 16).any fun s => d.get Bar.VER_SLOT_OPENS r s != 0 then
    d.verDone w Code.busy r 0 0
  else (d.set Bar.VER_RESULT_DONE 0 w).beginDestroy r (some w)

/-! ## Window commands -/

/-- The caller of a window's command. -/
def Dev.verCaller (d : Dev) (w : Nat) : Caller := ⟨w, slice (d.verArg w 0) 63 56, 0, 0, 0⟩

/-- A command starts only while its window is DONE. -/
def Dev.verCmd (d : Dev) (w : Nat) (f : Dev → Nat → Dev) : Dev :=
  if w < 3 ∧ d.flag Bar.VER_RESULT_DONE w then f d w else d

/-- An operation of a window: DONE is 0 until it is answered. -/
def Dev.windowOp (d : Dev) (w op : Nat) : Dev :=
  let x := d.verArg w 0
  (d.set Bar.VER_RESULT_DONE 0 w).regionOp {
    op := op, region := slice x 43 32, slot := slice x 27 24
    base := if slice x 16 16 = 1 then some (slice (d.verArg w 1) 31 0) else none, who := d.verCaller w }

def execCreateRegion (w : Nat) (s : State) : Out := .next (s.window w fun d => d.verCmd w Dev.createRegion)
def execDestroyRegion (w : Nat) (s : State) : Out := .next (s.window w fun d => d.verCmd w Dev.destroyRegion)
def execRegionOpen (w : Nat) (s : State) : Out := .next (s.window w fun d => d.verCmd w fun d w => d.windowOp w 3)
def execRegionClose (w : Nat) (s : State) : Out := .next (s.window w fun d => d.verCmd w fun d w => d.windowOp w 4)
def execPublish (w : Nat) (s : State) : Out := .next (s.window w fun d => d.verCmd w fun d w => d.windowOp w 5)

end Sys2Proof.Machine
end

