-- ==== Sys2Proof/Machine/Fabric.lean ====
section
/-! DEFINITION. Async copies, program atomics, the NMU instruction and window acquire and release (R86-R88, R236,
R263-R266, R512, R516). -/

namespace Sys2Proof.Machine

/-! ## Where a pool address is served (R86, R236, R512) -/

/-- The home of a part of a pool range: this package, an endpoint reached by frames (`tc4` for a lent range, which is
copied by ordinary frames), or nowhere. -/
inductive Homed where
  | here
  | via (ep : Nat) (tc4 : Bool)
  | nowhere
deriving DecidableEq, Repr

def Dev.homed (d : Dev) (a : Nat) : Homed :=
  if (d.spanOf a).isSome then (if d.remotePage (pageOf a) then .via d.myEp true else .here)
  else match d.memHome a with
    | some ep => .via ep false
    | none => .nowhere

/-- The check before issue (R236): a page of the range that this package hosts lies in an object of the allotment. -/
def Dev.poolOk (d : Dev) (al a n : Nat) : Bool :=
  (List.range ((a + (n - 1)) / 65536 + 1 - pageOf a)).all fun i =>
    (d.spanOf (65536 * (pageOf a + i))).isNone ||
    (match d.objOf (pageOf a + i) with
      | some o => d.get Bar.MEM_OBJ_ALLOT o == al
      | none => false)

/-- Check 7 for an access of the device's own engines at this home. -/
def Dev.mayReadHere (d : Dev) (al a n : Nat) : Bool :=
  d.inObjects al a n && (match d.viewSlot (pageOf a) with
    | some (r, s) => d.get Bar.VER_SLOT_STATE r s == 1
    | none => true)
def Dev.mayWriteHere (d : Dev) (al a n : Nat) : Bool :=
  d.inObjects al a n && (d.viewSlot (pageOf a)).isNone && !d.sesOwned a n

/-! ## Requests of programs -/

/-- A request of a unit to a target is held while an earlier one waits to be resent (R78). -/
def Dev.heldBack (d : Dev) (k gen ep : Nat) : Bool :=
  d.reqs.any fun e => e.2.naked && e.2.f.dstEp == ep &&
    d.reqOwner e.2.cont == some (k, gen)

/-- Issue a request of a unit; none while it is held back or no tag is free. -/
def Dev.issueUnit (d : Dev) (k gen : Nat) (f : Frame) (cont : Cont) : Option Dev :=
  if d.heldBack k gen f.dstEp then none else d.issue (unitTagRange k) (unitPort k) f cont

/-- COPY_REF; cluster and core read 0 for a Gardener. -/
def Copy.ref (c : Copy) : Nat :=
  (if c.core < 256 then c.core / 16 * 2 ^ 12 + c.core % 16 * 2 ^ 8 + c.gen % 16 else 0) + c.ctr % 16 * 2 ^ 4

/-! ## The parts of a copy -/

/-- A copy splits at every 4 KiB boundary of its pool addresses (R79, R263). -/
def splitParts (bases : List Nat) : Nat → Nat → Nat → List (Nat × Nat)
  | 0, _, _ => []
  | fuel + 1, off, left =>
    if left = 0 then []
    else
      let n := (bases.map fun b => 4096 - (b + off) % 4096).foldl min left
      (off, n) :: splitParts bases fuel (off + n) (left - n)

def Dev.putCopy (d : Dev) (id : Nat) (c : Copy) : Dev := { d with copies := kvPut d.copies id c }

/-- Requests of a copy are outstanding. -/
def Dev.copyBusy (d : Dev) (id : Nat) : Bool :=
  d.reqs.any fun e => match e.2.cont with
    | .chunk c _ => c == id
    | _ => false

/-- Nothing of a copy is left to be done. -/
def Dev.copyIdle (d : Dev) (id : Nat) (c : Copy) : Bool := c.todo.isEmpty && c.ready.isEmpty && !d.copyBusy id

/-- A copy with nothing left is forgotten; one to a multicast group stays for the acknowledgments of further members. -/
def Dev.closeCopy (d : Dev) (id : Nat) : Dev :=
  match kvGet? d.copies id with
  | some c => if d.copyIdle id c && (c.mcast.isNone || c.ended) then { d with copies := kvDel d.copies id } else d
  | none => d

/-- The record of a failed part (R236, R516). -/
def Dev.copyErr (d : Dev) (c : Copy) (status addr : Nat) : Dev := d.fabricErr c.core c.gen 4 c.pc status addr

/-- Bytes arrive in scratchpad: the counter advances by the bytes written (R148). -/
def Dev.landCopy (d : Dev) (c : Copy) (off : Nat) (bs : List Byte) (bad : Bool) : Dev :=
  if d.holds c.core c.gen then
    if c.core < 256 then
      let r := d.arriveAt (spadPlace c.core (c.dst + off)) c.allot bs bad
      r.2.arrive c.core c.gen c.ctr r.1
    else (d.landAt c.core (c.dst + off) bs bad).arrive c.core c.gen c.ctr bs.length
  else d

/-- A push frame of COPY_DATA, or a WRITE in TC4 (R87, R263). -/
def Dev.pushFrame (d : Dev) (c : Copy) (ep a : Nat) (tc4 : Bool) (bs : List Byte) (bad : Bool) : Frame :=
  let fl := (if bad then 1 else 0) + (if c.mcast.isSome then 4 else 0)
  if tc4 || c.cls == 4 then d.newFrame Ty.write 4 c.allot ep 0 0 fl (addrHi a) (addrLo a) 0 bs
  else d.newFrame Ty.copyData c.cls c.allot ep 0 0 fl (addrHi a) (addrLo a) (c.ref * 65536) bs

/-- A READ of a source that is not homed here (R86). -/
def Dev.pullFrame (d : Dev) (c : Copy) (ep a n : Nat) (tc4 : Bool) : Frame :=
  if tc4 || c.cls == 4 then d.newFrame Ty.read 4 c.allot ep 0 0 0 (addrHi a) (addrLo a) n []
  else d.newFrame Ty.read 4 c.allot ep 0 0 32 (addrHi a) (addrLo a) (c.ref * 65536 + c.cls * 8192 + n) []

/-- Where a copy's destination in the pool goes. -/
def Dev.pushHomed (d : Dev) (c : Copy) (a : Nat) : Homed :=
  match c.mcast with
  | some g => .via g false
  | none => d.homed a

/-- Write bytes of a copy to the pool at offset `off`: none while it must wait. -/
def Dev.pushPart (d : Dev) (id : Nat) (c : Copy) (off : Nat) (bs : List Byte) (bad : Bool) : Option Dev × Dev :=
  let a := c.dst + off
  let n := bs.length
  let count (d : Dev) : Dev := d.arrive c.core c.gen c.ctr n
  match d.pushHomed c a with
  | .nowhere => (some (count (d.copyErr c Code.timeout a)), d)
  | .via ep tc4 => (d.issueUnit c.core c.gen (d.pushFrame c ep a tc4 bs bad) (.chunk id [(off, n)]), d)
  | .here =>
    if !d.mayWriteHere c.allot a n then (some (count (d.copyErr c Code.access a)), d)
    else
      let w := d.readyWrite a n
      if w.1 = 1 then (none, w.2)
      else if w.1 = 2 then (some (count (w.2.copyErr c Code.busy a)), d)
      else
        let r := (w.2.touch (pageOf a)).writePool a bs bad
        (some (count (if r.1 then r.2.copyErr c Code.poison a else r.2)), d)

/-- Bytes of a copy's source have been read: they land, or wait to be written. -/
def Dev.gotPart (d : Dev) (id : Nat) (c : Copy) (off : Nat) (bs : List Byte) (bad : Bool) : Dev :=
  if c.kind = 0 then d.landCopy c off bs bad
  else match kvGet? d.copies id with
    | none => d
    | some x =>
      if x.ended then d
      else match d.pushPart id x off bs bad with
        | (some d1, _) => d1
        | (none, d1) => d1.putCopy id { x with ready := x.ready ++ [(off, bs, bad)] }

/-- A part whose read failed: the error value, with a record (R516). -/
def Dev.failPart (d : Dev) (id : Nat) (c : Copy) (off n status : Nat) : Dev :=
  (d.copyErr c status (c.src + off)).gotPart id c off (errBytes n) true

/-- The bytes of scratchpad that a copy sends. -/
def Dev.copySource (d : Dev) (c : Copy) (off n : Nat) : List Byte × Bool × Dev :=
  if c.core < 256 then d.fetchSpad (spadPlace c.core (c.src + off)) n c.allot
  else
    let x := (d.unit c.core).load (c.src + off) n
    (x.1, x.2, d)

/-- Start a part that needs frames, or ends without any: none while it cannot start, or is a local one. -/
def Dev.startPart (d : Dev) (id : Nat) (c : Copy) (off n : Nat) : Option Dev :=
  if c.kind = 1 then
    match d.pushHomed c (c.dst + off) with
    | .here => none
    | _ =>
      if d.spadTested c.core (c.src + off) n then none else
      let s := d.copySource c off n
      (s.2.2.pushPart id c off s.1 s.2.1).1
  else
    match d.homed (c.src + off) with
    | .here => none
    | .nowhere => some (d.failPart id c off n Code.timeout)
    | .via ep tc4 => d.issueUnit c.core c.gen (d.pullFrame c ep (c.src + off) n tc4) (.chunk id [(off, n)])

/-- Start every part of a copy that can start, in order. -/
def Dev.startParts (d : Dev) (id : Nat) (c : Copy) : List (Nat × Nat) → List (Nat × Nat) × Dev
  | [] => ([], d)
  | (off, n) :: ps =>
    match d.startPart id c off n with
    | some d1 => d1.startParts id c ps
    | none =>
      let r := d.startParts id c ps
      ((off, n) :: r.1, r.2)

/-- Bytes that have been read and can now be written. -/
def Dev.pushReady (d : Dev) (id : Nat) (c : Copy) : List (Nat × List Byte × Bool) → List (Nat × List Byte × Bool) × Dev
  | [] => ([], d)
  | (off, bs, bad) :: ps =>
    match d.pushPart id c off bs bad with
    | (some d1, _) => d1.pushReady id c ps
    | (none, d1) =>
      let r := d1.pushReady id c ps
      ((off, bs, bad) :: r.1, r.2)

/-- A copy goes on as far as it can by itself. -/
def Dev.pumpCopy (d : Dev) (id : Nat) : Dev :=
  match kvGet? d.copies id with
  | none => d
  | some c0 =>
    let r := (d.putCopy id { c0 with ready := [] }).pushReady id c0 c0.ready
    match kvGet? r.2.copies id with
    | none => r.2
    | some c =>
      let d1 := r.2.putCopy id { c with ready := r.1 ++ c.ready, todo := [] }
      let q := d1.startParts id c c.todo
      match kvGet? q.2.copies id with
      | none => q.2
      | some x => (q.2.putCopy id { x with todo := q.1 ++ x.todo }).closeCopy id

/-- Every copy goes on. -/
def Dev.pumpCopies (d : Dev) : Dev := (kvKeys d.copies).foldl Dev.pumpCopy d

/-- The first part of a copy that moves through the stack network. -/
def Dev.localPart (d : Dev) (c : Copy) : Option (Nat × Nat) :=
  c.todo.find? fun e => if c.kind = 1 then d.pushHomed c (c.dst + e.1) == .here else d.homed (c.src + e.1) == .here

/-- Up to m bytes of a copy move through the stack network (R86). -/
def Dev.localArrival (d : Dev) (id m : Nat) : Dev :=
  match kvGet? d.copies id with
  | none => d
  | some c =>
    match d.localPart c with
    | none => d.pumpCopy id
    | some (off, n) =>
      let k := clampTo 1 n m
      let rest := (c.todo.filter fun e => e.1 != off)
      let x : Copy := { c with todo := if k < n then (off + k, n - k) :: rest else rest }
      if c.kind = 1 then
        if d.spadTested c.core (c.src + off) k then d else
        let s := d.copySource c off k
        match s.2.2.pushPart id c off s.1 s.2.1 with
        | (some d1, _) => (d1.putCopy id x).pumpCopy id
        | (none, d1) => d1
      else
        let a := c.src + off
        if !d.mayReadHere c.allot a k then ((d.putCopy id x).failPart id x off k Code.access).pumpCopy id
        else
          let r := d.readyRead a k
          if !r.1 then r.2
          else
            let d1 := (r.2.touch (pageOf a)).putCopy id x
            (if d1.rangePoisoned a k then d1.failPart id x off k Code.poison
              else d1.gotPart id x off (d1.poolBytes a k) false).pumpCopy id

def execLocalCopyArrival (copy bytes : Nat) (s : State) : Out := .next (s.live fun d => d.localArrival copy bytes)

/-! ## Copy instructions (R263) -/

def poolAddr (x : W64) : Nat := x.toNat % 2 ^ 56
def copyLen (x : W64) : Nat := clampTo 1 16777216 x.toNat
def copyClass (cls : BitVec 3) : Nat := min 4 cls.toNat

/-- The engine takes a copy. -/
def Dev.startCopyCmd (d : Dev) (k : Nat) (ctr : BitVec 4) (kind src dst len cls : Nat) (mcast : Option Nat) : Act :=
  let u := d.unit k
  let bases := if kind = 0 then [src] else if kind = 1 then [dst] else [src, dst]
  let c : Copy := {
    core := k, gen := u.gen, ctr := ctr.toNat, pc := u.pc, kind := kind, allot := d.unitAllot k, src := src
    dst := dst, len := len, cls := cls, mcast := mcast, todo := splitParts bases (len / 2048 + 3) 0 len
    ready := [], resent := [], acked := [], ended := false }
  .go ((({ d with nextCopy := d.nextCopy + 1 }).putCopy d.nextCopy c).pumpCopy d.nextCopy)

/-- The checks of a copy's ranges: scratchpad, then pool. -/
def Dev.copyChecked (d : Dev) (k spad pool len : Nat) (f : Unit → Act) : Act :=
  if !d.spadOk k spad len then .fault d Cause.spadAccess 0 spad
  else if !d.poolOk (d.unitAllot k) pool len then .fault d Cause.poolAccess 0 pool
  else f ()

def Dev.iCpin (d : Dev) (k : Nat) (ctr : BitVec 4) (sa sb sc : BitVec 5) (cls : BitVec 3) : Act :=
  let spad := spadAddr (d.rs k sa)
  let pool := poolAddr (d.rs k sb)
  let len := copyLen (d.rs k sc)
  d.copyChecked k spad pool len fun _ => d.startCopyCmd k ctr 0 pool spad len (copyClass cls) none

def Dev.iCpout (d : Dev) (k : Nat) (ctr : BitVec 4) (sa sb sc : BitVec 5) (cls : BitVec 3) (fn : BitVec 6)
    (imm : BitVec 16) : Act :=
  let pool := poolAddr (d.rs k sa)
  let spad := spadAddr (d.rs k sb)
  let len := copyLen (d.rs k sc)
  d.copyChecked k spad pool len fun _ => d.startCopyCmd k ctr 1 spad pool len (copyClass cls)
    (if fn.toNat % 2 = 1 then some (imm.toNat % 4096) else none)

def Dev.iCppp (d : Dev) (k : Nat) (ctr : BitVec 4) (sa sb sc : BitVec 5) (cls : BitVec 3) : Act :=
  let dst := poolAddr (d.rs k sa)
  let src := poolAddr (d.rs k sb)
  let len := copyLen (d.rs k sc)
  if !d.poolOk (d.unitAllot k) dst len then .fault d Cause.poolAccess 0 dst
  else if !d.poolOk (d.unitAllot k) src len then .fault d Cause.poolAccess 0 src
  else d.startCopyCmd k ctr 2 src dst len (copyClass cls) none

/-! ## patom (R264) -/

/-- The old value of a program's atomic lands, and the counter advances by its size. -/
def Dev.landAtom (d : Dev) (k gen ctr spad size : Nat) (bs : List Byte) (bad : Bool) : Dev :=
  if d.holds k gen then (d.landAt k spad bs bad).arrive k gen ctr size else d

/-- The next register of a pair: s[SC + 1], with SC clamped to 30. -/
def casReg (sc : BitVec 5) : BitVec 5 := pairReg sc + 1

def Dev.iPatom (d : Dev) (k : Nat) (ctr : BitVec 4) (sa sb sc0 : BitVec 5) (fn : BitVec 6) : Act :=
  let op := min 0xA (fn.toNat % 16)
  let asize := if op = 0xA then 0 else min 1 (fn.toNat / 16)
  let n := 4 * 2 ^ asize
  let sc := if op = 2 then pairReg sc0 else sc0
  let spad := alignDown (spadAddr (d.rs k sa)) n
  let pool := alignDown (poolAddr (d.rs k sb)) n
  let bad := d.sBad k sc || (op == 2 && d.sBad k (casReg sc))
  let arg := toLe n (d.rs k sc).toNat ++ (if op = 2 then toLe n (d.rs k (casReg sc)).toNat else [])
  let gen := (d.unit k).gen
  d.copyChecked k spad pool n fun _ =>
    let send (ep : Nat) : Act :=
      match d.issueUnit k gen (d.newFrame Ty.atomic 4 (d.unitAllot k) ep 0 0 (if bad then 1 else 0)
          (op * 2 ^ 28 + asize * 2 ^ 26 + addrHi pool) (addrLo pool) 0 arg)
          (.patom k gen ctr.toNat spad n (d.unit k).pc) with
      | some d1 => .go d1
      | none => .wait d
    match d.homed pool with
    | .here => send d.myEp
    | .via ep _ => send ep
    | .nowhere =>
      .go ((d.fabricErr k gen 4 (d.unit k).pc Code.timeout pool).landAtom k gen ctr.toNat spad n (errBytes n) true)

/-! ## nmu (R265) -/

/-- The descriptor's words with the allotment put in (R247, R265). -/
def nmuDesc (bs : List Byte) (allot : Nat) : List Nat :=
  let ws := (List.range 8).map fun i => leNat ((bs.drop (4 * i)).take 4)
  splice (ws.getD 0 0) 15 8 allot :: ws.drop 1

def Dev.iNmu (d : Dev) (k : Nat) (ctr : BitVec 4) (sa sb : BitVec 5) : Act :=
  let da := alignDown (spadAddr (d.rs k sa)) 32
  let ra := alignDown (spadAddr (d.rs k sb)) 32
  let src := 16 + k
  d.withSpad k da 32 fun _ =>
    if !d.spadOk k ra 32 then .fault d Cause.spadAccess 0 ra
    else if d.nmuFull src then .wait d
    else
      let r := d.loadSpad k da 32
      let d1 := r.2.2
      let ws := nmuDesc r.1 (d1.unitAllot k)
      let n := d1.nmuLines ws
      let len := if nmuOp ws = 5 then nmuSize ws else 128 * n
      let al := d1.unitAllot k
      if !d1.inObjects al (nmuDst ws) len then .fault d1 Cause.poolAccess 0 (nmuDst ws)
      else if nmuReads ws && !d1.inObjects al (nmuSrc ws) (128 * n) then .fault d1 Cause.poolAccess 0 (nmuSrc ws)
      else .go (d1.nmuIssue src ra ctr.toNat (d1.unit k).gen ws)

/-! ## wacq and wrel (R143, R266) -/

/-- The window that a program names, when it may use it. -/
def Dev.programWindow (d : Dev) (k w : Nat) : Option Window :=
  match kvGet? d.pool.wins w with
  | some x => if x.enabled && x.mask.testBit (k / 16) && d.windowOwned { x with allot := d.unitAllot k } then some x
      else none
  | none => none

def Dev.iWacq (d : Dev) (k : Nat) (sa sb : BitVec 5) (win : BitVec 16) : Act :=
  let w := win.toNat % 64
  match d.programWindow k w with
  | none => .fault d Cause.poolAccess 0 w
  | some x =>
    let l := min (x.layers - 1) (d.rs k sb).toNat
    match x.acquire l with
    | none => .wait d
    | some (slot, y) =>
      let d1 := (d.putWin w y).modUnit k fun u => { u with wins := u.wins ++ [(w, l)] }
      .go (d1.ws k sa (BitVec.ofNat 64 (2 ^ 24 + y.place slot)) (d.sBad k sb))

/-- One acquire of a layer ends. -/
def Dev.releaseLayer (d : Dev) (w l : Nat) : Dev :=
  match kvGet? d.pool.wins w with
  | some x => d.putWin w (x.release l)
  | none => d

def Dev.iWrel (d : Dev) (k : Nat) (sb : BitVec 5) (win : BitVec 16) : Act :=
  let w := win.toNat % 64
  match d.programWindow k w with
  | none => .fault d Cause.poolAccess 0 w
  | some x =>
    let l := min (x.layers - 1) (d.rs k sb).toNat
    if (d.unit k).wins.contains (w, l) then
      .go ((d.releaseLayer w l).modUnit k fun u => { u with wins := u.wins.erase (w, l) })
    else .go d

end Sys2Proof.Machine
end

