-- ==== Sys2Proof/Machine/Ladder.lean ====
section
/-! DEFINITION. The contents of a session's cache object: descriptor words, unit heap, rows, appends and the precision
ladder (R292-R295, R324-R334, R339). Writes are collected with the ranges they touch, so that a step which finds a
range not ready can wait without having written. -/

namespace Sys2Proof.Machine

/-! ## Writes of the session logic -/

/-- The device with what has been written, and the ranges written. -/
abbrev SesW := Dev × List (Nat × Nat)

def SesW.put (w : SesW) (a : Nat) (bs : List Byte) (bad : Bool) : SesW := (w.1.writeMem a bs bad, w.2 ++ [(a, bs.length)])

/-- The ranges of a step are ready on the device before it: 0 go, 1 wait, 2 no frame; with the device after asking. -/
def Dev.rangesReady (d : Dev) : List (Nat × Nat) → Nat × Dev
  | [] => (0, d)
  | (a, n) :: rs =>
    if n = 0 then d.rangesReady rs
    else
      let r := d.readyWrite a n
      if r.1 = 0 then r.2.rangesReady rs else r

/-! ## Descriptor words (R325, R327) -/

def Dev.areaBase (d : Dev) (id : Nat) : Nat := d.ses id Ses.AREA_BASE
def Dev.objBytes (d : Dev) (id : Nat) : Nat := 65536 * d.get Bar.MEM_OBJ_PAGES (d.ses id Ses.CACHE_OBJ)

/-- Address of a descriptor word. -/
def Dev.descAt (d : Dev) (id l h i : Nat) : Nat :=
  d.areaBase id + d.offH id + 8 * ((l * d.sesKvh id + h) * d.sesCapHb id + i)

/-- A descriptor word. -/
def Dev.descWord (d : Dev) (id l h i : Nat) : Nat :=
  if i < d.sesCapHb id then leNat (d.poolBytes (d.descAt id l h i) 8) else 0

def descRung (w : Nat) : Nat := slice w 63 62
def descHeld (w : Nat) : Bool := w.testBit 61
def descShared (w : Nat) : Bool := w.testBit 60
def descPoison (w : Nat) : Bool := w.testBit 59
def descCount (w : Nat) : Nat := slice w 58 52
def descUnit (w : Nat) : Nat := slice w 23 0

def mkDesc (rung : Nat) (held shared poison : Bool) (count i unit : Nat) : Nat :=
  rung * 2 ^ 62 + (if held then 2 ^ 61 else 0) + (if shared then 2 ^ 60 else 0) + (if poison then 2 ^ 59 else 0) +
    count * 2 ^ 52 + (64 * i % 65536) * 2 ^ 32 + unit % 2 ^ 24

def SesW.putDesc (w : SesW) (id l h i x : Nat) : SesW := w.put (w.1.descAt id l h i) (toLe 8 x) false

/-! ## Formats of the rungs (R306, R324) -/

/-- FN of R261 of a rung: MXFP8 E4M3, MXFP4, N2. -/
def rungFn (rung : Nat) : Nat := if rung = 0 then 0 else if rung = 1 then 4 else 5

def keyBytes (rung dd : Nat) : Nat := Num.rowBytes (rungFn rung) dd
def valBytes (rung : Nat) : Nat := Num.rowBytes (rungFn rung) 64

/-- Units of one half-block: 64 positions of keys and of D / 64 value planes, in units of 512 B. -/
def rungUnits (rung dd : Nat) : Nat := (64 * keyBytes rung dd + dd / 64 * 64 * valBytes rung + 511) / 512

/-! ## The unit heap -/

/-- Units of one layer heap. -/
def Dev.heapUnits (d : Dev) (id : Nat) : Nat := (d.objBytes id - d.offU id) / d.sesLayers id / 512

/-- Address of a unit of a layer heap of the session's own object. -/
def Dev.unitAt (d : Dev) (id l u : Nat) : Nat :=
  d.areaBase id + d.offU id + 512 * (l * d.heapUnits id + u)

/-- Units in use in a layer heap: (first, count). -/
def Dev.usedUnits (d : Dev) (id l : Nat) : List (Nat × Nat) :=
  (List.range (d.sesKvh id)).flatMap fun h => (List.range (d.sesCapHb id)).filterMap fun i =>
    let w := d.descWord id l h i
    if descCount w = 0 || descShared w then none else some (descUnit w, rungUnits (descRung w) (d.sesD id))

/-- The lowest place in a layer heap for n units. -/
def Dev.freeUnits (d : Dev) (id l n : Nat) : Option Nat :=
  let used := d.usedUnits id l
  let ok (s : Nat) : Bool := s + n ≤ d.heapUnits id && used.all fun u => !meets s n u.1 u.2
  ((0 :: used.map fun u => u.1 + u.2).filter ok).foldl (fun best s => match best with
    | none => some s
    | some b => some (min b s)) none

/-- Where the bytes of a half-block lie: a shared one in the prefix slot of the view object (R328). -/
def Dev.blockAt (d : Dev) (id l w : Nat) : Nat :=
  if descShared w then
    65536 * d.slotPage (d.ses id Ses.PREFIX_REGION) (d.ses id Ses.PREFIX_SLOT) +
      (d.unitAt id l (descUnit w) - d.areaBase id)
  else d.unitAt id l (descUnit w)

/-! ## Rows -/

/-- Where slot c of a half-block keeps its key and the rows of its value planes (R324): (address, length). -/
def rowPlaces (base rung dd c : Nat) : List (Nat × Nat) :=
  (base + c * keyBytes rung dd, keyBytes rung dd) ::
    (List.range (dd / 64)).map fun j => (base + 64 * keyBytes rung dd + (j * 64 + c) * valBytes rung, valBytes rung)

/-- A row as stored: one byte string for the key and one per value plane, and whether a line of it is poisoned. -/
structure Row where
  rung : Nat
  parts : List (List Byte)
  bad  : Bool
deriving DecidableEq, Repr

def Dev.loadRow (d : Dev) (base rung dd c : Nat) : Row :=
  let ps := rowPlaces base rung dd c
  { rung := rung, parts := ps.map fun p => d.poolBytes p.1 p.2, bad := ps.any fun p => d.rangePoisoned p.1 p.2 }

def SesW.putRow (w : SesW) (base dd c : Nat) (r : Row) : SesW :=
  ((rowPlaces base r.rung dd c).zip r.parts).foldl (fun w e => w.put e.1.1 e.2 r.bad) w

/-- Quantise a pre-scaled key and a value to a rung, with counts. -/
def encodeRow (rung : Nat) (key val : List W32) (bad : Bool) : Row × Num.QCount :=
  let k := Num.quantRow (rungFn rung) key
  let vs := (Num.chunks 64 val.length val).map (Num.quantRow (rungFn rung))
  (⟨rung, k.1 :: vs.map Prod.fst, bad⟩, vs.foldl (fun c v => c.add v.2) k.2)

def partRow (rung n : Nat) (bs : List Byte) : List W32 := Num.dequantRow (rungFn rung) n fun i => bs.getD i 0

/-- The key and the value of a stored row, exact. -/
def decodeRow (dd : Nat) (r : Row) : List W32 × List W32 :=
  (partRow r.rung dd (r.parts.headD []), (r.parts.drop 1).flatMap (partRow r.rung 64))

/-- A row at another rung. -/
def rerung (dd rung : Nat) (r : Row) : Row × Num.QCount :=
  if r.rung = rung then (r, ⟨0, 0, 0⟩) else encodeRow rung (decodeRow dd r).1 (decodeRow dd r).2 r.bad

/-- Session quantisation counts for the session's home cluster (CLU_NUM). -/
def Dev.sesCount (d : Dev) (id : Nat) (q : Num.QCount) : Dev :=
  let c := d.ses id Ses.HOME_CLUSTER
  ((d.bump Bar.CLU_NUM_SAT_SES q.sat c).bump Bar.CLU_NUM_ZEROED q.zero c).bump Bar.CLU_NUM_NAN_BLK q.nan c

def SesW.count (w : SesW) (id : Nat) (q : Num.QCount) : SesW := (w.1.sesCount id q, w.2)

/-! ## Pre-scale (R292) -/

def Dev.prescaleAt (d : Dev) (id l h : Nat) : Nat := d.areaBase id + (l * d.sesKvh id + h) * (d.sesD id / 2)

/-- KSHIFT of a channel. -/
def Dev.kshift (d : Dev) (id l h j : Nat) : Int :=
  let n := ((d.poolByte (d.prescaleAt id l h + j / 2)).toNat >>> (4 * (j % 2))) % 16
  if n < 8 then Int.ofNat n else Int.ofNat n - 16

/-- A key channel times 2^-KSHIFT. -/
def Dev.prescaled (d : Dev) (id l h : Nat) (key : List W32) : List W32 :=
  key.zipIdx.map fun e => Num.toW (Num.mulFp (Num.ofW e.1) (.fin false 1 (-(d.kshift id l h e.2))))

/-! ## Appends (R330, R331) -/

/-- The half-block of a cache index, allocated if it is not: its descriptor word; none without free units. -/
def SesW.openBlock (w : SesW) (id l h i : Nat) : Option (Nat × SesW) :=
  let d := w.1
  if d.sesCapHb id ≤ i then none
  else
    let x := d.descWord id l h i
    if descCount x ≠ 0 then some (x, w)
    else
      let n := rungUnits 0 (d.sesD id)
      match d.freeUnits id l n with
      | none => none
      | some u =>
        let y := mkDesc 0 false false false 0 i u
        some (y, (w.put (d.unitAt id l u) (List.replicate (512 * n) 0) false).putDesc id l h i y)

/-- Write one row at a cache index. -/
def SesW.appendRow (w : SesW) (id l h idx : Nat) (key val : List W32) (bad : Bool) : Option SesW :=
  match w.openBlock id l h (idx / 64) with
  | none => none
  | some (x, w1) =>
    let dd := w1.1.sesD id
    let e := encodeRow (descRung x) (w1.1.prescaled id l h key) val bad
    let w2 := (w1.putRow (w1.1.blockAt id l x) dd (idx % 64) e.1).count id e.2
    some (w2.putDesc id l h (idx / 64) (mkDesc (descRung x) (descHeld x) (descShared x) (descPoison x || bad)
      (max (descCount x) (idx % 64 + 1)) (idx / 64) (descUnit x)))

/-- The key of a row of the open step. -/
def Dev.rowKey (d : Dev) (id l h t : Nat) : Nat := 16 * (l * d.sesKvh id + h) + t

def Dev.modSess (d : Dev) (id : Nat) (g : Sess → Sess) : Dev := { d with sess := kvMod d.sess id g }

/-- BF16 row of D values in a byte string. -/
def bfRow (dd : Nat) (bs : List Byte) : List W32 :=
  (List.range dd).map fun i => Num.ofBf16 (leNat ((bs.drop (2 * i)).take 2))

/-- Write the rows of an append: for each token and head in order, a key row and a value row of BF16. A row of the open
step that is already there is skipped. None when the heap is full. -/
def SesW.appendRows (w : SesW) (id l h0 : Nat) (bad : Bool) : List (Nat × Nat) → List Byte → Option SesW
  | [], _ => some w
  | (ti, hi) :: rs, bs =>
    let d := w.1
    let dd := d.sesD id
    let rest := bs.drop (4 * dd)
    match d.sesn id with
    | none => some w
    | some x =>
      if x.written.contains (d.rowKey id l (h0 + hi) ti) then w.appendRows id l h0 bad rs rest
      else
        match w.appendRow id l (h0 + hi) (d.ses id Ses.BASE + ti) (bfRow dd bs) (bfRow dd (bs.drop (2 * dd))) bad with
        | none => none
        | some w1 =>
          let w2 : SesW := (w1.1.modSess id fun x => { x with
            written := setIns (d.rowKey id l (h0 + hi) ti) x.written
            scaled := setIns (l * d.sesKvh id + (h0 + hi)) x.scaled }, w1.2)
          w2.appendRows id l h0 bad rs rest

/-- Token and head of each row of an append, in order. -/
def rowOrder (t heads : Nat) : List (Nat × Nat) :=
  (List.range t).flatMap fun ti => (List.range heads).map fun hi => (ti, hi)

/-- The half-blocks of a layer that an append has brought to COUNT 64. -/
def Dev.filledBlocks (before after : Dev) (id l h0 heads : Nat) : List Nat :=
  (List.range (after.sesCapHb id)).filter fun i => (List.range heads).any fun hi =>
    descCount (after.descWord id l (h0 + hi) i) == 64 && descCount (before.descWord id l (h0 + hi) i) != 64

/-- The automatic record of a fill (R332): every full rung-A half-block of the layer of lower index that is not
shared. -/
def Dev.autoRecord (d : Dev) (id l i : Nat) : PruneRec :=
  { step := d.ses id Ses.STEP, kind := 1, layer := l, evict := []
    demote := (List.range i).filter fun j => (List.range (d.sesKvh id)).any fun h =>
      let w := d.descWord id l h j
      descCount w == 64 && descRung w == 0 && !descShared w }

/-! ## Prune records (R339) -/

/-- The rows of one layer and head from half-block i0 on: (index, row, HELD of its half-block). -/
def Dev.rowsFrom (d : Dev) (id l h i0 : Nat) : List (Nat × Row × Bool) :=
  (List.range (d.sesCapHb id - i0)).flatMap fun k =>
    let w := d.descWord id l h (i0 + k)
    if descShared w then []
    else (List.range (descCount w)).map fun c =>
      let r := d.loadRow (d.blockAt id l w) (descRung w) (d.sesD id) c
      (64 * (i0 + k) + c, { r with bad := r.bad || descPoison w }, descHeld w)

/-- A rebuilt half-block: the finest rung of its rows, HELD of the first row at that rung. -/
def SesW.rebuild (w : SesW) (id l h i : Nat) (rows : List (Row × Bool)) : SesW :=
  let d := w.1
  let dd := d.sesD id
  let rung := rows.foldl (fun r e => min r e.1.rung) 2
  let held := match rows.find? fun e => e.1.rung == rung with
    | some e => e.2
    | none => false
  let bad := rows.any fun e => e.1.bad
  let n := rungUnits rung dd
  match d.freeUnits id l n with
  | none => w.putDesc id l h i (mkDesc rung held false true rows.length i 0)
  | some u =>
    let w1 := (w.put (d.unitAt id l u) (List.replicate (512 * n) 0) false).putDesc id l h i
      (mkDesc rung held false bad rows.length i u)
    rows.zipIdx.foldl (fun w e =>
      let r := rerung dd rung e.1.1
      (w.putRow (d.unitAt id l u) dd e.2 r.1).count id r.2) w1

/-- Remove cache indices from one layer and head: the survivors from the first evicted index's half-block on are packed
into new half-blocks, after the old units have been freed. -/
def SesW.evictFrom (w : SesW) (id l h : Nat) (es : List Nat) : SesW :=
  match es with
  | [] => w
  | e :: _ =>
    let i0 := e / 64
    let rows := ((w.1.rowsFrom id l h i0).filter fun r => !es.contains r.1).map fun r => (r.2.1, r.2.2)
    let old := (List.range (w.1.sesCapHb id - i0)).filter fun k => w.1.descWord id l h (i0 + k) != 0
    let w1 := old.foldl (fun w k => w.putDesc id l h (i0 + k) 0) w
    ((Num.chunks 64 rows.length rows).zipIdx).foldl (fun w g => w.rebuild id l h (i0 + g.2) g.1) w1

/-- Every layer and KV head of a session, in order. -/
def Dev.layerHeads (d : Dev) (id : Nat) : List (Nat × Nat) :=
  (List.range (d.sesLayers id)).flatMap fun l => (List.range (d.sesKvh id)).map fun h => (l, h)

/-- The score area is packed the same way; the places at its end start at 0. -/
def SesW.packScores (w : SesW) (id pos : Nat) (es : List Nat) : SesW :=
  match es with
  | [] => w
  | e :: _ =>
    let base := w.1.areaBase id + w.1.offS id + 64
    let keep := ((List.range (pos - e)).map (· + e)).filter fun i => !es.contains i
    w.put (base + 4 * e) (keep.flatMap (fun i => w.1.poolBytes (base + 4 * i) 4) ++ List.replicate (4 * es.length) 0)
      (w.1.rangePoisoned (base + 4 * e) (4 * (pos - e)))

/-- The relative error of one half-block at a lower rung (R294): whether it is held. -/
def Dev.holdCheck (d : Dev) (dd rung : Nat) (rows : List Row) : Bool :=
  let limit := if rung = 1 then d.get Bar.SES_QCHK_HOLD_B else d.get Bar.SES_QCHK_HOLD_C
  if limit = 0 then false
  else
    let old := rows.map (decodeRow dd)
    let enc := rows.map (rerung dd rung)
    let new := enc.map fun e => decodeRow dd e.1
    enc.any (fun e => e.2.nan != 0) ||
    Num.errAbove (Num.relErr2 (old.flatMap Prod.fst) (new.flatMap Prod.fst)) limit ||
    Num.errAbove (Num.relErr2 (old.flatMap Prod.snd) (new.flatMap Prod.snd)) limit

/-- Demote one half-block in place to a rung, or mark it held; `given` is the mirror's list of holds (R295). The answer
says whether it was held. -/
def SesW.demoteBlock (w : SesW) (id l h i rung : Nat) (given : Option (List (Nat × Nat × Nat))) : Bool × SesW :=
  let d := w.1
  let x := d.descWord id l h i
  let dd := d.sesD id
  if descShared x || descCount x = 0 || descRung x + 1 ≠ rung || (rung = 1 && descCount x ≠ 64) then (false, w)
  else
    let base := d.blockAt id l x
    let rows := (List.range (descCount x)).map fun c => d.loadRow base (descRung x) dd c
    let held := match given with
      | some g => g.contains (l, h, i)
      | none => d.holdCheck dd rung rows
    if held then
      let w1 := w.putDesc id l h i (mkDesc (descRung x) true false (descPoison x) (descCount x) i (descUnit x))
      (true, if given.isSome then w1
        else (w1.1.bump (if rung = 1 then Bar.SES_QCNT_HELD_B else Bar.SES_QCNT_HELD_C) 1, w1.2))
    else
      let bad := descPoison x || rows.any Row.bad
      let w1 := (w.put base (List.replicate (512 * rungUnits rung dd) 0) false).putDesc id l h i
        (mkDesc rung false false bad (descCount x) i (descUnit x))
      (false, rows.zipIdx.foldl (fun w e =>
        let r := rerung dd rung e.1
        (w.putRow base dd e.2 r.1).count id r.2) w1)

/-- Demote one half-block index in every layer and head that the record covers; the holds found. -/
def SesW.demoteIndex (w : SesW) (id : Nat) (r : PruneRec) (given : Option (List (Nat × Nat × Nat))) (i : Nat) :
    List (Nat × Nat × Nat) × SesW :=
  let lhs := if r.kind = 1 then (List.range (w.1.sesKvh id)).map fun h => (r.layer, h) else w.1.layerHeads id
  lhs.foldl (fun (acc : List (Nat × Nat × Nat) × SesW) lh =>
    let y := acc.2.demoteBlock id lh.1 lh.2 i (if r.kind = 1 then 1 else 2) given
    (if y.1 then acc.1 ++ [(lh.1, lh.2, i)] else acc.1, y.2)) ([], w)

/-- Demote the listed indices in order until the holds would exceed 8,192: holds, indices processed. -/
def SesW.demoteAll (w : SesW) (id : Nat) (r : PruneRec) (given : Option (List (Nat × Nat × Nat)))
    (held : List (Nat × Nat × Nat)) : List Nat → List (Nat × Nat × Nat) × List Nat × SesW
  | [] => (held, [], w)
  | i :: is =>
    let y := w.demoteIndex id r given i
    if 8192 < (held ++ y.1).length then (held, [], w)
    else
      let z := y.2.demoteAll id r given (held ++ y.1) is
      (z.1, i :: z.2.1, z.2.2)

/-- Apply a record (R339 steps 1 to 4): holds, indices processed, what was written. -/
def SesW.applyRecord (w : SesW) (id : Nat) (r : PruneRec) (given : Option (List (Nat × Nat × Nat))) :
    List (Nat × Nat × Nat) × List Nat × SesW :=
  let pos := w.1.ses id Ses.POSITIONS
  let w1 := (w.1.layerHeads id).foldl (fun w lh => w.evictFrom id lh.1 lh.2 r.evict) w
  let w2 := w1.packScores id pos r.evict
  let n := r.evict.length
  let d := (w2.1.setSes id Ses.POSITIONS (pos - n)).setSes id Ses.BASE (w2.1.ses id Ses.BASE - n)
  SesW.demoteAll (d, w2.2) id r given [] r.demote

/-- The half-blocks that a record reads: (address, length). -/
def Dev.recordReads (d : Dev) (id : Nat) (r : PruneRec) : List (Nat × Nat) :=
  (d.layerHeads id).flatMap fun lh => (List.range (d.sesCapHb id)).filterMap fun i =>
    let w := d.descWord id lh.1 lh.2 i
    if descCount w = 0 || descShared w then none
    else if r.evict.head?.any (fun e => e / 64 ≤ i) || (r.demote.contains i && (r.kind == 0 || lh.1 == r.layer)) then
      some (d.blockAt id lh.1 w, 512 * rungUnits (descRung w) (d.sesD id))
    else none

/-- Ready to read ranges, whose lines then meet their flaws (R169); else wait. -/
def Dev.rangesRead (d : Dev) : List (Nat × Nat) → Bool × Dev
  | [] => (true, d)
  | (a, n) :: rs =>
    let r := d.readyRead a n
    if r.1 then r.2.rangesRead rs else r

/-- The completed record in bytes (R337). -/
def recordBytes (r : PruneRec) (done : List Nat) (held : List (Nat × Nat × Nat)) : List Byte :=
  let body := r.evict.flatMap (toLe 2) ++ done.flatMap (toLe 2)
  toLe 4 r.step ++ toLe 2 r.evict.length ++ toLe 2 done.length ++ toLe 2 held.length ++
    [BitVec.ofNat 8 r.kind, BitVec.ofNat 8 r.layer] ++ List.replicate 4 0 ++ body ++
    List.replicate ((4 - body.length % 4) % 4) 0 ++
    held.flatMap fun e => toLe 4 (e.1 * 2 ^ 24 + e.2.1 * 2 ^ 16 + e.2.2)

/-- A list of n 16-bit values in bytes. -/
def halves (bs : List Byte) (n : Nat) : List Nat := (List.range n).map fun i => leNat ((bs.drop (2 * i)).take 2)

/-- A completed record from its bytes, with the holds it lists. -/
def recordOf (bs : List Byte) : PruneRec × List (Nat × Nat × Nat) :=
  let ne := leNat ((bs.drop 4).take 2)
  let nd := leNat ((bs.drop 6).take 2)
  let nh := leNat ((bs.drop 8).take 2)
  let body := (2 * (ne + nd) + 3) / 4 * 4
  ({ step := leNat (bs.take 4), kind := (bs.getD 10 0).toNat, layer := (bs.getD 11 0).toNat
     evict := halves (bs.drop 16) ne, demote := halves (bs.drop (16 + 2 * ne)) nd },
   (List.range nh).map fun i =>
     let x := leNat ((bs.drop (16 + body + 4 * i)).take 4)
     (x / 2 ^ 24, x / 2 ^ 16 % 256, x % 65536))

end Sys2Proof.Machine
end

