-- ==== Sys2Proof/Machine/Sessions.lean ====
section
/-! DEFINITION. Sessions (R298, R318-R343): commands, session instructions, prune records, the primary's mirror pushes
and the mirror's side of them (R449-R452). -/

namespace Sys2Proof.Machine

def sesDie (id : Nat) : Nat := id / 32768 % 2

/-! ## Mirror pushes (R340, R341, R449, R451) -/

/-- An endpoint is a member of the installed epoch. -/
def Dev.memberIn (d : Dev) (ep : Nat) : Bool :=
  (List.range 1024).any fun i =>
    d.flag Bar.MBR_MEMBER_VALID i && d.flag Bar.MBR_MEMBER_IN i && d.get Bar.MBR_MEMBER_ENDPOINT i == ep

/-- Pushes of one session. -/
def pushOf (id : Nat) : Cont → Bool
  | .mirror s _ _ _ _ => s == id
  | _ => false

/-- Send the pushes that wait, in order to each mirror. -/
def Dev.pumpPushList (d : Dev) (stuck : List Nat) : List (TPort × Frame × Cont) → Dev
  | [] => d
  | (p, f, c) :: ps =>
    let held := stuck.contains f.dstEp || d.reqs.any fun e =>
      e.2.naked && e.2.f.dstEp == f.dstEp && e.1 / 4096 == 13
    match if held then none else d.issue (unitTags 5) p f c with
    | some d1 => d1.pumpPushList stuck ps
    | none =>
      ({ d with mbr := { d.mbr with pushes := d.mbr.pushes ++ [(p, f, c)] } }).pumpPushList (f.dstEp :: stuck) ps

def Dev.pumpPushes (d : Dev) : Dev :=
  ({ d with mbr := { d.mbr with pushes := [] } }).pumpPushList [] d.mbr.pushes

/-- A push frame (R449). -/
def Dev.pushFrameOf (d : Dev) (id kind ep msession pseq w7 : Nat) (bs : List Byte) : Frame :=
  d.newFrame Ty.write 4 (d.ses id Ses.ALLOT) ep 0 0 16 (kind * 2 ^ 28 + msession) pseq w7 bs

/-- The fragments of a push; those that carry poisoned rows set FLAGS.POISON (R232). -/
def Dev.pushFrames (d : Dev) (id kind ep msession pseq : Nat) (bad : Bool) (bs : List Byte) : List Frame :=
  let parts := if bs.isEmpty then [[]] else Num.chunks 4096 bs.length bs
  parts.zipIdx.map fun e =>
    let f := d.pushFrameOf id kind ep msession pseq (e.2 * 2 ^ 24 + (parts.length - 1) * 2 ^ 16) e.1
    { f with flags := f.flags ||| (if bad then 1 else 0) }

/-- Push to the mirror while MIRROR_OK is 1 and the mirror is IN. -/
def Dev.queuePush (d : Dev) (id kind core gen pc : Nat) (bad : Bool) (bs : List Byte) : Dev :=
  let ep := d.ses id Ses.MIRROR_EP
  match d.sesn id with
  | none => d
  | some x =>
    if d.ses id Ses.MIRROR_OK = 1 ∧ d.memberIn ep then
      let fs := d.pushFrames id kind ep (d.ses id Ses.MIRROR_SESSION) x.pseq bad bs
      let d1 := d.modSess id fun x => { x with pseq := x.pseq + 1 }
      ({ d1 with mbr := { d1.mbr with
        pushes := d1.mbr.pushes ++ fs.map fun f => (TPort.memSide (sesDie id), f, Cont.mirror id kind core gen pc) } }).pumpPushes
    else d

/-- MIRROR_OK is cleared (R341, R451, R453). -/
def Dev.breakMirror (d : Dev) (id : Nat) : Dev :=
  if d.ses id Ses.MIRROR_OK = 1 then
    let al := d.ses id Ses.ALLOT
    let d1 := (d.setSes id Ses.MIRROR_OK 0).bump Bar.SES_STAT_MIRROR_BROKEN 1 (sesDie id)
    let d2 := (d1.alm1 Blk.ses 0x01 id al 0 (d.ses id Ses.MIRROR_EP)).notify al 0x03 id
    { d2 with mbr := { d2.mbr with pushes := d2.mbr.pushes.filter fun e => !pushOf id e.2.2 } }
  else d

/-- A push has ended with a status other than OK; a program learns of it (R236). -/
def Dev.pushFailed (d : Dev) (id core gen pc status : Nat) : Dev :=
  (d.fabricErr core gen 0 pc status 0).breakMirror id

/-! ## Clamps (R22, R23, R298, R321) -/

def putSes (ws : List Nat) (f : SesFld) (x : Nat) : List Nat := ws.set f.word (splice (ws.getD f.word 0) f.hi f.lo x)
def getSes (ws : List Nat) (f : SesFld) : Nat := slice (ws.getD f.word 0) f.hi f.lo

/-- The largest divisor of n that is at most m. -/
def divisorBelow (n : Nat) : Nat → Nat
  | 0 => 1
  | m + 1 => if n % (m + 1) = 0 then m + 1 else divisorBelow n m

/-- Step 1: the shape. -/
def clampShape (ws : List Nat) : List Nat :=
  let q := clampTo 1 256 (getSes ws Ses.QHEADS)
  let g := min q (clampTo 1 16 (getSes ws Ses.GQ))
  let w1 := putSes (putSes ws Ses.HDIM (min 2 (getSes ws Ses.HDIM))) Ses.GQ g
  putSes (putSes w1 Ses.QHEADS (q / g * g)) Ses.LAYERS (clampTo 1 128 (getSes ws Ses.LAYERS))

/-- Steps 2 to 4: PREFIX_POS at most what the version holds, BUDGET, CAP_POS. -/
def clampSizes (prefixMax : Nat) (ws : List Nat) : List Nat :=
  let p := min (getSes ws Ses.PREFIX_POS) prefixMax / 64 * 64
  let b := clampTo (min (p + 132) 32768) 32768 (getSes ws Ses.BUDGET)
  let c := (clampTo (b + 64) 32832 (getSes ws Ses.CAP_POS) + 63) / 64 * 64
  putSes (putSes (putSes ws Ses.PREFIX_POS p) Ses.BUDGET b) Ses.CAP_POS c

/-- Step 5: the plan (R298). -/
def clampPlan (ws : List Nat) : List Nat :=
  let g := getSes ws Ses.GQ
  let kvh := getSes ws Ses.QHEADS / g
  let h := divisorBelow kvh (getSes ws Ses.NPART_H + 1)
  let p := min (getSes ws Ses.NPART_P + 1) (64 / h)
  let span := min (getSes ws Ses.PSPAN + 1) (1024 / g)
  let w1 := putSes (putSes (putSes ws Ses.NPART_H (h - 1)) Ses.NPART_P (p - 1)) Ses.PSPAN (span - 1)
  let w2 := putSes (putSes w1 Ses.SPREAD (min (getSes ws Ses.SPREAD + 1) (h * p) - 1)) Ses.RGROUP
    (min (getSes ws Ses.RGROUP) (4095 - 2 * h))
  let down (f : SesFld) (ws : List Nat) : List Nat := putSes ws f (getSes ws f / 16 * 16)
  down Ses.BIAS_BASE (down Ses.BIAS_HSTRIDE (down Ses.BIAS_LSTRIDE w2))

/-- Only the named fields of a word are kept (R320). -/
def namedMask : List Nat :=
  [0xFFFFFFFFFFFFC000, 0xFFFFFFFFFFFFFFFF, 0xFFFFFFFFFFFFFF1F, 0xFFFFFFFFFFFFFFFF, 0xFFFFFFFFFFFFFF80,
    0xFFFFFFFF01FFFFFF, 0xFFFFFFFFFFFFFFFF, 0xFFFFFFFFFFFFFFFF]

/-! ## CREATE (R322, R323) -/

def Dev.sesArg (d : Dev) (w : Nat) : List Nat := (List.range 8).map fun n => d.get Bar.SES_ARG_WORD w n
def Dev.sesCmdId (d : Dev) (w : Nat) : Nat := d.get Bar.SES_CMD_SESSION w

def Dev.sesDone (d : Dev) (w status : Nat) : Dev :=
  (d.set Bar.SES_RESULT_STATUS status w).set Bar.SES_RESULT_DONE 1 w

/-- An entry with nothing done yet. -/
def freshSess (ws : List Nat) : Sess :=
  { words := ws, prunes := [], written := [], scaled := [], pseq := 0, expect := 0, frags := [], frozen := false, closing := false }

/-- The prefix record of a slot of a region, read at offset S of the new session's shape: entry words 0 and 1. -/
def Dev.prefixWords (d : Dev) (r slot : Nat) (ws : List Nat) : Option (Nat × Nat) :=
  let dd := 64 * 2 ^ getSes ws Ses.HDIM
  let s := roundPage (getSes ws Ses.LAYERS * (getSes ws Ses.QHEADS / getSes ws Ses.GQ) * (dd / 2))
  let a := 65536 * d.slotPage r slot + s
  if s + 24 ≤ 65536 * d.workPages r ∧ leNat (d.poolBytes (a + 4) 4) = 0x7290 then some (leNat (d.poolBytes (a + 8) 8), leNat (d.poolBytes (a + 16) 8))
  else none

/-- Fields that a prefix and a new session must share. -/
def samePrefix (ws : List Nat) (w0 w1 : Nat) : Bool :=
  slice (ws.getD 0 0) 51 28 == slice w0 51 28 && getSes ws Ses.CAP_POS == slice w1 47 32

/-- Word fields kept by the device, for a new entry. -/
def deviceWords (state base : Nat) (ws : List Nat) : List Nat :=
  let p := getSes ws Ses.PREFIX_POS
  let w1 := putSes (putSes (putSes ws Ses.STATE state) Ses.MIRROR_OK 0) Ses.POSITIONS p
  let w2 := putSes (putSes (putSes w1 Ses.STEP 0) Ses.BASE p) Ses.LAYER (getSes ws Ses.LAYERS - 1)
  putSes (putSes (putSes w2 Ses.T_OPEN 0) Ses.PMASK 0) Ses.AREA_BASE base

/-- The layout of an entry that has just been put in the table: empty half-block tables and score header, and the
prefix's descriptor words and pre-scale vectors. -/
def SesW.layOut (w : SesW) (id : Nat) : SesW :=
  let d := w.1
  let tables := d.sesLayers id * d.sesKvh id * d.sesCapHb id * 8
  let w1 := (w.put (d.areaBase id + d.offH id) (List.replicate tables 0) false).put (d.areaBase id + d.offS id)
    (List.replicate 64 0) false
  let p := d.ses id Ses.PREFIX_POS
  if p = 0 then w1
  else
    let view := 65536 * d.slotPage (d.ses id Ses.PREFIX_REGION) (d.ses id Ses.PREFIX_SLOT)
    let w2 := w1.put (d.areaBase id) (d.poolBytes view (d.sesLayers id * d.sesKvh id * (d.sesD id / 2))) false
    (d.layerHeads id).foldl (fun w lh => (List.range (p / 64)).foldl (fun w i =>
      let at' := d.descAt id lh.1 lh.2 i - d.areaBase id
      w.putDesc id lh.1 lh.2 i (setBit (leNat (d.poolBytes (view + at') 8)) 60)) w) w2

/-- Enter a session in the table; BUSY while its object is too small. None while a range is not ready. -/
def Dev.enterSession (d : Dev) (w id state obj slot : Nat) (ws : List Nat) : Option Dev × Dev :=
  let words := putSes (deviceWords state (65536 * d.get Bar.MEM_OBJ_BASE_PAGE obj) ws) Ses.PREFIX_SLOT slot
  let p := getSes ws Ses.PREFIX_POS
  let x0 := freshSess words
  let d1 : Dev := { d with sess := kvPut d.sess id x0 }
  let x : Sess := { x0 with scaled := if p = 0 then [] else List.range (d1.sesLayers id * d1.sesKvh id) }
  let d2 : Dev := { d1 with sess := kvPut d1.sess id x }
  let room := d2.offU id + d2.sesLayers id * d2.sesKvh id * 2 * rungUnits 0 (d2.sesD id) * 512
  if d2.objBytes id < room then (some ((if p = 0 then d else d.closeSlot (getSes ws Ses.PREFIX_REGION) slot).sesDone w Code.busy), d)
  else
    let y := SesW.layOut (d2, []) id
    let r := d.rangesReady y.2
    if r.1 = 0 then (some ((y.1.bump Bar.SES_STAT_IN_USE 1 (sesDie id)).sesDone w Code.ok), d)
    else if r.1 = 2 then
      (some ((if p = 0 then r.2 else r.2.closeSlot (getSes ws Ses.PREFIX_REGION) slot).sesDone w Code.busy), d)
    else (none, r.2)

/-- CREATE: none while it must wait. -/
def Dev.trySession (d : Dev) (w : Nat) : Option Dev × Dev :=
  let id := d.sesCmdId w
  let ws := clampShape ((d.sesArg w).zipWith (fun a b => a &&& b) namedMask)
  let state := if slice ((d.sesArg w).getD 0 0) 63 61 = 2 then 2 else 1
  let al := getSes ws Ses.ALLOT
  let obj := getSes ws Ses.CACHE_OBJ
  let r := getSes ws Ses.PREFIX_REGION
  let no (st : Nat) : Option Dev × Dev := (some (d.sesDone w st), d)
  if d.inReset al then no Code.resetting
  else if d.disabled al || d.ses id Ses.STATE != 0 || !d.objValid obj || d.get Bar.MEM_OBJ_ALLOT obj != al ||
      2 ≤ d.get Bar.MEM_OBJ_POLICY obj || (d.viewRegion obj).isSome then no Code.access
  else if getSes ws Ses.PREFIX_POS / 64 = 0 then
    d.enterSession w id state obj 0 (clampPlan (clampSizes 0 ws))
  else if (kvGet? d.ver.pubs r).isSome then (none, d)
  else if !d.regionValid r || d.get Bar.VER_REGION_ALLOT r != al || d.get Bar.VER_REGION_CUR_VERSION r == 0 then
    no Code.access
  else
    let slot := d.get Bar.VER_REGION_CUR_SLOT r
    if d.get Bar.VER_SLOT_OPENS r slot = 16777215 then no Code.busy
    else match d.prefixWords r slot ws with
      | none => d.enterSession w id state obj 0 (clampPlan (clampSizes 0 ws))
      | some (w0, w1) =>
        let y := clampPlan (clampSizes (slice w1 31 16) ws)
        if !samePrefix y w0 w1 || d.workPages r != d.get Bar.MEM_OBJ_PAGES obj then no Code.access
        else if getSes y Ses.PREFIX_POS = 0 then d.enterSession w id state obj 0 y
        else
          let e := (d.bump Bar.VER_SLOT_OPENS 1 r slot).enterSession w id state obj slot y
          match e.1 with
          | some d1 => (some d1, d)
          | none => (none, e.2.drop Bar.VER_SLOT_OPENS 1 r slot)

/-- CREATE: while it waits, DONE is 0 and the window is noted. -/
def Dev.createSession (d : Dev) (w : Nat) : Dev :=
  match d.trySession w with
  | (some d1, _) => d1
  | (none, d1) =>
    let d2 := d1.set Bar.SES_RESULT_DONE 0 w
    { d2 with ver := { d2.ver with creates := setIns w d2.ver.creates } }

/-- CREATEs that wait are tried again. -/
def Dev.retryCreates (d : Dev) : Dev :=
  d.ver.creates.foldl Dev.createSession { d with ver := { d.ver with creates := [] } }

/-- A command starts only while its window is DONE (R135, R322). -/
def Dev.sesCmd (d : Dev) (w : Nat) (f : Dev → Nat → Dev) : Dev :=
  if w < 3 ∧ d.flag Bar.SES_RESULT_DONE w then f d w else d

def execSessionCreate (w : Nat) (s : State) : Out := .next (s.window w fun d => d.sesCmd w Dev.createSession)

def execPublishRecallDone (r : Nat) (s : State) : Out :=
  .next (s.live fun d => if r < 4096 then (d.publishStep r).retryCreates else d)

/-! ## SET_PLAN, READ and CLOSE -/

/-- An invocation of a session is assembling, running or draining. -/
def Dev.sesBusy (d : Dev) (id : Nat) : Bool := d.units.any fun e => e.2.state != 0 && e.2.session == some id

def Dev.setPlan (d : Dev) (w : Nat) : Dev :=
  let id := d.sesCmdId w
  let al := d.ses id Ses.ALLOT
  match d.sesn id with
  | none => d.sesDone w Code.access
  | some x =>
    if d.inReset al then d.sesDone w Code.resetting
    else if d.ses id Ses.STATE ≠ 1 ∨ d.disabled al then d.sesDone w Code.access
    else if d.sesBusy id then d.sesDone w Code.busy
    else
      let a := (d.sesArg w).zipWith (fun a b => a &&& b) namedMask
      let ws := clampPlan ((x.words.set 4 (a.getD 4 0)).set 5 (a.getD 5 0))
      (d.modSess id fun x => { x with words := ws }).sesDone w Code.ok

def execSetPlan (w : Nat) (s : State) : Out := .next (s.window w fun d => d.sesCmd w Dev.setPlan)

def Dev.readSession (d : Dev) (w : Nat) : Dev :=
  let id := d.sesCmdId w
  if (d.sesn id).isSome && d.inReset (d.ses id Ses.ALLOT) then d.sesDone w Code.resetting
  else ((List.range 8).foldl (fun d n => d.set Bar.SES_ARG_WORD (d.sesWord id n) w n) d).sesDone w Code.ok

def execSessionRead (w : Nat) (s : State) : Out := .next (s.window w fun d => d.sesCmd w Dev.readSession)

def Dev.closeSession (d : Dev) (w : Nat) : Dev :=
  let id := d.sesCmdId w
  match d.sesn id with
  | none => d.sesDone w Code.access
  | some x =>
    if d.inReset (d.ses id Ses.ALLOT) then d.sesDone w Code.resetting
    else if x.frozen || d.mbr.attaches.any (fun e => e.2.session == id) then (d.modSess id fun x => { x with closing := true }).sesDone w Code.ok
    else (d.setSes id Ses.STATE 4).sesDone w Code.ok

def execSessionClose (w : Nat) (s : State) : Out := .next (s.window w fun d => d.sesCmd w Dev.closeSession)

/-- An entry becomes FREE: its prefix slot is closed (R342). -/
def Dev.freeSession (d : Dev) (id : Nat) : Dev :=
  let d1 := if d.ses id Ses.PREFIX_POS = 0 then d
    else d.closeSlot (d.ses id Ses.PREFIX_REGION) (d.ses id Ses.PREFIX_SLOT)
  ({ d1 with
    sess := kvDel d1.sess id, pool := { d1.pool with holds := kvDel d1.pool.holds id } }).drop
    Bar.SES_STAT_IN_USE 1 (sesDie id)

/-! ## Prune records (R338, R339) -/

/-- No invocation of the session is assembling, running or draining; one that waits at dispatch does not count. -/
def Dev.sesQuiet (d : Dev) (id : Nat) : Bool :=
  !d.units.any fun e => e.2.session == some id && (e.2.state == 2 || e.2.state == 3 ||
    (e.2.state == 1 && !(match e.2.inv with
      | some i => i.whole
      | none => true)))

/-- Apply the oldest record: false while a range is not ready. -/
def Dev.applyOne (d : Dev) (id : Nat) (x : Sess) (r : PruneRec) : Bool × Dev :=
  let p := d.rangesRead (d.recordReads id r)
  let y := SesW.applyRecord (p.2, []) id r none
  let q := p.2.rangesReady y.2.2.2
  if !p.1 then p
  else if q.1 ≠ 0 then (false, q.2)
  else
    let d1 := (y.2.2.1.modSess id fun z => { z with prunes := x.prunes.drop 1 }).bump Bar.SES_STAT_RECORDS 1 (sesDie id)
    (true, d1.queuePush id 2 1000 0 0 false (recordBytes r y.2.1 y.1))

/-- Apply every queued record in order. -/
def Dev.applyAll (d : Dev) (id : Nat) : Nat → Dev
  | 0 => d
  | fuel + 1 =>
    match d.sesn id with
    | none => d
    | some x => match x.prunes with
      | [] => d
      | r :: _ =>
        let y := d.applyOne id x r
        if y.1 then y.2.applyAll id fuel else y.2

def Dev.applyPrunes (d : Dev) (id : Nat) : Dev := if d.sesQuiet id then d.applyAll id 257 else d

def execPruneRecordApply (session : Nat) (s : State) : Out := .next (s.live fun d => d.applyPrunes session)

/-- CLOSING: records are applied, a closing mark is pushed, the entry becomes FREE (R342). -/
def Dev.closeComplete (d : Dev) (id : Nat) : Dev :=
  if d.ses id Ses.STATE ≠ 4 ∨ d.sesBusy id then d
  else
    let d1 := d.applyPrunes id
    match d1.sesn id with
    | none => d1
    | some x => if x.prunes.isEmpty then (d1.queuePush id 3 1000 0 0 false []).freeSession id else d1

def execSessionCloseComplete (session : Nat) (s : State) : Out := .next (s.live fun d => d.closeComplete session)

/-! ## Acceptance by step and layer (R329) -/

/-- A partition is dispatched in the open layer. -/
def Dev.markPart (d : Dev) (id p : Nat) : Dev := d.setSes id Ses.PMASK (setBit (d.ses id Ses.PMASK) (p % 64))

/-- The row of R329 that an INVOKE matches: the entry after it and whether it is a replay, or none. -/
def Dev.acceptStep (d : Dev) (id s l p : Nat) : Option (Dev × Bool) :=
  let step := d.ses id Ses.STEP
  let layer := d.ses id Ses.LAYER
  let n := d.sesLayers id
  if s = (step + 1) % 2 ^ 32 ∧ l = 0 ∧ layer + 1 = n then
    let d1 := ((d.setSes id Ses.STEP s).setSes id Ses.LAYER 0).setSes id Ses.PMASK (2 ^ (p % 64))
    let d2 := (d1.setSes id Ses.BASE (d.ses id Ses.POSITIONS)).setSes id Ses.T_OPEN 0
    some (d2.modSess id fun x => { x with written := [] }, false)
  else if s = step ∧ l = layer + 1 ∧ l < n then
    some ((d.setSes id Ses.LAYER l).setSes id Ses.PMASK (2 ^ (p % 64)), false)
  else if s = step ∧ l = layer then some (d.markPart id p, (d.ses id Ses.PMASK).testBit (p % 64))
  else if s = step ∧ l < layer then some (d, true)
  else none

/-! ## Session instructions (R270, R328, R330-R332, R338) -/

/-- The session of a unit's invocation, while its entry is in use. -/
def Dev.unitSession (d : Dev) (k : Nat) : Option Nat :=
  match (d.unit k).session with
  | some id => if (d.sesn id).isSome then some id else none
  | none => none

/-- A session instruction without a session sets NO_SESSION. -/
def Dev.noSession (d : Dev) (k : Nat) : Dev :=
  d.modUnit k fun u => { u with sesStatus := if u.sesStatus.isSome then u.sesStatus else some Code.noSession }

def Dev.iSinfo (d : Dev) (k : Nat) (sa : BitVec 5) (n : BitVec 16) : Act :=
  match d.unitSession k with
  | none => .go ((d.noSession k).ws k sa 0 false)
  | some id => .go (d.ws k sa (BitVec.ofNat 64 (d.sesWord id (min 7 n.toNat))) false)

/-- The address and descriptor word that sblk answers (R328). -/
def Dev.sblkAnswer (d : Dev) (id l h i : Nat) : Nat × Nat :=
  if (d.ses id Ses.POSITIONS + 63) / 64 ≤ i then (0, 0)
  else
    let w := d.descWord id l h i
    let a := d.blockAt id l w
    let bad := descPoison w || d.rangePoisoned a (512 * rungUnits (descRung w) (d.sesD id))
    (a, if bad then setBit w 59 else w)

def Dev.iSblk (d : Dev) (k : Nat) (sa0 sb sc : BitVec 5) : Act :=
  let sa := pairReg sa0
  let bad := d.sBad k sb || d.sBad k sc
  match d.unitSession k with
  | none => .go (((d.noSession k).ws k sa 0 bad).ws k (sa + 1) 0 bad)
  | some id =>
    let x := (d.rs k sc).toNat
    let r := d.sblkAnswer id (min (d.rs k sb).toNat (d.sesLayers id - 1)) (min (x / 65536 % 256) (d.sesKvh id - 1)) (x % 65536)
    .go ((d.ws k sa (BitVec.ofNat 64 r.1) bad).ws k (sa + 1) (BitVec.ofNat 64 r.2) bad)

/-- The payload of a ROW push for heads h0 .. h0 + n - 1 of an append of T tokens (R449). -/
def Dev.rowPayload (d : Dev) (id l first heads h0 n t : Nat) (pre : Bool) (bs : List Byte) : List Byte :=
  let dd := d.sesD id
  let rows := (List.range t).flatMap fun ti => (bs.drop ((ti * heads + (h0 - first)) * 4 * dd)).take (n * 4 * dd)
  let vecs := if pre then (List.range n).flatMap fun i => d.poolBytes (d.prescaleAt id l (h0 + i)) (dd / 2) else []
  [BitVec.ofNat 8 l, BitVec.ofNat 8 h0, BitVec.ofNat 8 (n - 1), BitVec.ofNat 8 (t - 1)] ++
    toLe 4 (d.ses id Ses.STEP) ++ toLe 2 (d.ses id Ses.BASE) ++ [if pre then 1 else 0] ++ List.replicate 5 0 ++ vecs ++ rows

/-- Push an append's rows; heads are grouped so that a push has at most 256 fragments. -/
def Dev.pushRows (d : Dev) (id l h0 heads t k gen pc : Nat) (pre bad : Bool) (bs : List Byte) : Dev :=
  let g := max 1 (1048000 / (4 * d.sesD id * t + d.sesD id / 2))
  (List.range ((heads + g - 1) / g)).foldl (fun d i =>
    d.queuePush id 1 k gen pc bad (d.rowPayload id l h0 heads (h0 + g * i) (min g (heads - g * i)) t pre bs)) d

/-- The queue of records of a session is full (R338). -/
def Sess.full (x : Sess) : Bool := 256 ≤ x.prunes.length

/-- The tokens of an append, and the entry with T_OPEN and POSITIONS set by the first of a step (R330). -/
def Dev.openTokens (d : Dev) (id t : Nat) : Nat × Dev :=
  let o := d.ses id Ses.T_OPEN
  if o = 0 then (t, (d.setSes id Ses.T_OPEN t).setSes id Ses.POSITIONS (d.ses id Ses.BASE + t)) else (o, d)

/-- The automatic records of an append (R332). -/
def Dev.queueAutos (before after : Dev) (id l h0 heads : Nat) : Dev :=
  (before.filledBlocks after id l h0 heads).foldl (fun d i =>
    let r := d.autoRecord id l i
    match d.sesn id with
    | none => d
    | some x => if x.prunes.any (fun y => y.kind == 1 && y.layer == l && y.step == r.step) then d
      else d.modSess id fun x => { x with prunes := x.prunes ++ [r] }) after

def Dev.iSappend (d : Dev) (k : Nat) (ctr : BitVec 4) (sa sb : BitVec 5) : Act :=
  let u := d.unit k
  match d.unitSession k with
  | none => .go ((d.noSession k).arrive k u.gen ctr.toNat 8)
  | some id =>
    let x := (d.rs k sb).toNat
    let l := min (x % 256) (d.sesLayers id - 1)
    let h0 := min (x / 256 % 256) (d.sesKvh id - 1)
    let heads := min (x / 65536 % 256 + 1) (d.sesKvh id - h0)
    let o := d.openTokens id (x / 2 ^ 24 % 16 + 1)
    let n := o.1 * heads * 4 * d.sesD id
    let a := alignDown (spadAddr (d.rs k sa)) 2
    d.withSpad k a n fun _ =>
      let ld := o.2.loadSpad k a n
      let d0 := ld.2.2
      match d0.sesn id with
      | none => .go d0
      | some sx =>
          let pre := (List.range heads).any fun i => !sx.scaled.contains (l * d0.sesKvh id + (h0 + i))
          match SesW.appendRows (d0, []) id l h0 ld.2.1 (rowOrder o.1 heads) ld.1 with
          | none => .go (d.fabricErr k u.gen 0 u.pc Code.busy 0)
          | some w =>
            let r := d.rangesReady w.2
            if sx.full && !(d0.filledBlocks w.1 id l h0 heads).isEmpty then .wait d
            else if r.1 = 1 then .wait r.2
            else if r.1 = 2 then .go (r.2.fabricErr k u.gen 0 u.pc Code.busy 0)
            else
              let d1 := d0.queueAutos w.1 id l h0 heads
              let d2 := if w.2.isEmpty then d1 else d1.pushRows id l h0 heads o.1 k u.gen u.pc pre ld.2.1 ld.1
              .go (d2.arrive k u.gen ctr.toNat 8)

/-- Indices that a prune record may evict, each above the one before it that is kept (R334, R338). -/
def Dev.cleanEvicts (d : Dev) (id : Nat) (es : List Nat) : List Nat :=
  let ok (e : Nat) : Bool := 4 ≤ e && d.ses id Ses.PREFIX_POS ≤ e && e + 64 < d.ses id Ses.BASE && e < d.ses id Ses.POSITIONS
  es.foldl (fun acc e => if ok e && (match acc.getLast? with
    | some y => decide (y < e)
    | none => true) then acc ++ [e] else acc) []

def Dev.iSprune (d : Dev) (k : Nat) (ctr : BitVec 4) (sa : BitVec 5) : Act :=
  let u := d.unit k
  match d.unitSession k with
  | none => .go ((d.noSession k).arrive k u.gen ctr.toNat 8)
  | some id =>
    let a := alignDown (spadAddr (d.rs k sa)) 4
    d.withSpad k a 16 fun _ =>
      let hd := (d.loadSpad k a 16).1
      let ne := min 2048 (leNat ((hd.drop 4).take 2))
      let nd := min 1024 (leNat ((hd.drop 6).take 2))
      d.withSpad k a (16 + 2 * (ne + nd)) fun _ =>
        let ld := d.loadSpad k a (16 + 2 * (ne + nd))
        match d.sesn id with
        | none => .go d
        | some sx =>
          if sx.full then .wait d
          else
            let r : PruneRec := {
              step := leNat (hd.take 4), kind := 0, layer := 0
              evict := d.cleanEvicts id (halves (ld.1.drop 16) ne)
              demote := ((halves (ld.1.drop (16 + 2 * ne)) nd).filter fun i => i < d.sesCapHb id).foldl
                (fun l i => setIns i l) [] }
            .go ((ld.2.2.modSess id fun x => { x with prunes := x.prunes ++ [r] }).arrive k u.gen ctr.toNat 8)

/-! ## The mirror's side (R340, R450, R452) -/

/-- WRITE_ACK to a push. -/
def Dev.ackPush (d : Dev) (id : Nat) (f : Frame) (status : Nat) : Dev :=
  d.send (.memSide (sesDie id)) (d.answer f Ty.writeAck 5 status 0 0 [])

/-- The entry's step, layer and tokens follow the pushed rows. -/
def Dev.mirrorStep (d : Dev) (id l t step base : Nat) : Dev :=
  let fresh := step != d.ses id Ses.STEP
  let d1 := if fresh then (d.setSes id Ses.LAYER l).modSess id fun x => { x with written := [] }
    else d.setSes id Ses.LAYER (max l (d.ses id Ses.LAYER))
  (((d1.setSes id Ses.STEP step).setSes id Ses.BASE base).setSes id Ses.T_OPEN t).setSes id Ses.POSITIONS (base + t)

/-- A fragment of the push that is arriving carries FLAGS.POISON. -/
def Dev.pushPoisoned (d : Dev) (id : Nat) : Bool :=
  match d.sesn id with
  | some x => x.frags.any Frame.poisonBit
  | none => false

/-- Apply a ROW: OK, BUSY when the heap is full, or none while a range is not ready. Poisoned rows stay poisoned, so that
the mirror equals the primary (R232, R340). -/
def Dev.mirrorRow (d : Dev) (id : Nat) (bs : List Byte) : Option (Nat × Dev) × Dev :=
  let byte (i : Nat) : Nat := (bs.getD i 0).toNat
  let l := min (byte 0) (d.sesLayers id - 1)
  let h0 := min (byte 1) (d.sesKvh id - 1)
  let heads := min (byte 2 + 1) (d.sesKvh id - h0)
  let t := byte 3 % 16 + 1
  let vl := heads * (d.sesD id / 2)
  let pre := byte 10 % 2 == 1
  let d1 := d.mirrorStep id l t (leNat ((bs.drop 4).take 4)) (leNat ((bs.drop 8).take 2))
  let w0 : SesW := if pre then SesW.put (d1, []) (d1.prescaleAt id l h0) ((bs.drop 16).take vl) false else (d1, [])
  match w0.appendRows id l h0 (d.pushPoisoned id) (rowOrder t heads) (bs.drop (if pre then 16 + vl else 16)) with
  | none => (some (Code.busy, d), d)
  | some w =>
    let r := d.rangesReady w.2
    if r.1 = 0 then (some (Code.ok, w.1), d) else if r.1 = 2 then (some (Code.busy, d), d) else (none, r.2)

/-- Apply a RECORD with the holds it lists. -/
def Dev.mirrorRecord (d : Dev) (id : Nat) (bs : List Byte) : Option (Nat × Dev) × Dev :=
  let x := recordOf bs
  let p := d.rangesRead (d.recordReads id x.1)
  let y := SesW.applyRecord (p.2, []) id x.1 (some x.2)
  let r := p.2.rangesReady y.2.2.2
  if !p.1 then (none, p.2)
  else if r.1 = 0 then (some (Code.ok, y.2.2.1.bump Bar.SES_STAT_RECORDS 1 (sesDie id)), d)
  else if r.1 = 2 then (some (Code.busy, d), d) else (none, r.2)

/-- Apply a COPY of 4 KiB at an offset. -/
def Dev.mirrorCopy (d : Dev) (id off : Nat) (bs : List Byte) (bad : Bool) : Option (Nat × Dev) × Dev :=
  if d.objBytes id < 4096 * off + 4096 ∨ bs.length ≠ 4096 then (some (Code.access, d), d)
  else
    let w := SesW.put (d, []) (d.areaBase id + 4096 * off) bs bad
    let r := d.rangesReady w.2
    if r.1 = 0 then (some (Code.ok, w.1), d) else if r.1 = 2 then (some (Code.busy, d), d) else (none, r.2)

/-- Layers and heads that hold a position. -/
def Dev.scaledOf (d : Dev) (id : Nat) : List Nat :=
  ((d.layerHeads id).filter fun lh => (List.range (d.sesCapHb id)).any fun i => descCount (d.descWord id lh.1 lh.2 i) != 0).map
    fun lh => lh.1 * d.sesKvh id + lh.2

/-- Apply COPY_DONE: the primary's words 1 to 5, DECAY and DEMOTE_C (R452). -/
def Dev.mirrorDone (d : Dev) (id : Nat) (bs : List Byte) : Option (Nat × Dev) × Dev :=
  let ws := (List.range 8).map fun i => leNat ((bs.drop (8 * i)).take 8)
  let same := slice (ws.getD 0 0) 51 28 == slice (d.sesWord id 0) 51 28 && getSes ws Ses.CAP_POS == d.ses id Ses.CAP_POS &&
    ws.getD 4 0 == d.sesWord id 4 && ws.getD 5 0 == d.sesWord id 5
  if !same || bs.length != 64 then (some (Code.access, d), d)
  else
    let d1 := d.modSess id fun x => { x with
      words := [1, 2, 3, 4, 5].foldl (fun l n => l.set n (ws.getD n 0)) x.words, written := [] }
    let d2 := ((d1.setSes id Ses.DECAY (getSes ws Ses.DECAY)).setSes id Ses.DEMOTE_C (getSes ws Ses.DEMOTE_C)).setSes
      id Ses.MIRROR_OK 1
    (some (Code.ok, d2.modSess id fun x => { x with scaled := d2.scaledOf id }), d)

/-- The payload of the push that is arriving, in fragment order. -/
def Sess.payload (x : Sess) (last : Nat) : List Byte :=
  (List.range (last + 1)).flatMap fun i => match x.frags.find? fun f => f.w7 >>> 24 % 256 == i with
    | some f => f.payload
    | none => []

/-- All fragments of a push. -/
def pushLast (f : Frame) : Nat := if f.w5 >>> 28 % 16 ≤ 2 then f.w7 >>> 16 % 256 else 0
def pushIdx (f : Frame) : Nat := if f.w5 >>> 28 % 16 ≤ 2 then f.w7 >>> 24 % 256 else 0

/-- Apply the push whose fragments have all arrived, and acknowledge it. -/
def Dev.applyPush (d : Dev) (id : Nat) : Dev :=
  match d.sesn id with
  | none => d
  | some x => match x.frags with
    | [] => d
    | f :: _ =>
      let last := pushLast f
      if !(List.range (last + 1)).all (fun i => x.frags.any fun g => pushIdx g == i) then d
      else
        let kind := f.w5 >>> 28 % 16
        let bs := if kind ≤ 2 then x.payload last else f.payload
        let r := if kind = 1 then d.mirrorRow id bs
          else if kind = 2 then d.mirrorRecord id bs
          else if kind = 4 then d.mirrorCopy id (f.w7 % 2 ^ 28) bs (Frame.poisonBit f)
          else if kind = 5 then d.mirrorDone id bs
          else (some (Code.ok, d), d)
        match r with
        | (none, d1) => d1
        | (some (st, d1), _) =>
          let d2 := d1.modSess id fun x => { x with expect := x.expect + 1, frags := [] }
          let d3 := x.frags.foldl (fun d g => d.ackPush id g st) d2
          if kind = 3 then d3.freeSession id else d3

/-- A push after its checks (R450). -/
def Dev.takePush (d : Dev) (f : Frame) : Dev :=
  let id := f.w5 % 65536
  let kind := f.w5 >>> 28 % 16
  match d.sesn id with
  | none => d.ackPush id f Code.access
  | some x =>
    if d.ses id Ses.ALLOT ≠ f.allot then d.nak (.memSide (sesDie id)) f Code.access
    else if d.ses id Ses.STATE ≠ 2 ∨ d.ses id Ses.MIRROR_EP ≠ f.srcEp ∨ kind = 0 ∨ 5 < kind then d.ackPush id f Code.access
    else
      let first := kind == 4 && f.w6 == 0
      let d1 := if first then (d.setSes id Ses.MIRROR_OK 0).modSess id fun x => { x with expect := 0, frags := [] } else d
      let e := if first then 0 else x.expect
      if f.w6 < e then d1.ackPush id f Code.ok
      else if e < f.w6 then d1.nak (.memSide (sesDie id)) f Code.busy
      else
        let d2 := d1.modSess id fun x => { x with
          frags := (x.frags.filter fun g => pushIdx g != pushIdx f) ++ [f] }
        d2.applyPush id

/-- A mirror push frame of a kind. -/
def Dev.pushRow (d : Dev) (f : Frame) (kinds : Nat → Bool) : Dev :=
  if isPush f && kinds (f.w5 >>> 28 % 16) then
    match d.recv (.memSide (sesDie (f.w5 % 65536))) f with
    | (some g, d1) => d1.takePush g
    | (none, d1) => d1
  else d

def execPushRow (f : Frame) (s : State) : Out := .next (s.live fun d => d.pushRow f fun k => k == 1 || k == 0 || 5 < k)
def execPushRecord (f : Frame) (s : State) : Out := .next (s.live fun d => d.pushRow f (· == 2))
def execPushClose (f : Frame) (s : State) : Out := .next (s.live fun d => d.pushRow f (· == 3))
def execPushCopy (f : Frame) (s : State) : Out := .next (s.live fun d => d.pushRow f (· == 4))
def execPushCopyDone (f : Frame) (s : State) : Out := .next (s.live fun d => d.pushRow f (· == 5))

/-- Requests and pushes of an ATTACH. -/
def attachOf (w : Nat) : Cont → Bool
  | .attach x => x == w
  | _ => false

/-- An ATTACH ends with a status: its pushes end, the freeze is released, a CLOSE that waited takes effect (R452). -/
def Dev.endAttach (d : Dev) (w status : Nat) : Dev :=
  match kvGet? d.mbr.attaches w with
  | none => d
  | some a =>
    let d1 : Dev := { d with
      reqs := d.reqs.filter fun e => !attachOf w e.2.cont
      mbr := { d.mbr with
        attaches := kvDel d.mbr.attaches w, pushes := d.mbr.pushes.filter fun e => !attachOf w e.2.2 } }
    let d2 := (d1.set Bar.MBR_ATT_RESULT_STATUS status w).set Bar.MBR_ATT_RESULT_DONE 1 w
    match d2.sesn a.session with
    | none => d2
    | some x =>
      let d3 := d2.modSess a.session fun x => { x with frozen := false, closing := false }
      if x.closing then d3.setSes a.session Ses.STATE 4 else d3

/-- The ATTACHes of a session end with a status. -/
def Dev.dropAttach (d : Dev) (id status : Nat) : Dev :=
  d.mbr.attaches.foldl (fun d e => if e.2.session = id then d.endAttach e.1 status else d) d

/-! ## Promotion (R341, R453) -/

/-- Remove the positions of a layer and head at or above an index. -/
def SesW.truncate (w : SesW) (id l h pos : Nat) : SesW :=
  (List.range (w.1.sesCapHb id)).foldl (fun w i =>
    let x := w.1.descWord id l h i
    let n := min (descCount x) (pos - 64 * i)
    if descShared x || n = descCount x then w
    else if n = 0 then w.putDesc id l h i 0
    else
      let w1 := ((List.range (descCount x - n)).flatMap fun c =>
        rowPlaces (w.1.blockAt id l x) (descRung x) (w.1.sesD id) (n + c)).foldl (fun w p => w.put p.1 (List.replicate p.2 0) false) w
      w1.putDesc id l h i (mkDesc (descRung x) (descHeld x) false (descPoison x) n i (descUnit x))) w

/-- The rows of every layer and head of the open step are there. -/
def Dev.stepWhole (d : Dev) (id : Nat) : Bool :=
  d.ses id Ses.LAYER + 1 == d.sesLayers id &&
  (d.ses id Ses.T_OPEN == 0 || (List.range (d.sesKvh id)).all fun h => (List.range (d.ses id Ses.T_OPEN)).all fun t =>
    match d.sesn id with
    | some x => x.written.contains (d.rowKey id (d.sesLayers id - 1) h t) || x.written.isEmpty
    | none => false)

/-- A mirror copy becomes the primary. -/
def Dev.promoteCopy (d : Dev) (id : Nat) : Dev :=
  let whole := d.stepWhole id
  let base := d.ses id Ses.BASE
  let d1 := if whole then d
    else
      let w := (d.layerHeads id).foldl (fun w lh => SesW.truncate w id lh.1 lh.2 base) (d, [])
      (w.1.setSes id Ses.POSITIONS base).setSes id Ses.STEP ((d.ses id Ses.STEP + (2 ^ 32 - 1)) % 2 ^ 32)
  let d2 := d1.writeMem (d.areaBase id + d.offS id) (List.replicate (d.massSize id) 0) false
  let d3 := ((d2.setSes id Ses.LAYER (d.sesLayers id - 1)).setSes id Ses.STATE 1).setSes id Ses.MIRROR_OK 0
  d3.modSess id fun x => { x with frags := [] }

end Sys2Proof.Machine
end

