-- ==== Sys2Proof/Machine/Units.lean ====
section
/-! DEFINITION. Program slots and invocations (R92-R94, R220-R228, R238-R240, R319, R329): LOAD and UNLOAD, assembly,
dispatch, the run limit and the RESULT. -/

namespace Sys2Proof.Machine

/-! ## Program slots (R220-R223) -/

/-- A slot that a LOAD cannot take: VALID or LOADING, or still held by an UNLOAD, which the rule does not name. DESIGN CHOICE
(log entry 40). -/
def Dev.slotBusy (d : Dev) (n : Nat) : Bool :=
  d.flag Bar.CLU_SLOT_VALID n || d.flag Bar.CLU_SLOT_LOADING n || d.flag Bar.CLU_SLOT_UNLOADING n

/-- Units of the store that an image of a length takes. -/
def imageUnits (len : Nat) : Nat := (len + 511) / 512

/-- Units of a cluster's store that slots hold: (first, count). -/
def Dev.storeUsed (d : Dev) (mask : Nat) : List (Nat × Nat) :=
  (List.range 1024).filterMap fun n =>
    if d.slotBusy n && d.get Bar.CLU_SLOT_CLUSTERS n &&& mask != 0 then
      some (d.get Bar.CLU_SLOT_STORE_UNIT n, imageUnits (d.get Bar.CLU_SLOT_LENGTH n))
    else none

/-- The lowest offset at which every cluster of the mask has room (R221). -/
def Dev.storeRoom (d : Dev) (mask n : Nat) : Option Nat :=
  let used := d.storeUsed mask
  (List.range 128).find? fun s => s + n ≤ 128 && used.all fun u => !meets s n u.1 u.2

def Dev.loadDone (d : Dev) (w status : Nat) : Dev :=
  (d.set Bar.CLU_LOAD_RESULT_STATUS status w).set Bar.CLU_LOAD_RESULT_DONE 1 w

/-- Every page of a LOAD's source lies in an object of allotment 0 or of OWNER. -/
def Dev.loadSource (d : Dev) (owner src n : Nat) : Bool :=
  (List.range ((src + (n - 1)) / 65536 + 1 - pageOf src)).all fun i =>
    match d.objOf (pageOf src + i) with
    | some o => d.get Bar.MEM_OBJ_ALLOT o == 0 || d.get Bar.MEM_OBJ_ALLOT o == owner
    | none => false

/-- The lowest cluster of a mask. -/
def lowestBit (mask : Nat) : Nat := ((List.range 16).find? mask.testBit).getD 0

def Dev.loadSlot (d : Dev) (w : Nat) : Dev :=
  let x := d.get Bar.CLU_LOAD_ARG_ARG w 0
  let owner := slice x 63 56
  let mask := if slice x 55 40 = 0 then 1 else slice x 55 40
  let home := if mask.testBit (slice x 39 36) then slice x 39 36 else lowestBit mask
  let len := clampTo 1 65536 (slice x 26 10)
  let n := slice x 9 0
  let src := alignDown (d.get Bar.CLU_LOAD_ARG_ARG w 1 % 2 ^ 56) 8
  let d0 := d.set Bar.CLU_LOAD_RESULT_SLOT n w
  if d.inReset owner then d0.loadDone w Code.resetting
  else if d.disabled owner || d.slotBusy n || !d.loadSource owner src (8 * len) then d0.loadDone w Code.access
  else match d.storeRoom mask (imageUnits len) with
    | none => d0.loadDone w Code.busy
    | some u =>
      let d1 := ((((d0.putWord Bar.CLU_SLOT 0 n).set Bar.CLU_SLOT_LOADING 1 n).set Bar.CLU_SLOT_OWNER owner n).set
        Bar.CLU_SLOT_CLUSTERS mask n).set Bar.CLU_SLOT_HOME_CLUSTER home n
      let d2 := ((d1.set Bar.CLU_SLOT_IN_OFFSET (min 128 (slice x 35 28)) n).set Bar.CLU_SLOT_LENGTH len n).set
        Bar.CLU_SLOT_STORE_UNIT u n
      ({ d2 with store := { d2.store with loads := kvPut d2.store.loads w (n, src) } }).set Bar.CLU_LOAD_RESULT_DONE 0 w

/-- A command starts only while its window is DONE (R220). -/
def Dev.loadCmd (d : Dev) (w : Nat) (f : Dev → Nat → Dev) : Dev :=
  if w < 3 ∧ d.flag Bar.CLU_LOAD_RESULT_DONE w then f d w else d

def execLoad (w : Nat) (s : State) : Out := .next (s.window w fun d => d.loadCmd w Dev.loadSlot)

/-- Store keys of an image in one cluster. -/
def Dev.slotKey (d : Dev) (n c pc : Nat) : Nat := 65536 * c + 512 * d.get Bar.CLU_SLOT_STORE_UNIT n + pc

/-- The record of a VALID slot in measurement 6 (R408). -/
def Dev.slotRecord (d : Dev) (n : Nat) : List Byte :=
  toLe 2 n ++ toLe 1 (d.get Bar.CLU_SLOT_OWNER n) ++ toLe 2 (d.get Bar.CLU_SLOT_CLUSTERS n) ++
    toLe 4 (d.get Bar.CLU_SLOT_LENGTH n) ++ toLe 64 (kvGetD d.store.digests n 0)

/-- The digest of the program-slot table, over all slots or those of an allotment. -/
def Dev.slotsDigest (d : Dev) (a : Option Nat) : Nat :=
  Config.shake256 (((List.range 1024).filter fun n => d.flag Bar.CLU_SLOT_VALID n && (match a with
    | some x => d.get Bar.CLU_SLOT_OWNER n == x
    | none => true)).flatMap d.slotRecord)

/-- Measurement 6 follows the slot table (R408). -/
def Dev.measureSlots (d : Dev) : Dev := d.set Bar.SEC_MEAS_DIGEST (d.slotsDigest none) 5

/-- The image is placed in every cluster and measured; a word read from a poisoned line is marked bad. -/
def Dev.placeImage (d : Dev) (n src : Nat) : Dev :=
  let len := d.get Bar.CLU_SLOT_LENGTH n
  let words := (List.range len).map fun i =>
    (BitVec.ofNat 64 (leNat (d.poolBytes (src + 8 * i) 8)), d.rangePoisoned (src + 8 * i) 8)
  let st := (maskList (d.get Bar.CLU_SLOT_CLUSTERS n)).foldl (fun st c =>
    words.zipIdx.foldl (fun (st : Store) e =>
      let key := d.slotKey n c e.2
      { st with code := kvPut st.code key e.1.1, bad := if e.1.2 then setIns key st.bad else setDel key st.bad }) st) d.store
  { d with store := { st with digests := kvPut st.digests n (Config.shake256 (d.poolBytes src (8 * len))) } }

def Dev.loadComplete (d : Dev) (w : Nat) : Dev :=
  match kvGet? d.store.loads w with
  | none => d
  | some (n, src) =>
    let r := d.readyRead src (8 * d.get Bar.CLU_SLOT_LENGTH n)
    if !r.1 then r.2
    else
      let d1 := ((r.2.placeImage n src).set Bar.CLU_SLOT_LOADING 0 n).set Bar.CLU_SLOT_VALID 1 n
      ({ d1 with store := { d1.store with loads := kvDel d1.store.loads w } }).measureSlots.loadDone w Code.ok

def execLoadComplete (w : Nat) (s : State) : Out := .next (s.live fun d => d.loadComplete w)

/-- The store units of a slot are freed. -/
def Dev.freeSlot (d : Dev) (n : Nat) : Dev :=
  let len := d.get Bar.CLU_SLOT_LENGTH n
  let gone (k : Nat) : Bool := (maskList (d.get Bar.CLU_SLOT_CLUSTERS n)).any fun c =>
    d.slotKey n c 0 ≤ k && decide (k < d.slotKey n c 0 + len)
  (({ d with store := { d.store with
      code := kvFilter d.store.code fun k _ => !gone k, bad := d.store.bad.filter fun k => !gone k
      digests := kvDel d.store.digests n, unloads := kvDel d.store.unloads n } }).putWord Bar.CLU_SLOT 0 n).measureSlots

/-- An UNLOAD completes once no invocation of the slot is left (R222). -/
def Dev.unloadIfIdle (d : Dev) (n : Nat) : Dev :=
  if d.flag Bar.CLU_SLOT_UNLOADING n && d.get Bar.CLU_SLOT_RUNNING n == 0 then
    match kvGet? d.store.unloads n with
    | some w => (d.freeSlot n).loadDone w Code.ok
    | none => d.freeSlot n
  else d

def Dev.unloadSlot (d : Dev) (w : Nat) : Dev :=
  let n := slice (d.get Bar.CLU_LOAD_ARG_ARG w 0) 9 0
  let d0 := d.set Bar.CLU_LOAD_RESULT_SLOT n w
  if !d.flag Bar.CLU_SLOT_VALID n then d0.loadDone w Code.access
  else if d.inReset (d.get Bar.CLU_SLOT_OWNER n) then d0.loadDone w Code.resetting
  else
    let d1 := ((d0.set Bar.CLU_SLOT_VALID 0 n).set Bar.CLU_SLOT_UNLOADING 1 n).set Bar.CLU_LOAD_RESULT_DONE 0 w
    ({ d1 with store := { d1.store with unloads := kvPut d1.store.unloads n w } }).unloadIfIdle n

def execUnload (w : Nat) (s : State) : Out := .next (s.window w fun d => d.loadCmd w Dev.unloadSlot)

/-! ## RESULT frames (R93, R239) -/

/-- The frames of a RESULT: payload in fragments of 4,096 B. -/
def Dev.resultFrames (d : Dev) (i : Inv) (status step : Nat) (bad : Bool) (bs : List Byte) : List Frame :=
  let parts := if bs.isEmpty then [[]] else Num.chunks 4096 bs.length bs
  let fl := (if bad then 1 else 0) + (if i.sess.isSome then 16 else 0)
  parts.zipIdx.map fun e =>
    d.newFrame Ty.result 5 i.allot i.srcEp i.tag status fl (i.slot * 2 ^ 22 + i.part * 2 ^ 16 + i.header)
      (i.layer * 2 ^ 24 + e.2 * 2 ^ 17 + (parts.length - 1) * 2 ^ 10) step e.1

def Dev.sendResult (d : Dev) (port : TPort) (i : Inv) (status step : Nat) (bad : Bool) (bs : List Byte) : Dev :=
  (d.resultFrames i status step bad bs).foldl (fun d f => d.send port f) d

/-! ## Assembly (R92, R224-R226, R319) -/

/-- The fields of an INVOKE. -/
def invSlot (f : Frame) : Nat := f.w5 >>> 22 % 1024
def invIdx (f : Frame) : Nat := f.w6 >>> 17 % 128
def invLast (f : Frame) : Nat := f.w6 >>> 10 % 128

def Dev.invOf (d : Dev) (f : Frame) : Inv :=
  { allot := f.allot, srcEp := f.srcEp, tag := f.tag, slot := invSlot f, part := f.w5 >>> 16 % 64
    sess := if Frame.sess f then some (f.w5 % 65536) else none, layer := f.w6 >>> 24 % 256, last := invLast f
    step := f.w7, mapEpoch := f.mapEpoch, mbrEpoch := f.mbrEpoch, arrived := [], bytes := 0
    deadline := d.now + d.reqBound, replay := false, header := f.w5 % 65536 }

/-- A core may be reserved for an allotment (R225). -/
def Dev.coreFree (d : Dev) (a n : Nat) : Bool :=
  (d.unit n).state == 0 && d.mayUse a (.core (n / 16) (n % 16) 0) &&
  !(d.get Bar.CLU_STATUS_DISABLED (n / 16)).testBit (n % 16) && !(d.get Bar.CLU_STATUS_WEEDING (n / 16)).testBit (n % 16)

/-- The core that the round-robin token of a cluster picks. -/
def Dev.pickCore (d : Dev) (c a : Nat) : Option Nat :=
  ((turned (List.range 16) (kvGetD d.store.token c 0)).find? fun k => d.coreFree a (16 * c + k)).map fun k => 16 * c + k

/-- A core of the cluster that holds an invocation of a sender and tag. -/
def Dev.assembling (d : Dev) (c : Nat) (f : Frame) : Option Nat :=
  ((List.range 16).map (16 * c + ·)).find? fun n => match (d.unit n).inv with
    | some i => i.srcEp == f.srcEp && i.tag == f.tag
    | none => false

/-- Write a fragment into the reserved core's scratchpad (R226). -/
def Dev.putFragment (d : Dev) (n : Nat) (f : Frame) : Dev :=
  match (d.unit n).inv with
  | none => d
  | some i =>
    if (d.unit n).state ≠ 1 ∨ i.arrived.contains (invIdx f) ∨ i.last < invIdx f then d
    else
      let a := 4096 * d.get Bar.CLU_SLOT_IN_OFFSET i.slot + 4096 * invIdx f
      let r := d.arriveAt (spadPlace n a) i.allot f.payload (Frame.poisonBit f)
      if r.1 = f.payload.length then
        r.2.modUnit n fun u => { u with inv := some { i with
          arrived := setIns (invIdx f) i.arrived, bytes := i.bytes + f.payload.length } }
      else r.2

/-- The weeding pass lets go of a core. -/
def Dev.unholdCore (d : Dev) (n : Nat) : Dev :=
  let m := d.get Bar.CLU_STATUS_WEEDING (n / 16)
  ({ d with wdp := { d.wdp with held := d.wdp.held.filter (· != n) } }).set Bar.CLU_STATUS_WEEDING
    (if m.testBit (n % 16) then m - 2 ^ (n % 16) else m) (n / 16)

/-- A fragment was answered BUSY while the pass holds a core of the same owner in the cluster: the core is released
and its test comes later in the pass (R465). -/
def Dev.abandonTest (d : Dev) (c a : Nat) : Dev :=
  match d.wdp.held.find? fun n => n / 16 == c && d.mayUse a (.core c (n % 16) 0) with
  | none => d
  | some n =>
    (({ d with wdp := { d.wdp with left := (d.wdp.left.filter (· != (0, n))) ++ [(0, n)] } }).unholdCore n).bump
      Bar.WDP_STATUS_ABANDONED 1

/-- Reserve a core for the first accepted fragment; NAK BUSY when none qualifies. -/
def Dev.reserveCore (d : Dev) (c : Nat) (f : Frame) : Dev :=
  match d.pickCore c f.allot with
  | none => ((d.bump Bar.CLU_STATUS_BUSY 1 c).nak (.cluster c) f Code.busy).abandonTest c f.allot
  | some n =>
    let d1 : Dev := { d with store := { d.store with token := kvPut d.store.token c ((n % 16 + 1) % 16) } }
    let d2 := (d1.modUnit n fun u => { UnitSt.idle with gen := u.gen, state := 1, inv := some (d.invOf f) }).set
      Bar.CLU_SLOT_RUNNING (d.get Bar.CLU_SLOT_RUNNING (invSlot f) + 1) (invSlot f)
    let d3 := match (d.invOf f).sess with
      | some id => d2.promoteSession id
      | none => d2
    d3.putFragment n f

/-- The session logic answers an INVOKE itself, once per SRC_EP and TAG (R319). -/
def Dev.refuseSession (d : Dev) (id : Nat) (f : Frame) (status step : Nat) : Dev :=
  let live := d.store.noSess.filter fun e => d.now < e.2.2
  if live.any fun e => e.1 == f.srcEp && e.2.1 == f.tag then d
  else
    let d1 : Dev := { d with store := { d.store with noSess := live ++ [(f.srcEp, f.tag, d.now + d.reqBound)] } }
    (d1.bump Bar.SES_STAT_NOSESS 1 (sesDie id)).sendResult (.memSide (sesDie id)) (d.invOf f) status step false []

/-- The program slot is legal: VALID, R223, and the target cluster in CLUSTERS (R224). Fragments of an invocation that was
accepted before its slot's UNLOAD go on (R222). -/
def Dev.slotLegal (d : Dev) (c : Option Nat) (f : Frame) (accepted : Option Nat := none) : Bool :=
  let n := invSlot f
  (d.flag Bar.CLU_SLOT_VALID n || (accepted == some n && d.flag Bar.CLU_SLOT_UNLOADING n)) && (d.get Bar.CLU_SLOT_OWNER n == 0 || d.get Bar.CLU_SLOT_OWNER n == f.allot) &&
  (match c with
    | some x => (d.get Bar.CLU_SLOT_CLUSTERS n).testBit x
    | none => true)

/-- Check 7 of R75, which every fragment passes on its own (R92, R224): its slot, its place, and its length. -/
def Dev.fragmentLegal (d : Dev) (c : Option Nat) (f : Frame) (accepted : Option Nat := none) : Bool :=
  d.slotLegal c f accepted && (invIdx f == invLast f || f.len == 4096) && decide (invIdx f ≤ invLast f)

/-- A fragment after checks 1 to 6 at its target cluster. -/
def Dev.takeInvoke (d : Dev) (c : Nat) (f : Frame) : Dev :=
  let id := f.w5 % 65536
  let st := if Frame.sess f then d.ses id Ses.STATE else 1
  if Frame.sess f && st != 0 && (d.ses id Ses.ALLOT != f.allot || st == 2) then d.nak (.cluster c) f Code.access
  else match d.assembling c f with
    | some n =>
      if d.fragmentLegal (some c) f ((d.unit n).inv.map Inv.slot) then d.putFragment n f else d.nak (.cluster c) f Code.access
    | none =>
      if d.flag Bar.CLU_SLOT_LOADING (invSlot f) then d.nak (.cluster c) f Code.busy
      else if !d.fragmentLegal (if st = 0 then none else some c) f then d.nak (.cluster c) f Code.access
      else if st = 0 ∨ st = 4 then d.refuseSession id f Code.noSession 0xFFFFFFFF
      else if st = 3 then d.refuseSession id f Code.sessionLost (d.ses id Ses.STEP)
      else d.reserveCore c f

def execInvoke (f : Frame) (s : State) : Out :=
  .next (s.live fun d =>
    if f.type = Ty.invoke then
      match d.recv (.cluster (d.invokeCluster f)) f with
      | (some g, d1) => d1.takeInvoke (d.invokeCluster f) g
      | (none, d1) => d1
    else d)

/-! ## The end of an invocation (R227 step 6, R239) -/

/-- The core returns its credit: layers, copies and the expander's stream are let go, the slot counts one less. -/
def Dev.freeCore (d : Dev) (n : Nat) (i : Inv) : Dev :=
  let u := d.unit n
  let d1 := u.wins.foldl (fun d wl => d.releaseLayer wl.1 wl.2) d
  let d2 := (d1.setUnit n { UnitSt.idle with gen := u.gen }).drop Bar.CLU_SLOT_RUNNING 1 i.slot
  let d3 : Dev := { d2 with
    copies := d2.copies.filter fun e => !(e.2.core == n && e.2.gen == u.gen)
    eng := { d2.eng with streams := kvDel d2.eng.streams n } }
  (d3.unloadIfIdle i.slot).pump

/-- Send a RESULT with a status and an empty payload, and free the core. -/
def Dev.resultOnly (d : Dev) (n : Nat) (i : Inv) (status step : Nat) : Dev :=
  (d.sendResult (.cluster (n / 16)) i status step false []).freeCore n i

def Dev.assemblyTimeout (d : Dev) (n : Nat) : Dev :=
  match (d.unit n).inv with
  | none => d
  | some i =>
    if (d.unit n).state = 1 ∧ ¬ i.whole ∧ i.deadline ≤ d.now then
      d.resultOnly n i Code.timeout (match i.sess with
        | some id => d.ses id Ses.STEP
        | none => i.step)
    else d

def execInvokeAssemblyTimeout (core : Nat) (s : State) : Out :=
  .next (s.live fun d => if core < 256 then d.assemblyTimeout core else d)

/-! ## Dispatch (R227, R231, R329) -/

/-- A session's next invocation waits: queued records, an ATTACH, a publish of its prefix region (R215, R339, R452). -/
def Dev.dispatchWaits (d : Dev) (id : Nat) : Bool :=
  (match d.sesn id with
    | some x => !x.prunes.isEmpty || x.frozen
    | none => false) ||
  d.ver.pubs.any fun e => d.prefixSession e.1 == some id

/-- The partition of an INVOKE: 0 when the session's plan has one partition (R329). -/
def Dev.partOf (d : Dev) (id : Nat) (i : Inv) : Nat :=
  if (d.ses id Ses.NPART_H + 1) * (d.ses id Ses.NPART_P + 1) = 1 then 0 else i.part

/-- SCTX of an invocation. -/
def Dev.sctxOf (d : Dev) (n gen : Nat) (i : Inv) : List Nat :=
  let limit := 1000 * d.get Bar.CLU_INV_CFG_RUN_LIMIT_US
  [ i.slot * 2 ^ 54 + (if i.sess.isSome then i.part * 2 ^ 48 else 0) + i.sess.getD 0 * 2 ^ 32 + i.layer * 2 ^ 24 +
      i.allot * 2 ^ 16 + i.srcEp,
    i.step * 2 ^ 32 + i.tag * 2 ^ 16 + n / 16 * 2 ^ 12 + n % 16 * 2 ^ 8 + gen * 2 ^ 4 + (if i.sess.isSome then 2 else 0),
    i.mapEpoch * 2 ^ 32 + i.mbrEpoch,
    i.bytes * 2 ^ 32 + 4096 * d.get Bar.CLU_SLOT_IN_OFFSET i.slot,
    d.now, d.now + limit, 0, 0 ]

/-- The core starts the program. -/
def Dev.startCore (d : Dev) (n : Nat) (i : Inv) (replay : Bool) : Dev :=
  let gen := ((d.unit n).gen + 1) % 16
  (d.setUnit n { UnitSt.idle with
    state := 2, gen := gen, inv := some { i with replay := replay }, sctx := d.sctxOf n gen i
    limit := d.now + 1000 * d.get Bar.CLU_INV_CFG_RUN_LIMIT_US }).bump Bar.CLU_STATUS_DISPATCHED 1 (n / 16)

def Dev.dispatchCore (d : Dev) (n : Nat) : Dev :=
  match (d.unit n).inv with
  | none => d
  | some i =>
    if (d.unit n).state ≠ 1 ∨ ¬ i.whole ∨ (d.unit n).final.isSome then d
    else match i.sess with
      | none => d.startCore n i false
      | some id =>
        let st := d.ses id Ses.STATE
        if d.dispatchWaits id then d
        else if st = 0 then (d.bump Bar.SES_STAT_NOSESS 1 (sesDie id)).resultOnly n i Code.noSession 0xFFFFFFFF
        else if st = 3 then (d.bump Bar.SES_STAT_NOSESS 1 (sesDie id)).resultOnly n i Code.sessionLost (d.ses id Ses.STEP)
        else match d.acceptStep id i.step i.layer (d.partOf id i) with
          | some (d1, replay) => d1.startCore n i replay
          | none => (d.bump Bar.SES_STAT_NOSESS 1 (sesDie id)).resultOnly n i Code.noSession (d.ses id Ses.STEP)

def execDispatch (core : Nat) (s : State) : Out :=
  .next (s.live fun d => if core < 256 then d.dispatchCore core else d)

/-! ## Draining and the RESULT -/

/-- Descriptors of an invocation at the engines of a cluster. -/
def hasDesc (k gen : Nat) (q : Kv (List Desc)) : Bool := q.any fun e => e.2.any fun x => x.core == k && x.gen == gen

/-- Something that an invocation issued is outstanding (R227 step 5). -/
def Dev.outstanding (d : Dev) (k : Nat) : Bool :=
  let gen := (d.unit k).gen
  let mine (w : Caller) : Bool := w.src == 16 + k && w.gen == gen
  d.reqs.any (fun e => d.reqOwner e.2.cont == some (k, gen)) ||
  d.mbr.pushes.any (fun e => d.reqOwner e.2.2 == some (k, gen)) ||
  d.copies.any (fun e => e.2.core == k && e.2.gen == gen && !d.copyIdle e.1 e.2) ||
  d.nmus.cmds.any (fun e => e.2.src == 16 + k && e.2.gen == gen) ||
  hasDesc k gen d.eng.rake || hasDesc k gen d.eng.sieve || hasDesc k gen d.eng.parts ||
  d.ver.pubs.any (fun e => mine e.2.1) || d.ver.waiting.any fun e => mine e.who

/-- The payload of a RESULT: the area that END names, as its banks hold it now (R151), or the fault record (R238, R239). -/
def Dev.resultPayload (d : Dev) (n : Nat) : List Byte × Bool × Dev :=
  let u := d.unit n
  match u.final with
  | none => d.fetchSpad (spadPlace n u.res.1) u.res.2 (d.unitAllot n)
  | some st => (if st = Code.programFault then toLe 16 u.flt else [], false, d)

/-- The status of an invocation: the first of R239 that applies. -/
def resultStatus (u : UnitSt) (bad : Bool) : Nat :=
  if u.final = some Code.fenced then Code.fenced
  else if u.final = some Code.resetting then Code.resetting
  else match u.sesStatus with
    | some st => st
    | none => match u.final with
      | some st => st
      | none =>
        if slice u.pstat 63 56 ≠ 0 then slice u.pstat 63 56
        else if bad then Code.poison else Code.ok

def Dev.resultSend (d : Dev) (n : Nat) : Dev :=
  let u := d.unit n
  match u.inv with
  | none => d
  | some i =>
    if u.state ≠ 3 ∨ (u.final.isNone ∧ (d.outstanding n ∨ d.spadTested n u.res.1 u.res.2)) then d
    else
      let p := d.resultPayload n
      let step := match i.sess with
        | some id => d.ses id Ses.STEP
        | none => i.step
      let d1 := p.2.2.sendResult (.cluster (n / 16)) i (resultStatus u p.2.1) step p.2.1 p.1
      let d2 := if u.sesStatus.isSome then d1.bump Bar.SES_STAT_NOSESS 1 (sesDie (i.sess.getD 0)) else d1
      d2.freeCore n i

def execResultSend (core : Nat) (s : State) : Out :=
  .next (s.live fun d => if core < 256 then d.resultSend core else d)

def Dev.limitExpires (d : Dev) (n : Nat) : Dev :=
  let u := d.unit n
  if (u.state = 2 ∨ u.state = 3) ∧ u.final.isNone ∧ u.limit ≤ d.now then d.endInv n Code.timeout else d

def execRunLimitExpiry (core : Nat) (s : State) : Out :=
  .next (s.live fun d => if core < 256 then d.limitExpires core else d)

/-- Every invocation that a test accepts stops at once with a status (R240). -/
def Dev.stopInvs (d : Dev) (status : Nat) (p : Inv → Bool) : Dev :=
  (List.range 256).foldl (fun d n =>
    match kvGet? d.units n with
    | some u => match u.inv with
      | some i => if u.state ≠ 0 ∧ u.final.isNone ∧ p i then d.endInv n status else d
      | none => d
    | none => d) d

end Sys2Proof.Machine
end

