-- ==== Sys2Proof/Machine/Rake.lean ====
section
/-! DEFINITION. What the three cluster engines share (R359-R361), expansion views (R355), and the Rake (R362-R365). -/

namespace Sys2Proof.Machine

/-! ## Expansion views (R355) -/

/-- Pages of the view of an entry. -/
def viewPages (nblocks : Nat) : Nat := (8192 * nblocks + 65535) / 65536

/-- A view may be enabled: wholly in valid spans of ALLOT, apart from every object and every other view. -/
def Dev.egrOk (d : Dev) (i : Nat) : Bool :=
  let al := d.get Bar.EXP_EGR_ALLOT i
  let b := d.get Bar.EXP_EGR_VIEW_PAGE i
  let n := viewPages (d.get Bar.EXP_EGR_NBLOCKS i)
  ((List.range n).all fun k => match d.spanOf (65536 * (b + k)) with
    | some x => d.get Bar.MEM_SPAN_ALLOT x == al
    | none => false) &&
  (d.pool.objs.all fun o => !meets b n (d.get Bar.MEM_OBJ_BASE_PAGE o) (d.get Bar.MEM_OBJ_PAGES o)) &&
  ((List.range 64).all fun j => j == i || !d.flag Bar.EXP_EGR_VALID j ||
    !meets b n (d.get Bar.EXP_EGR_VIEW_PAGE j) (viewPages (d.get Bar.EXP_EGR_NBLOCKS j)))

/-- The bits of a register's named writable fields. -/
def fieldMask (fs : List Fld) : Nat := fs.foldl (fun m f => m ||| ((2 ^ (f.hi + 1 - f.lo) - 1) <<< f.lo)) 0

/-- The fields of EXP_EGR beside VALID, stored whole. -/
def egrMask : Nat := fieldMask
  [Bar.EXP_EGR_ALLOT, Bar.EXP_EGR_NBLOCKS, Bar.EXP_EGR_VIEW_PAGE, Bar.EXP_EGR_INDEX_BASE, Bar.EXP_EGR_CODED_BYTES,
    Bar.EXP_EGR_CODED_BASE]

/-- Blocks that an egress expander keeps of a view are forgotten. -/
def Dev.dropViewCache (d : Dev) (i : Nat) : Dev :=
  { d with eng := { d.eng with egrCache := d.eng.egrCache.filter fun k => k / 2 ^ 16 % 2 ^ 16 != i } }

def Dev.egrWrite (d : Dev) (i v : Nat) : Dev :=
  if d.flag Bar.EXP_EGR_VALID i then
    if v.testBit 255 then d else (d.set Bar.EXP_EGR_VALID 0 i).dropViewCache i
  else
    let d1 := d.putWord Bar.EXP_EGR (v &&& egrMask) i
    let d2 := if d1.get Bar.EXP_EGR_NBLOCKS i = 0 then d1.set Bar.EXP_EGR_NBLOCKS 1 i else d1
    if !v.testBit 255 then d2
    else if d2.egrOk i then d2.set Bar.EXP_EGR_VALID 1 i
    else d2.bump Bar.EXP_EGR_STAT_REFUSED 1

def execExpEgrWrite (i v : Nat) (s : State) : Out := .next (s.host fun d => if i < 64 then d.egrWrite i v else d)

/-! ## Descriptors (R359, R360) -/

/-- The 32-bit words of a descriptor, little-endian (R247). -/
def leWords (bs : List Byte) : List Nat := (List.range (bs.length / 4)).map fun i => leNat ((bs.drop (4 * i)).take 4)

def Desc.word (x : Desc) (n hi lo : Nat) : Nat := slice (x.words.getD n 0) hi lo

/-- Hand the n-byte descriptor at s[SA] to an engine: the SQ waits while its queue is full. A fault's status carries the
engine's number above bit 8. -/
def Dev.takeDesc (d : Dev) (k : Nat) (ctr : BitVec 4) (sa : BitVec 5) (n engine : Nat) (extra : List Nat) (full : Bool)
    (put : Dev → Desc → Dev) : Act :=
  let a := alignDown (spadAddr (d.rs k sa)) 32
  if !d.spadOk k a n then .fault d Cause.spadAccess (2 ^ 8 * engine) a
  else d.withSpad k a n fun _ =>
    if full then .wait d
    else
      let r := d.loadSpad k a n
      let u := d.unit k
      .go (put r.2.2 {
        core := k, gen := u.gen, ctr := ctr.toNat, pc := u.pc, allot := d.unitAllot k, words := leWords r.1 ++ extra
        row := 0, got := [], phase := 0, status := 0 })

/-- An engine's fatal fault in the descriptor of an invocation (R360). -/
def Dev.descFault (d : Dev) (x : Desc) (cause engine addr : Nat) : Dev := d.fatal x.core cause 0 engine x.pc addr

/-- An engine reads scratchpad for a program, waking banks in cold frame. -/
def Dev.engineRead (d : Dev) (k a n : Nat) : List Byte × Bool × Dev :=
  (((banksOf (spadPlace k a) n).foldl Dev.wakeNow d)).loadSpad k a n

/-! ## The Rake's descriptor (R362) -/

namespace Rake
def op (x : Desc) : Nat := min 1 (x.word 0 31 28)
def gather (x : Desc) : Bool := op x == 0
/-- A scatter with CONV 1 is performed as CONV 0. -/
def conv (x : Desc) : Nat :=
  let c := min 4 (x.word 0 27 24)
  if op x = 1 ∧ c = 1 then 0 else c
/-- Pool bytes of the smallest whole number of elements, and scratchpad bytes for each pool byte. -/
def unitBytes (x : Desc) : Nat := if conv x = 1 ∨ conv x = 2 then 2 else 1
def ratio (x : Desc) : Nat := [1, 2, 2, 4, 8].getD (conv x) 1
def row (x : Desc) : Nat := max (unitBytes x) (clampTo 1 4096 (x.word 0 12 0) / unitBytes x * unitBytes x)
def srow (x : Desc) : Nat := ratio x * row x
def count (x : Desc) : Nat := clampTo 1 1048576 (x.word 1 20 0)
def base (x : Desc) : Nat := x.word 2 31 0 + 2 ^ 32 * x.word 3 23 0
def idxKind (x : Desc) : Nat := min 2 (x.word 0 21 20)
def idxSize (x : Desc) : Nat := if idxKind x = 1 then 4 else 2
/-- Where element i of the index list lies. -/
def idxAt (x : Desc) (i : Nat) : Nat := alignDown (x.word 6 24 0) (idxSize x) + idxSize x * i
def poolAt (x : Desc) (idx : Nat) : Nat := (base x + idx * x.word 4 31 0) % 2 ^ 56
def spadAt (x : Desc) (i : Nat) : Nat := x.word 5 24 0 + i * srow x

/-- A gathered row in the scratchpad type (R284). -/
def widen (c : Nat) (bs : List Byte) : List Byte :=
  let halves := (List.range (bs.length / 2)).map fun i => leNat ((bs.drop (2 * i)).take 2)
  if c = 0 then bs
  else if c = 1 then bytesOf (halves.map Num.ofBf16)
  else if c = 2 then bytesOf (halves.map Num.ofFp16)
  else if c = 3 then bytesOf (bs.map fun b => Num.ofIntB 8 b.toNat)
  else bytesOf (bs.flatMap fun b => [Num.ofIntB 4 (b.toNat % 16), Num.ofIntB 4 (b.toNat / 16)])

/-- A scattered row in the pool type, with its counts (R284-R286). -/
def narrow (c : Nat) (bs : List Byte) : List Byte × Num.QCount :=
  if c = 0 then (bs, ⟨0, 0, 0⟩)
  else if c = 2 then ((wordsOf bs).flatMap fun w => toLe 2 (Num.toFp16 w), ⟨0, 0, 0⟩)
  else
    let b := if c = 3 then 8 else 4
    let es := (wordsOf bs).map (Num.toIntB b)
    (Num.packCodes b (es.map Prod.fst), es.foldl (fun q e => q.add e.2) ⟨0, 0, 0⟩)
end Rake

/-! ## Rows (R363, R364) -/

def Dev.rakes (d : Dev) (c : Nat) : List Desc := kvGetD d.eng.rake c []
def Dev.setRakes (d : Dev) (c : Nat) (l : List Desc) : Dev := { d with eng := { d.eng with rake := kvPut d.eng.rake c l } }
def Dev.setRake (d : Dev) (c : Nat) (x : Desc) : Dev := d.setRakes c (x :: (d.rakes c).drop 1)

def Dev.iRake (d : Dev) (k : Nat) (ctr : BitVec 4) (sa : BitVec 5) : Act :=
  d.takeDesc k ctr sa 32 5 [] (32 ≤ (d.rakes (k / 16)).length) fun d x =>
    d.setRakes (k / 16) (d.rakes (k / 16) ++ [x])

/-- Rows of a descriptor of cluster c with parts outstanding. -/
def Dev.rakeOut (d : Dev) (c : Nat) (x : Desc) : List Nat :=
  d.reqs.filterMap fun e => match e.2.cont with
    | .rake c' core gen r _ _ => if c' = c ∧ core = x.core ∧ gen = x.gen then some r else none
    | _ => none

/-- Rows of the head descriptor that have started and not completed. -/
def Dev.rakeFlight (d : Dev) (c : Nat) (x : Desc) : Nat :=
  (d.rakeOut c x ++ x.got.map fun e => e.1).eraseDups.length

/-- Remove a finished descriptor from its queue. -/
def Dev.rakeNext (d : Dev) (c : Nat) : Dev :=
  match d.rakes c with
  | x :: xs => if Rake.count x ≤ x.row ∧ d.rakeFlight c x = 0 then d.setRakes c xs else d
  | [] => d

/-- A row is complete: it lands, and the counter advances. -/
def Dev.rakeRowDone (d : Dev) (c : Nat) (x : Desc) (i : Nat) (bs : List Byte) (bad : Bool) : Dev :=
  let d1 := (d.bump Bar.RKS_CLU_RAKE_ROWS 1 c).bump Bar.RKS_CLU_RAKE_ERR (if bad then 1 else 0) c
  if Rake.gather x then
    let r := d1.arriveAt (spadPlace x.core (Rake.spadAt x i)) x.allot (Rake.widen (Rake.conv x) bs) bad
    r.2.arrive x.core x.gen x.ctr r.1
  else d1.arrive x.core x.gen x.ctr (Rake.row x)

/-- A part of a row of the head descriptor ends: bytes read, or a write that is over; `status` is not OK for an error
(R364). -/
def Dev.rakeGot (d : Dev) (c core gen i off : Nat) (bs : List Byte) (status addr : Nat) : Dev :=
  match d.rakes c with
  | [] => d
  | x :: _ =>
    if x.core ≠ core ∨ x.gen ≠ gen then d
    else
      let bad := status != Code.ok
      let d1 := if bad then d.fabricErr core gen 5 x.pc status addr else d
      let got := x.got ++ [(i, off, bs, bad)]
      let mine := got.filter fun e => e.1 == i
      if (mine.map fun e => e.2.2.1.length).sum < Rake.row x then d1.setRake c { x with got := got }
      else
        let first := mine.filter fun e => e.2.1 == 0
        let rest := mine.filter fun e => e.2.1 != 0
        let row := (first ++ rest).flatMap fun e => e.2.2.1
        ((d1.setRake c { x with got := got.filter fun e => e.1 != i }).rakeRowDone c x i row
          (mine.any fun e => e.2.2.2)).rakeNext c

/-- A part of a row at this package's home. -/
def Dev.rakeHere (d : Dev) (c : Nat) (x : Desc) (i off a n : Nat) (bs : List Byte) (bad : Bool) : Dev :=
  if Rake.gather x then
    if !d.mayReadHere x.allot a n then d.rakeGot c x.core x.gen i off (errBytes n) Code.access a
    else
      let d1 := d.touch (pageOf a)
      if d1.rangePoisoned a n then d1.rakeGot c x.core x.gen i off (errBytes n) Code.poison a
      else d1.rakeGot c x.core x.gen i off (d1.poolBytes a n) Code.ok a
  else if !d.mayWriteHere x.allot a n then d.rakeGot c x.core x.gen i off bs Code.access a
  else
    let w := d.readyWrite a n
    if w.1 = 2 then w.2.rakeGot c x.core x.gen i off bs Code.busy a
    else
    let r := (w.2.touch (pageOf a)).writePool a bs bad
    r.2.rakeGot c x.core x.gen i off bs (if r.1 then Code.poison else Code.ok) a

/-- A part of a row at another home: a READ or a WRITE in TC4. -/
def Dev.rakeVia (d : Dev) (c : Nat) (x : Desc) (i off a n ep : Nat) (bs : List Byte) (bad : Bool) : Option Dev :=
  d.issueUnit x.core x.gen
    (if Rake.gather x then d.newFrame Ty.read 4 x.allot ep 0 0 0 (addrHi a) (addrLo a) n []
     else d.newFrame Ty.write 4 x.allot ep 0 0 (if bad then 1 else 0) (addrHi a) (addrLo a) 0 bs)
    (.rake c x.core x.gen i off n)

/-- Start the parts of a row; none when a request cannot be issued. -/
def Dev.rakeParts (d : Dev) (c : Nat) (x : Desc) (i a : Nat) (row : List Byte) (bad : Bool) :
    List (Nat × Nat) → Option Dev
  | [] => some d
  | (off, n) :: ps =>
    let bs := (row.drop off).take n
    match d.homed (a + off) with
    | .here => (d.rakeHere c x i off (a + off) n bs bad).rakeParts c x i a row bad ps
    | .nowhere => (d.rakeGot c x.core x.gen i off (errBytes n) Code.timeout (a + off)).rakeParts c x i a row bad ps
    | .via ep _ =>
      match d.rakeVia c x i off (a + off) n ep bs bad with
      | some d1 => d1.rakeParts c x i a row bad ps
      | none => none

/-- Home lines of a row are ready for its access. -/
def Dev.rakeReady (d : Dev) (x : Desc) (a : Nat) : List (Nat × Nat) → Bool × Dev
  | [] => (true, d)
  | (off, n) :: ps =>
    if d.homed (a + off) == .here then
      let r := if Rake.gather x then d.readyRead (a + off) n
        else (let w := d.askWrite (a + off) n
          (w.1 != 1, w.2))
      if r.1 then r.2.rakeReady x a ps else (false, (r.2.rakeReady x a ps).2)
    else d.rakeReady x a ps

/-- What starting the next row of the head descriptor comes to. -/
inductive RowStart where
  | started (d : Dev)
  | waits (d : Dev)
  | stopped (d : Dev)

/-- Scratchpad that row i reads is under test (R158, R162). -/
def Dev.rakeTested (d : Dev) (x : Desc) (i : Nat) : Bool :=
  (Rake.idxKind x != 0 && d.spadTested x.core (Rake.idxAt x i) (Rake.idxSize x)) ||
    (!Rake.gather x && d.spadTested x.core (Rake.spadAt x i) (Rake.srow x))

/-- Start row `x.row` of the head descriptor. A row with a part of this package starts only when `evenHere`. -/
def Dev.rakeStart (d : Dev) (c : Nat) (x : Desc) (evenHere : Bool) : RowStart :=
  let i := x.row
  let ia := Rake.idxAt x i
  if Rake.count x ≤ i ∨ 512 ≤ d.rakeFlight c x ∨ d.rakeTested x i then .waits d
  else if Rake.idxKind x ≠ 0 ∧ !d.spadOk x.core ia (Rake.idxSize x) then .stopped (d.descFault x Cause.spadAccess 5 ia)
  else if !d.spadOk x.core (Rake.spadAt x i) (Rake.srow x) then
    .stopped (d.descFault x Cause.spadAccess 5 (Rake.spadAt x i))
  else
    let r := if Rake.idxKind x = 0 then ([], false, d) else d.engineRead x.core ia (Rake.idxSize x)
    let a := Rake.poolAt x (if Rake.idxKind x = 0 then i else leNat r.1)
    let d1 := r.2.2
    let parts := splitParts [a] 4 0 (Rake.row x)
    if !d1.poolOk x.allot a (Rake.row x) then .stopped (d1.descFault x Cause.poolAccess 5 a)
    else if !evenHere && parts.any fun e => d1.homed (a + e.1) == .here then .waits d
    else
      let y := d1.rakeReady x a parts
      if !y.1 then .waits y.2
      else
        let s := if Rake.gather x then ([], false, y.2) else y.2.engineRead x.core (Rake.spadAt x i) (Rake.srow x)
        let q := Rake.narrow (Rake.conv x) s.1
        let d2 := (s.2.2.setRake c { x with row := i + 1 }).countQuant x.core q.2
        match d2.rakeParts c { x with row := i + 1 } i a q.1 s.2.1 parts with
        | some d3 => .started d3
        | none => .waits d

/-- Rows that need no memory of this package start as tags allow. -/
def Dev.rakeAhead (d : Dev) (c : Nat) : Nat → Dev
  | 0 => d
  | fuel + 1 =>
    match d.rakes c with
    | [] => d
    | x :: _ => match d.rakeStart c x false with
      | .started d1 => d1.rakeAhead c fuel
      | .waits d1 => d1
      | .stopped d1 => d1.rakeAhead c fuel

/-- The next row of a cluster's Rake (R363): one row, with the rows of other homes that follow it. -/
def Dev.rakeStep (d : Dev) (c : Nat) : Dev :=
  match d.rakes c with
  | [] => d
  | x :: _ => match d.rakeStart c x true with
    | .started d1 => d1.rakeAhead c 512
    | .waits d1 => d1
    | .stopped d1 => d1

def Dev.pumpRakes (d : Dev) : Dev := (kvKeys d.eng.rake).foldl (fun d c => d.rakeAhead c 512) d

def execRakeRowComplete (c : Nat) (s : State) : Out := .next (s.live fun d => if c < 16 then d.rakeStep c else d)

end Sys2Proof.Machine
end

