-- ==== Sys2Proof/Machine/Sieve.lean ====
section
/-! DEFINITION. The Sieve (R366-R371). -/

namespace Sys2Proof.Machine

namespace Sieve
def out (x : Desc) : Nat :=
  let o := min 2 (x.word 0 31 30)
  if o = 2 ∧ x.word 0 29 28 = 0 then 1 else o
def score (x : Desc) : Nat := x.word 0 29 28
def vtype (x : Desc) : Nat := min 2 (x.word 0 27 26)
def inPool (x : Desc) : Bool := x.word 0 25 25 == 1
def anyTerm (x : Desc) : Bool := x.word 0 24 24 == 1
def nterms (x : Desc) : Nat := min 4 (x.word 0 23 21)
def record (x : Desc) : Nat := clampTo 16 4096 (x.word 1 12 0 / 16 * 16)
def count (x : Desc) : Nat := max 1 (x.word 2 31 0)
def src (x : Desc) : Nat := if inPool x then x.word 3 31 0 + 2 ^ 32 * x.word 4 23 0 else x.word 3 24 0
def query (x : Desc) : Nat := x.word 5 24 0
def outa (x : Desc) : Nat := alignDown (x.word 6 24 0) 16
def limit (x : Desc) : Nat := clampTo 1 (if out x = 2 then 1024 else 131072) (x.word 7 17 0)
/-- Bytes of a vector element; the score field has 4. -/
def elemSize (x : Desc) : Nat := if score x = 3 then 4 else [4, 2, 1].getD (vtype x) 4
/-- VOFF, clamped so that an element fits the record. -/
def voff (x : Desc) : Nat := min (x.word 1 31 16) (record x - elemSize x)
def dim (x : Desc) : Nat := min (clampTo 1 4096 (x.word 0 12 0)) ((record x - voff x) / elemSize x)
def entrySize (x : Desc) : Nat := [0, 4, 8].getD (out x) 0

/-! Terms (R366). -/

def term (x : Desc) (t n hi lo : Nat) : Nat := x.word (8 + 4 * t + n) hi lo
def fsize (x : Desc) (t : Nat) : Nat := [1, 1, 4, 4, 8, 8, 4].getD (min 6 (term x t 0 27 24)) 4
def foff (x : Desc) (t : Nat) : Nat := min (term x t 0 11 0) (record x - fsize x t)
def const (x : Desc) (t : Nat) : Nat := term x t 1 31 0 + 2 ^ 32 * term x t 2 31 0

/-- A comparison of numbers; 6 and 7 act on the patterns. -/
def compare (cop : Nat) (o : Option Ordering) (pattern const : Nat) : Bool :=
  if cop = 0 then o == some .eq
  else if cop = 1 then o != some .eq
  else if cop = 2 then o == some .lt
  else if cop = 3 then o == some .lt || o == some .eq
  else if cop = 4 then o == some .gt
  else if cop = 5 then o == some .gt || o == some .eq
  else if cop = 6 then pattern &&& const != 0
  else pattern &&& const == 0

/-- A two's-complement pattern of b bits as 64 bits. -/
def extend (b n : Nat) : BitVec 64 := (BitVec.ofNat b n).signExtend 64

/-- Term t of a record. -/
def holds (x : Desc) (rc : List Byte) (t : Nat) : Bool :=
  let ft := min 6 (term x t 0 27 24)
  let cop := min 7 (term x t 0 31 28)
  let raw := leNat ((rc.drop (foff x t)).take (fsize x t))
  let c := const x t
  let nib := if term x t 0 22 22 = 1 then raw / 16 else raw % 16
  let r :=
    if ft = 6 then compare cop (Num.cmpFp (Num.ofW (BitVec.ofNat 32 raw)) (Num.ofW (BitVec.ofNat 32 c))) raw (c % 2 ^ 32)
    else if ft = 3 ∨ ft = 5 then compare cop (some (Ord.compare raw c)) raw c
    else
      let v := extend (if ft = 0 then 4 else 8 * fsize x t) (if ft = 0 then nib else raw)
      compare cop (some (Ord.compare v.toInt (BitVec.ofNat 64 c).toInt)) v.toNat c
  if term x t 0 23 23 = 1 then !r else r

/-- A record passes (R366). -/
def passes (x : Desc) (rc : List Byte) : Bool :=
  let ts := List.range (nterms x)
  if ts.isEmpty then true else if anyTerm x then ts.any (holds x rc) else ts.all (holds x rc)

/-! Scores (R367, R368). -/

/-- Vector element i widened exactly. -/
def elem (x : Desc) (rc : List Byte) (i : Nat) : W32 :=
  let n := leNat ((rc.drop (voff x + elemSize x * i)).take (elemSize x))
  if vtype x = 0 then BitVec.ofNat 32 n else if vtype x = 1 then Num.ofBf16 n else Num.ofIntB 8 n

def scoreOf (x : Desc) (query : List W32) (rc : List Byte) : W32 :=
  let vs := (List.range (dim x)).map (elem x rc)
  if score x = 1 then (query.zip vs).foldl (fun s p => Num.ffma p.1 p.2 s) 0
  else if score x = 2 then
    Num.toW (Num.negFp (Num.ofW ((query.zip vs).foldl (fun s p => let e := Num.fsub p.1 p.2; Num.ffma e e s) 0)))
  else BitVec.ofNat 32 (leNat ((rc.drop (voff x)).take 4))

/-- Score a ranks strictly below score b: a NaN below every number. -/
def below (a b : W32) : Bool :=
  match Num.ofW a, Num.ofW b with
  | .nan, .nan => false
  | .nan, _ => true
  | _, .nan => false
  | p, q => Num.cmpFp p q == some .lt

/-- Put a later record behind every entry that it does not outrank. -/
def rank (e : Nat × W32) : List (Nat × W32) → List (Nat × W32)
  | [] => [e]
  | f :: fs => if below f.2 e.2 then e :: f :: fs else f :: rank e fs

/-- The k best of scored records in ascending order of index. -/
def best (k : Nat) (es : List (Nat × W32)) : List (Nat × W32) := es.foldl (fun l e => (rank e l).take k) []
end Sieve

def Dev.sieves (d : Dev) (c : Nat) : List Desc := kvGetD d.eng.sieve c []
def Dev.setSieves (d : Dev) (c : Nat) (l : List Desc) : Dev :=
  { d with eng := { d.eng with sieve := kvPut d.eng.sieve c l } }

def Dev.iSieve (d : Dev) (k : Nat) (ctr : BitVec 4) (sa : BitVec 5) : Act :=
  d.takeDesc k ctr sa 96 6 [] (32 ≤ (d.sieves (k / 16)).length) fun d x =>
    d.setSieves (k / 16) (d.sieves (k / 16) ++ [x])

/-- Every record lies in spans that this package homes (R370). -/
def Dev.spansHost (d : Dev) (a n : Nat) : Bool :=
  (List.range ((a + (n - 1)) / 2 ^ 40 + 1 - a / 2 ^ 40)).all fun i => (d.spanOf (2 ^ 40 * (a / 2 ^ 40 + i))).isSome

/-- The records: bytes and poison of each. Pool memory is read as it stands, without snooping. -/
def Dev.sieveRecords (d : Dev) (x : Desc) : List (List Byte × Bool) :=
  (List.range (Sieve.count x)).map fun i =>
    let a := Sieve.src x + i * Sieve.record x
    let n := Sieve.record x
    if Sieve.inPool x then (d.poolBytes a n, d.rangePoisoned a n)
    else (d.spadBytes (spadPlace x.core a) n, d.spadPoisoned (spadPlace x.core a) n)

/-- The output of a scan: passing records, entries written, their bytes. -/
def sieveOutput (x : Desc) (query : List W32) (rs : List (List Byte × Bool)) : Nat × Nat × List Byte :=
  let hits := (rs.zipIdx.filter fun e => !e.1.2 && Sieve.passes x e.1.1).map fun e => (e.2, e.1.1)
  if Sieve.out x = 0 then (hits.length, 0, [])
  else if Sieve.out x = 1 then
    let es := hits.take (Sieve.limit x)
    (hits.length, es.length, es.flatMap fun e => toLe 4 e.1)
  else
    let es := Sieve.best (Sieve.limit x) (hits.map fun e => (e.1, Sieve.scoreOf x query e.2))
    (hits.length, es.length, es.flatMap fun e => toLe 4 e.1 ++ toLe 4 e.2.toNat)

/-- The completion record and the entries (R369). -/
def sieveRecord (status passed written : Nat) (es : List Byte) : List Byte :=
  toLe 4 status ++ toLe 4 (min passed (2 ^ 32 - 1)) ++ toLe 4 written ++ toLe 4 0 ++ es

/-- A descriptor ends with its record: the counter advances once. -/
def Dev.sieveEnd (d : Dev) (c : Nat) (x : Desc) (status passed written : Nat) (es : List Byte) : Dev :=
  let n := 16 + es.length
  if !d.spadOk x.core (Sieve.outa x) n then d.descFault x Cause.spadAccess 6 (Sieve.outa x)
  else
    ((d.landAt x.core (Sieve.outa x) (sieveRecord status passed written es) false).arrive x.core x.gen x.ctr
      (16 + written * Sieve.entrySize x)).setSieves c ((d.sieves c).drop 1)

/-- A scan waits: for a row or a region under test, or for a channel that a burst holds (R158, R162, R175). -/
def Dev.sieveWaits (d : Dev) (x : Desc) : Bool :=
  let len := Sieve.count x * Sieve.record x
  ((Sieve.score x == 1 || Sieve.score x == 2) && d.spadTested x.core (Sieve.query x) (4 * Sieve.dim x)) ||
    (if Sieve.inPool x then (linesOf (Sieve.src x) len).any d.chanBusy else d.spadTested x.core (Sieve.src x) len)

/-- The descriptor at the head of a cluster's Sieve is performed. -/
def Dev.sieveRun (d : Dev) (c : Nat) : Dev :=
  match d.sieves c with
  | [] => d
  | x :: _ =>
    let len := Sieve.count x * Sieve.record x
    let scored := Sieve.score x == 1 || Sieve.score x == 2
    if d.sieveWaits x then d
    else if Sieve.inPool x && !d.spansHost (Sieve.src x) len then d.sieveEnd c x Code.access 0 0 []
    else if Sieve.inPool x && !d.inObjects x.allot (Sieve.src x) len then
      d.descFault x Cause.poolAccess 6 (Sieve.src x)
    else if !Sieve.inPool x && !d.spadOk x.core (Sieve.src x) len then d.descFault x Cause.spadAccess 6 (Sieve.src x)
    else if scored && !d.spadOk x.core (Sieve.query x) (4 * Sieve.dim x) then
      d.descFault x Cause.spadAccess 6 (Sieve.query x)
    else
      let q := if scored then d.engineRead x.core (Sieve.query x) (4 * Sieve.dim x) else ([], false, d)
      let d1 := if Sieve.inPool x then q.2.2.meetLines (linesOf (Sieve.src x) len) else (q.2.2.engineRead x.core (Sieve.src x) len).2.2
      let rs := d1.sieveRecords x
      let bad := (rs.filter fun e => e.2).length
      let d2 := (d1.bump Bar.RKS_CLU_SIEVE_RECS (Sieve.count x) c).bump Bar.RKS_CLU_SIEVE_POISON bad c
      let o := sieveOutput x (wordsOf q.1) rs
      d2.sieveEnd c x (if bad = 0 && !q.2.1 then Code.ok else Code.poison) o.1 o.2.1 o.2.2

def execSieveComplete (c : Nat) (s : State) : Out := .next (s.live fun d => if c < 16 then d.sieveRun c else d)

end Sys2Proof.Machine
end

