-- ==== Sys2Proof/Machine/Reduce.lean ====
section
/-! DEFINITION. Reduction groups and the reduce engine (R372-R382). -/

namespace Sys2Proof.Machine

/-! ## Elements (R376) -/

namespace Red
/-- Bytes of a partial's or a result's element, and of an accumulator element, by DTYPE. -/
def elemBytes (dt : Nat) : Nat := [4, 2, 4, 8].getD dt 4
def accBytes (dt : Nat) : Nat := if dt = 3 then 8 else 4

/-- Split bytes into numbers of n bytes. -/
def numbers (n : Nat) (bs : List Byte) : List Nat :=
  (List.range (bs.length / n)).map fun i => leNat ((bs.drop (n * i)).take n)

/-- A partial's element in the accumulator's type, and back. -/
def widen (dt x : Nat) : Nat := if dt = 1 then (Num.ofBf16 x).toNat else x
def result (dt x : Nat) : Nat := if dt = 1 then Num.toBf16 (BitVec.ofNat 32 x) else x

/-- What an accumulator holds before the first partial: OP 0 SUM, 1 MAX, 2 MIN. -/
def identity (op dt : Nat) : Nat :=
  let b := 8 * accBytes dt
  if op = 0 then 0
  else if dt ≤ 1 then (if op = 1 then 0xFF800000 else 0x7F800000)
  else if op = 1 then 2 ^ (b - 1) else 2 ^ (b - 1) - 1

/-- Combine a partial's element into the accumulator. -/
def combine (op dt acc x : Nat) : Nat :=
  let n := accBytes dt
  if dt ≤ 1 then
    let f := if op = 0 then Num.fadd else if op = 1 then Num.fmax else Num.fmin
    (f (BitVec.ofNat 32 acc) (BitVec.ofNat 32 x)).toNat
  else if op = 0 then (acc + x) % 2 ^ (8 * n)
  else if op = 1 then (if signedOf n acc < signedOf n x then x else acc)
  else if signedOf n x < signedOf n acc then x else acc
end Red

/-! ## Groups (R372) -/

def Dev.grpElem (d : Dev) (g : Nat) : Nat := Red.elemBytes (d.get Bar.RKS_GRP_DTYPE g)
def Dev.grpAcc (d : Dev) (g : Nat) : Nat := Red.accBytes (d.get Bar.RKS_GRP_DTYPE g)
def Dev.grpHome (d : Dev) (g : Nat) : Nat := d.get Bar.RKS_GRP_HOME_CLUSTER g
def Dev.grpMembers (d : Dev) (g : Nat) : Nat := d.get Bar.RKS_GRP_MEMBERS_M1 g + 1
def Dev.grpState (d : Dev) (g : Nat) : Nat := d.get Bar.RKS_GRP_STAT_STATE g
def Dev.grpRound (d : Dev) (g : Nat) : Nat := d.get Bar.RKS_GRP_STAT_ROUND g

/-- Where byte `off` of the accumulator lies. -/
def Dev.accPlace (d : Dev) (g off : Nat) : Nat :=
  clusterBase (d.grpHome g) + (d.get Bar.RKS_GRP_ACC_BASE g - 2 ^ 24) + off

/-- The accumulator lies in cluster scratchpad, in banks of OWNER. -/
def Dev.accOk (d : Dev) (g : Nat) : Bool :=
  let n := d.get Bar.RKS_GRP_LEN g * d.grpAcc g
  decide (2 ^ 24 ≤ d.get Bar.RKS_GRP_ACC_BASE g) && decide (d.get Bar.RKS_GRP_ACC_BASE g + n ≤ 2 ^ 25) &&
  (banksOf (d.accPlace g 0) n).all (d.mayUse (d.get Bar.RKS_GRP_OWNER g))

/-- Member m gets the result (R379). -/
def Dev.grpDue (d : Dev) (g m : Nat) : Bool :=
  d.flag Bar.RKS_GRP_DELIVER g || m == min (d.get Bar.RKS_GRP_ROOT g) (d.grpMembers g - 1)

/-- The round of a group, open or last; none before the first. -/
def Dev.round? (d : Dev) (g : Nat) : Option Round := kvGet? d.eng.rounds g
def Dev.setRound (d : Dev) (g : Nat) (r : Round) : Dev :=
  { d with eng := { d.eng with rounds := kvPut d.eng.rounds g r } }
def Dev.modRound (d : Dev) (g : Nat) (f : Round → Round) : Dev :=
  { d with eng := { d.eng with rounds := kvMod d.eng.rounds g f } }

/-- Check 7 of a partial (R373). -/
def Dev.grpMember (d : Dev) (g al m : Nat) : Bool :=
  d.flag Bar.RKS_GRP_VALID g && d.get Bar.RKS_GRP_OWNER g == al && decide (m < d.grpMembers g)

/-! ## Descriptors of rpart -/

namespace Rpart
def round (x : Desc) : Nat := x.word 0 31 16
def member (x : Desc) : Nat := x.word 0 15 8
def src (x : Desc) : Nat := alignDown (x.word 1 24 0) 8
def bytes (x : Desc) : Nat := x.word 2 23 0
def res (x : Desc) : Nat := alignDown (x.word 3 24 0) 8
def rcd (x : Desc) : Nat := alignDown (x.word 4 24 0) 8
def group (x : Desc) : Nat := x.words.getD 8 0 % 4096
end Rpart

def Dev.rparts (d : Dev) (c : Nat) : List Desc := kvGetD d.eng.parts c []
def Dev.setRparts (d : Dev) (c : Nat) (l : List Desc) : Dev :=
  { d with eng := { d.eng with parts := kvPut d.eng.parts c l } }

/-- Replace a descriptor, or remove it. -/
def Dev.swapPart (d : Dev) (x y : Desc) : Dev :=
  d.setRparts (x.core / 16) ((d.rparts (x.core / 16)).map fun z => if z == x then y else z)
def Dev.dropPart (d : Dev) (x : Desc) : Dev := d.setRparts (x.core / 16) ((d.rparts (x.core / 16)).erase x)

/-- The record of an rpart (R380): the result bytes land first, then the record, and the counter advances. -/
def Dev.endPart (d : Dev) (x : Desc) (status : Nat) (result : List Byte) (bad : Bool) : Dev :=
  let word := status * 2 ^ 56 + Rpart.round x * 2 ^ 32 + result.length
  let d1 := d.dropPart x
  if !d1.holds x.core x.gen then d1
  else if !result.isEmpty && !d1.spadOk x.core (Rpart.res x) result.length then
    d1.descFault x Cause.spadAccess 7 (Rpart.res x)
  else if !d1.spadOk x.core (Rpart.rcd x) 8 then d1.descFault x Cause.spadAccess 7 (Rpart.rcd x)
  else
    let d2 := if result.isEmpty then d1 else d1.landAt x.core (Rpart.res x) result bad
    (d2.landAt x.core (Rpart.rcd x) (toLe 8 word) false).arrive x.core x.gen x.ctr (8 + result.length)

/-- Every descriptor of a member of the open round of a group, oldest first. -/
def Dev.partsOf (d : Dev) (g m : Nat) : List Desc :=
  (d.eng.parts.flatMap fun e => e.2).filter fun x =>
    x.phase != 0 && Rpart.group x == g && Rpart.member x == m && Rpart.round x == d.grpRound g

/-- A member's descriptors end: the latest with the result, the others without. -/
def Dev.endParts (d : Dev) (status : Nat) (result : List Byte) (bad : Bool) : List Desc → Dev
  | [] => d
  | [x] => d.endPart x status result bad
  | x :: xs => (d.endPart x status [] false).endParts status result bad xs

/-! ## Frames of the reduce engine (R373, R379) -/

/-- Send the frames that wait, in order from each cluster to each target. -/
def Dev.pumpSendList (d : Dev) (stuck : List (Nat × Nat)) : List (Nat × Frame × Cont) → Dev
  | [] => d
  | (c, f, k) :: ps =>
    let held := stuck.contains (c, f.dstEp) || d.reqs.any fun e =>
      e.2.naked && e.2.f.dstEp == f.dstEp && e.2.f.type == Ty.reducePart &&
        e.2.port == TPort.cluster c
    match if held then none else d.issue (clusterTags c) (.cluster c) f k with
    | some d1 => d1.pumpSendList stuck ps
    | none =>
      ({ d with eng := { d.eng with sends := d.eng.sends ++ [(c, f, k)] } }).pumpSendList ((c, f.dstEp) :: stuck) ps

def Dev.pumpSends (d : Dev) : Dev := ({ d with eng := { d.eng with sends := [] } }).pumpSendList [] d.eng.sends

/-- REDUCE_PART frames of a partial or a result: group, member, round. -/
def Dev.partFrames (d : Dev) (al ep group member round status : Nat) (isResult bad : Bool) (bs : List Byte) : List Frame :=
  let frags := if bs.isEmpty then [[]] else Num.chunks 4096 bs.length bs
  frags.zipIdx.map fun e =>
    d.newFrame Ty.reducePart 4 al ep 0 status (if bad then 1 else 0)
      ((if isResult then 2 ^ 31 else 0) + e.2 % 2048 * 2 ^ 20 + member % 256 * 2 ^ 12 + group % 4096)
      (round % 65536 * 65536) (bs.length % 2 ^ 24) e.1

def Dev.queueSends (d : Dev) (c : Nat) (fs : List Frame) (k : Nat → Cont) : Dev :=
  ({ d with eng := { d.eng with sends := d.eng.sends ++ fs.zipIdx.map fun (e : Frame × Nat) => (c, e.1, k e.2) } }).pumpSends

/-! ## Rounds (R374, R378, R379, R381) -/

/-- The accumulator of a group meets a row or a region under test: what needs it waits (R158, R162). -/
def Dev.accTested (d : Dev) (g : Nat) : Bool := d.testWaits (d.accPlace g 0) (d.get Bar.RKS_GRP_LEN g * d.grpAcc g)

/-- The held result of a group in its result type, with its poison. -/
def Dev.grpResult (d : Dev) (g : Nat) (r : Round) : List Byte × Bool × Dev :=
  let v := d.fetchSpad (d.accPlace g 0) (r.count * d.grpAcc g) (d.get Bar.RKS_GRP_OWNER g)
  ((Red.numbers (d.grpAcc g) v.1).flatMap fun x => toLe (d.grpElem g) (Red.result (d.get Bar.RKS_GRP_DTYPE g) x),
    r.poisoned || v.2.1, v.2.2)

/-- Write accumulator elements from element `first` up. -/
def Dev.putAcc (d : Dev) (g first : Nat) (xs : List Nat) : Dev :=
  let a := d.accPlace g (first * d.grpAcc g)
  let bs := xs.flatMap (toLe (d.grpAcc g))
  let d1 := (banksOf a bs.length).foldl Dev.wakeNow d
  (banksOf a bs.length).foldl Dev.useBank (d1.spadWrite a bs false)

/-- Open round r over n elements. -/
def Dev.openRound (d : Dev) (g r n : Nat) : Dev :=
  let x := Red.identity (d.get Bar.RKS_GRP_OP g) (d.get Bar.RKS_GRP_DTYPE g)
  let d1 := (d.set Bar.RKS_GRP_STAT_STATE 1 g).set Bar.RKS_GRP_STAT_ROUND r g
  ((d1.set Bar.RKS_GRP_STAT_ARRIVED 0 g).setRound g {
    arrived := [], nextFrag := [], who := [], count := n, poisoned := false, openNs := d.now }).putAcc g 0
    (List.replicate n x)

/-- One member gets a result, or the status of an abandoned round with no data. -/
def Dev.deliverTo (d : Dev) (g : Nat) (r : Round) (status : Nat) (bs : List Byte) (bad : Bool) (m : Nat) : Dev :=
  if d.grpDue g m then
    let d1 := d.endParts status bs bad (d.partsOf g m)
    match kvGet? r.who m with
    | none => d1
    | some (ep, _) =>
      d1.queueSends (d.grpHome g)
        (d1.partFrames (d.get Bar.RKS_GRP_OWNER g) ep g m (d.grpRound g) (if bs.isEmpty then status else Code.ok) true
          bad bs)
        fun i => .part (d.grpHome g) 1000 0 g m i
  else d

/-- The broadcast of a result (R379): WRITE frames to MCAST_GRP at BCAST_ADDR, split at 4 KiB. -/
def Dev.broadcast (d : Dev) (g : Nat) (bs : List Byte) (bad : Bool) : Dev :=
  let a := d.get Bar.RKS_GRP_BCAST_ADDR g
  let fs := (splitParts [a] (bs.length / 2048 + 3) 0 bs.length).map fun e =>
    d.newFrame Ty.write 4 (d.get Bar.RKS_GRP_OWNER g) (d.get Bar.RKS_GRP_MCAST_GRP g) 0 0 (if bad then 5 else 4)
      (addrHi (a + e.1)) (addrLo (a + e.1)) 0 ((bs.drop e.1).take e.2)
  d.queueSends (d.grpHome g) fs fun _ => .bcast (d.grpHome g)

/-- The result is delivered and the group becomes IDLE. -/
def Dev.deliverRound (d : Dev) (g : Nat) (r : Round) : Dev :=
  let x := d.grpResult g r
  let status := if x.2.1 then Code.poison else Code.ok
  let d1 := (List.range (d.grpMembers g)).foldl (fun d m => d.deliverTo g r status x.1 x.2.1 m) x.2.2
  let d2 := if d.flag Bar.RKS_GRP_BCAST_EN g then d1.broadcast g x.1 x.2.1 else d1
  (d2.set Bar.RKS_GRP_STAT_STATE 0 g).set Bar.RKS_GRP_STAT_ARRIVED 0 g

/-- A round is complete when every member has arrived (R378). -/
def Dev.roundComplete (d : Dev) (g : Nat) : Dev :=
  match d.round? g with
  | none => d
  | some r =>
    if r.arrived.length < d.grpMembers g then d
    else if d.flag Bar.RKS_GRP_UP_EN g then
      let x := d.grpResult g r
      let d1 := (x.2.2.set Bar.RKS_GRP_STAT_STATE 2 g).modRound g fun r => { r with nextFrag := kvPut r.nextFrag 1000 0 }
      d1.queueSends (d.grpHome g)
        (d1.partFrames (d.get Bar.RKS_GRP_OWNER g) (d.get Bar.RKS_GRP_UP_EP g) (d.get Bar.RKS_GRP_UP_GROUP g)
          (d.get Bar.RKS_GRP_UP_MEMBER g) (d.grpRound g) 0 false x.2.1 x.1)
        fun i => .part (d.grpHome g) 1000 0 (d.get Bar.RKS_GRP_UP_GROUP g) (d.get Bar.RKS_GRP_UP_MEMBER g) i
    else d.deliverRound g r

/-- Abandon the open round with a status (R381). -/
def Dev.abandonRound (d : Dev) (g status : Nat) : Dev :=
  match d.round? g with
  | none => d
  | some r =>
    if d.grpState g ≠ 1 ∧ d.grpState g ≠ 2 then d
    else
      let d1 := r.arrived.foldl (fun d m => d.deliverTo g r status [] false m) d
      (d1.set Bar.RKS_GRP_STAT_STATE 3 g).set Bar.RKS_GRP_STAT_ARRIVED 0 g

/-- A fragment's elements are combined from element `first` up (R376). -/
def Dev.combineFrag (d : Dev) (g first : Nat) (bs : List Byte) (bad : Bool) : Dev :=
  match d.round? g with
  | none => d
  | some r =>
    let dt := d.get Bar.RKS_GRP_DTYPE g
    let xs := ((Red.numbers (d.grpElem g) bs).map (Red.widen dt)).take (r.count - first)
    let n := d.grpAcc g
    let v := d.fetchSpad (d.accPlace g (first * n)) (n * xs.length) (d.get Bar.RKS_GRP_OWNER g)
    let old := Red.numbers n v.1
    let lost := v.2.1
    ((v.2.2.bump Bar.RKS_CLU_FRAGMENTS 1 (d.grpHome g)).putAcc g first
      ((old.zip xs).map fun p => Red.combine (d.get Bar.RKS_GRP_OP g) dt p.1 p.2)).modRound g fun r =>
        { r with poisoned := r.poisoned || bad || lost }

/-- A member's last fragment is in: it has arrived. -/
def Dev.memberArrives (d : Dev) (g m : Nat) : Dev :=
  match d.round? g with
  | none => d
  | some r =>
    let as := if r.arrived.contains m then r.arrived else r.arrived ++ [m]
    (d.setRound g { r with arrived := as }).set Bar.RKS_GRP_STAT_ARRIVED as.length g

/-- How a partial of round r and n elements from member m is handled (R374). -/
inductive Accept where
  | refused
  | opens
  | replay
  | accepted
  | dup
  | waits
deriving DecidableEq, Repr

/-- Rounds compare modulo 2^16 in the manner of R74. -/
def newerRound (a b : Nat) : Bool :=
  let x := (a + 65536 - b % 65536) % 65536
  1 ≤ x && x < 32768

def Dev.accepts (d : Dev) (g m r n : Nat) : Accept :=
  let st := d.grpState g
  let now := d.grpRound g
  match d.round? g with
  | none => if d.get Bar.RKS_GRP_LEN g < n then .refused else .opens
  | some x =>
    if d.get Bar.RKS_GRP_LEN g < n then .refused
    else if st = 3 then .opens
    else if st = 0 then (if r = now then .replay else if newerRound r now then .opens else .refused)
    else if n ≠ x.count then .refused
    else if r = now then (if x.arrived.contains m then .dup else .accepted)
    else if newerRound r now then .waits
    else .refused

/-! ## rpart (R359, R373, R380) -/

/-- Bytes of a partial: whole elements, at least one. -/
def Dev.partBytes (d : Dev) (x : Desc) : Nat :=
  let e := d.grpElem (Rpart.group x)
  max e (Rpart.bytes x / e * e)

/-- The fragments of a partial in its own cluster. -/
def Dev.combineAll (d : Dev) (g per : Nat) (bad : Bool) : List (List Byte × Nat) → Dev
  | [] => d
  | (bs, i) :: rest => (d.combineFrag g (i * per) bs bad).combineAll g per bad rest

/-- A core member's partial at its group's own cluster. -/
def Dev.partHere (d : Dev) (x : Desc) : Dev :=
  let g := Rpart.group x
  let m := Rpart.member x
  let len := d.partBytes x
  let n := len / d.grpElem g
  let y := { x with phase := 2 }
  let after (d : Dev) : Dev :=
    (if d.grpDue g m then d.swapPart x y else d.endPart x Code.ok [] false).roundComplete g
  let take (d0 : Dev) : Dev :=
    if !d0.spadOk x.core (Rpart.src x) len then d.descFault x Cause.spadAccess 7 (Rpart.src x)
    else
      let r := d0.engineRead x.core (Rpart.src x) len
      let d1 := r.2.2.combineAll g (4096 / d.grpElem g) r.2.1 (Num.chunks 4096 len r.1).zipIdx
      after ((d1.modRound g fun q => { q with who := kvDel q.who m }).memberArrives g m)
  match d.accepts g m (Rpart.round x) n with
  | .refused => (d.bump Bar.RKS_STAT_STALE 1).endPart x Code.access [] false
  | .opens => take (d.openRound g (Rpart.round x) n)
  | .accepted => take d
  | .waits => d
  | .dup =>
    let d1 := (d.bump Bar.RKS_STAT_DUP 1).modRound g fun q => { q with who := kvDel q.who m }
    if d1.grpDue g m then d1.swapPart x y else d1.endPart x Code.ok [] false
  | .replay =>
    match d.round? g with
    | some r =>
      if d.grpDue g m then
        let v := d.grpResult g r
        v.2.2.endPart x (if v.2.1 then Code.poison else Code.ok) v.1 v.2.1
      else d.endPart x Code.ok [] false
    | none => d

/-- A core member's partial for another cluster: REDUCE_PART frames. -/
def Dev.partAway (d : Dev) (x : Desc) : Dev :=
  let len := d.partBytes x
  if !d.spadOk x.core (Rpart.src x) len then d.descFault x Cause.spadAccess 7 (Rpart.src x)
  else
    let r := d.engineRead x.core (Rpart.src x) len
    let d1 := r.2.2.swapPart x { x with phase := 1 }
    d1.queueSends (x.core / 16)
      (d1.partFrames x.allot d.myEp (Rpart.group x) (Rpart.member x) (Rpart.round x) 0 false r.2.1 r.1)
      fun i => .part (x.core / 16) x.core x.gen (Rpart.group x) (Rpart.member x) i

/-- Take one descriptor. -/
def Dev.takePart (d : Dev) (x : Desc) : Dev :=
  if !d.grpMember (Rpart.group x) x.allot (Rpart.member x) then d.endPart x Code.access [] false
  else if d.grpHome (Rpart.group x) = x.core / 16 then d.partHere x
  else d.partAway x

/-- A partial for a round that is newer than its group's open one waits (R374), and one that needs a row or a region under
test. -/
def Dev.partWaits (d : Dev) (x : Desc) : Bool :=
  let g := Rpart.group x
  d.spadTested x.core (Rpart.src x) (d.partBytes x) ||
  (d.grpMember g x.allot (Rpart.member x) && d.grpHome g == x.core / 16 &&
    (d.accTested g || d.accepts g (Rpart.member x) (Rpart.round x) (d.partBytes x / d.grpElem g) == .waits))

/-- The descriptors of a cluster that can be taken: in order within an invocation (R34). -/
def Dev.pumpParts (d : Dev) (c : Nat) : Nat → Dev
  | 0 => d
  | fuel + 1 =>
    let l := d.rparts c
    match l.zipIdx.find? fun e => e.1.phase == 0 && !d.partWaits e.1 && !((l.take e.2).any fun y =>
        y.core == e.1.core && y.gen == e.1.gen && y.phase != 2) with
    | none => d
    | some e => (d.takePart e.1).pumpParts c fuel

/-- Every cluster's descriptors and waiting frames. -/
def Dev.pumpReduce (d : Dev) : Dev := ((kvKeys d.eng.parts).foldl (fun d c => d.pumpParts c 64) d).pumpSends

def Dev.iRpart (d : Dev) (k : Nat) (ctr : BitVec 4) (sa : BitVec 5) (grp : BitVec 16) : Act :=
  d.takeDesc k ctr sa 32 7 [grp.toNat % 4096] (32 ≤ ((d.rparts (k / 16)).filter fun x => x.phase != 2).length)
    fun d x => (d.setRparts (k / 16) (d.rparts (k / 16) ++ [x])).pumpReduce

/-- The acknowledgment of a fragment that a core member sent: the last one ends the descriptor of a member that gets
no result; a refusal ends it with ACCESS, TIMEOUT or RESETTING. -/
def Dev.partAcked (d : Dev) (core gen group member status : Nat) : Dev :=
  match (d.rparts (core / 16)).find? fun x =>
      x.phase == 1 && x.core == core && x.gen == gen && Rpart.group x == group && Rpart.member x == member with
  | none => d
  | some x =>
    let mine (k : Cont) : Bool := match k with
      | .part _ c g _ _ _ => c == core && g == gen
      | _ => false
    if status ≠ Code.ok then
      let st := if status = Code.timeout ∨ status = Code.resetting then status else Code.access
      ({ d with eng := { d.eng with sends := d.eng.sends.filter fun e => !mine e.2.2 } }).endPart x st [] false
    else if d.reqs.any (fun e => mine e.2.cont) || d.eng.sends.any (fun e => mine e.2.2) then d
    else if d.grpDue group member then d.swapPart x { x with phase := 2 }
    else d.endPart x Code.ok [] false

/-! ## REDUCE_PART frames (R373-R375, R378) -/

def partIdx (f : Frame) : Nat := f.w5 >>> 20 % 2048
def partMember (f : Frame) : Nat := f.w5 >>> 12 % 256
def partGroup (f : Frame) : Nat := f.w5 % 4096
def partRound (f : Frame) : Nat := f.w6 >>> 16 % 65536
def partTotal (f : Frame) : Nat := f.w7 % 2 ^ 24

/-- The WRITE_ACK of a REDUCE_PART. -/
def Dev.ackPart (d : Dev) (c : Nat) (f : Frame) (status : Nat) : Dev :=
  d.send (.cluster c) (d.answer f Ty.writeAck 5 status 0 0 [])

/-- A fragment in the order of its sender's indices: none where it is acknowledged BUSY. -/
def Dev.fragment (d : Dev) (g key : Nat) (f : Frame) (k : Dev → Bool → Dev) : Dev :=
  match d.round? g with
  | none => d
  | some r =>
    let next := kvGetD r.nextFrag key 0
    let c := d.grpHome g
    if partIdx f < next then (d.bump Bar.RKS_STAT_DUP 1).ackPart c f Code.ok
    else if next < partIdx f then d.nak (.cluster c) f Code.busy
    else
      let last := decide (partTotal f ≤ partIdx f * 4096 + f.payload.length)
      k ((d.modRound g fun r => { r with nextFrag := kvPut r.nextFrag key (next + 1) }).ackPart c f Code.ok) last

/-- A partial's fragment at the group's home. -/
def Dev.takePartial (d : Dev) (f : Frame) : Dev :=
  let g := partGroup f
  let m := partMember f
  let c := d.grpHome g
  let e := d.grpElem g
  let remote := f.srcEp != d.myEp
  let last := decide (partTotal f ≤ partIdx f * 4096 + f.payload.length)
  let known (d : Dev) : Dev := if remote then d.modRound g fun q => { q with who := kvPut q.who m (f.srcEp, f.tag) } else d
  let take (d : Dev) : Dev :=
    d.fragment g m f fun d1 last =>
      let d2 := (known d1).combineFrag g (partIdx f * (4096 / e)) f.payload (Frame.poisonBit f)
      if last then (d2.memberArrives g m).roundComplete g else d2
  match d.accepts g m (partRound f) (partTotal f / e) with
  | .refused => (d.bump Bar.RKS_STAT_STALE 1).ackPart c f Code.access
  | .opens => take (d.openRound g (partRound f) (partTotal f / e))
  | .accepted => take d
  | .waits => d.nak (.cluster c) f Code.busy
  | .dup => (known (d.bump Bar.RKS_STAT_DUP 1)).ackPart c f Code.ok
  | .replay =>
    let d1 := d.ackPart c f Code.ok
    match d1.round? g with
    | some r =>
      let v := d1.grpResult g r
      if last && d1.grpDue g m then
        if remote then
          v.2.2.queueSends c (d1.partFrames (d.get Bar.RKS_GRP_OWNER g) f.srcEp g m (d.grpRound g) 0 true v.2.1 v.1)
            fun i => .part c 1000 0 g m i
        else v.2.2.endParts (if v.2.1 then Code.poison else Code.ok) v.1 v.2.1 (d1.partsOf g m)
      else d1
    | none => d1

/-- A fragment of a parent's result: its data replaces the accumulator; a status with no data abandons the round. -/
def Dev.takeParent (d : Dev) (g : Nat) (f : Frame) : Dev :=
  if partTotal f = 0 then
    (d.ackPart (d.grpHome g) f Code.ok).abandonRound g (if f.status = Code.ok then Code.timeout else seenStatus f.status)
  else
    d.fragment g 1000 f fun d1 last =>
      let dt := d.get Bar.RKS_GRP_DTYPE g
      let first := partIdx f * (4096 / d.grpElem g)
      let xs := (Red.numbers (d.grpElem g) f.payload).map (Red.widen dt)
      let d2 := match d1.round? g with
        | some r => (d1.putAcc g first (xs.take (r.count - first))).modRound g fun q =>
            { q with poisoned := q.poisoned || Frame.poisonBit f }
        | none => d1
      if last then
        match d2.round? g with
        | some r => d2.deliverRound g r
        | none => d2
      else d2

def Dev.takeReduce (d : Dev) (f : Frame) : Dev :=
  if 2 ^ 31 ≤ f.w5 then
    match d.waitingGroup f with
    | some g =>
      if d.get Bar.RKS_GRP_OWNER g = f.allot then (d.takeParent g f).pumpReduce
      else d.nak (.cluster (d.grpHome g)) f Code.access
    | none => d.nak (.cluster 0) f Code.access
  else if d.grpMember (partGroup f) f.allot (partMember f) then (d.takePartial f).pumpReduce
  else d.nak (.cluster (d.grpHome (partGroup f))) f Code.access

/-- The accumulator that a REDUCE_PART needs is under test: the frame waits where it is. -/
def Dev.reduceTested (d : Dev) (f : Frame) : Bool :=
  if 2 ^ 31 ≤ f.w5 then ((d.waitingGroup f).map d.accTested).getD false
  else d.flag Bar.RKS_GRP_VALID (partGroup f) && d.accTested (partGroup f)

def execReducePart (f : Frame) (s : State) : Out :=
  .next (s.live fun d =>
    if f.type = Ty.reducePart ∧ ¬ d.reduceTested f then
      match d.recv (d.localPort 0 f) f with
      | (some g, d1) => d1.takeReduce g
      | (none, d1) => d1
    else d)

/-! ## RKS_GRP (R372, R381) -/

/-- A group stops: its round ends with a status and VALID reads 0. -/
def Dev.stopGroup (d : Dev) (g status : Nat) : Dev :=
  let d1 := (d.abandonRound g status).set Bar.RKS_GRP_VALID 0 g
  let d2 : Dev := { d1 with eng := { d1.eng with rounds := kvDel d1.eng.rounds g } }
  ((d2.set Bar.RKS_GRP_STAT_STATE (if d.grpState g = 0 then 0 else 3) g).pumpReduce)

/-- ABANDON: the open round ends with TIMEOUT. -/
def Dev.abandonGroup (d : Dev) (g : Nat) : Dev :=
  if d.flag Bar.RKS_GRP_VALID g then (d.abandonRound g Code.timeout).pumpReduce else d

def execAbandon (g : Nat) (s : State) : Out := .next (s.host fun d => if g < 4096 then d.abandonGroup g else d)

/-- The fields of RKS_GRP beside VALID and ABANDON. -/
def grpMask : Nat := fieldMask
  [Bar.RKS_GRP_OWNER, Bar.RKS_GRP_HOME_CLUSTER, Bar.RKS_GRP_OP, Bar.RKS_GRP_DTYPE, Bar.RKS_GRP_DELIVER,
    Bar.RKS_GRP_BCAST_EN, Bar.RKS_GRP_UP_EN, Bar.RKS_GRP_ROOT, Bar.RKS_GRP_MEMBERS_M1, Bar.RKS_GRP_LEN,
    Bar.RKS_GRP_ACC_BASE, Bar.RKS_GRP_ROUND_TIMEOUT_US, Bar.RKS_GRP_MCAST_GRP, Bar.RKS_GRP_UP_GROUP,
    Bar.RKS_GRP_UP_MEMBER, Bar.RKS_GRP_UP_EP, Bar.RKS_GRP_BCAST_ADDR]

def Dev.grpWrite (d : Dev) (g v : Nat) : Dev :=
  if d.flag Bar.RKS_GRP_VALID g then
    let d1 := if v.testBit 254 then d.abandonGroup g else d
    if v.testBit 255 then d1 else d1.stopGroup g Code.access
  else
    let d1 := d.putWord Bar.RKS_GRP (v &&& grpMask) g
    let d2 := d1.set Bar.RKS_GRP_OP (min 2 (d1.get Bar.RKS_GRP_OP g)) g
    let d3 := d2.set Bar.RKS_GRP_LEN (clampTo 1 1048576 (d2.get Bar.RKS_GRP_LEN g)) g
    let d4 := d3.set Bar.RKS_GRP_ACC_BASE (alignDown (d3.get Bar.RKS_GRP_ACC_BASE g) 256) g
    let d6 := d4.set Bar.RKS_GRP_ROOT (min (d4.get Bar.RKS_GRP_ROOT g) (d4.grpMembers g - 1)) g
    if !v.testBit 255 then d6
    else if d6.accOk g then
      let d5 := ((d6.set Bar.RKS_GRP_VALID 1 g).set Bar.RKS_GRP_STAT_STATE 0 g).set Bar.RKS_GRP_STAT_ARRIVED 0 g
      { d5 with eng := { d5.eng with rounds := kvDel d5.eng.rounds g } }
    else d6.bump Bar.RKS_STAT_REFUSED 1

def execRksGrpWrite (g v : Nat) (s : State) : Out := .next (s.host fun d => if g < 4096 then d.grpWrite g v else d)

/-- ROUND_TIMEOUT_US has passed since the round opened (R381). -/
def Dev.roundExpires (d : Dev) (g : Nat) : Dev :=
  let t := d.get Bar.RKS_GRP_ROUND_TIMEOUT_US g
  match d.round? g with
  | some r =>
    if (d.grpState g = 1 ∨ d.grpState g = 2) ∧ t ≠ 0 ∧ r.openNs + 1000 * t ≤ d.now then
      ((d.bump Bar.RKS_GRP_STAT_TIMEOUTS 1 g).abandonRound g Code.timeout).pumpReduce
    else d
  | none => d

def execRoundTimeout (g : Nat) (s : State) : Out := .next (s.live fun d => if g < 4096 then d.roundExpires g else d)

/-- The valid groups. -/
def Dev.validGroups (d : Dev) : List Nat := (List.range 4096).filter fun g => d.flag Bar.RKS_GRP_VALID g

/-- Groups whose accumulator has left their owner stop (R372). -/
def Dev.checkGroups (d : Dev) : Dev :=
  d.validGroups.foldl (fun d g => if d.accOk g then d else d.stopGroup g Code.access) d

/-- Groups of an allotment that enters reset stop (R372). -/
def Dev.resetGroups (d : Dev) (a : Nat) : Dev :=
  d.validGroups.foldl (fun d g => if d.get Bar.RKS_GRP_OWNER g = a then d.stopGroup g Code.resetting else d) d

/-- A write of a bank's OWNER and ASSIGN (R144, R372). -/
def execBankOwnershipWrite (bank : BankId) (v : Nat) (s : State) : Out :=
  .next (s.host fun d => if bankValid bank then (d.writeBank bank v).checkGroups else d)

end Sys2Proof.Machine
end

