-- ==== Sys2Proof/Machine/Allotments.lean ====
section
/-! DEFINITION. Allotments (R384, R385, R394-R398), their notifications and vectors (R386-R393), and the composition map
(R400). -/

namespace Sys2Proof.Machine

/-! ## ENABLE (R384, R415) -/

/-- ENABLE = 1: a DISABLED allotment takes a memory slot if it has no ACTIVE one, and becomes ACTIVE, with REMOVED
cleared (R421); without a free slot it stays DISABLED. -/
def Dev.enableAllot (d : Dev) (a : Nat) : Dev :=
  let on (d : Dev) : Dev :=
    (((d.set Bar.ALT_CFG_ENABLE 1 a).set Bar.ALT_CFG_STATE 1 a).set Bar.SEC_ALT_REMOVED 0 a).fillPolice a
  if d.altState a ≠ 0 then d.set Bar.ALT_CFG_ENABLE 1 a
  else if (d.activeMslot a).isSome then on d
  else match d.takeMslot a with
    | some d1 => on d1
    | none => d

/-- ENABLE = 0: an ACTIVE allotment is DISABLED at once, a RESETTING one when its reset ends. -/
def Dev.disableAllot (d : Dev) (a : Nat) : Dev :=
  let d1 := d.set Bar.ALT_CFG_ENABLE 0 a
  if d.altState a = 1 then d1.set Bar.ALT_CFG_STATE 0 a else d1

def isTenant (a : Nat) : Bool := 1 ≤ a && a < 256

/-- In RETURNED the ENABLE bits of tenants ignore writes (R405). -/
def execAltEnable (a : Nat) (s : State) : Out :=
  .next (s.host fun d => if isTenant a && s.fuses.lifecycle != 3 then (d.enableAllot a).tdiTouch a else d)
def execAltDisable (a : Nat) (s : State) : Out := .next (s.host fun d => if isTenant a then (d.disableAllot a).tdiTouch a else d)

/-! ## Reset (R394-R398) -/

/-- Every descriptor, copy and request of an allotment is dropped (step 2). -/
def Dev.cancelWork (d : Dev) (a : Nat) : Dev :=
  let drop (q : Kv (List Desc)) : Kv (List Desc) := kvMap q fun _ l => l.filter fun x => x.allot != a
  { d with
    copies := d.copies.filter fun e => e.2.allot != a
    eng := { d.eng with rake := drop d.eng.rake, sieve := drop d.eng.sieve, parts := drop d.eng.parts } }

/-- A core still serves the allotment. -/
def Dev.servedByCore (d : Dev) (a : Nat) : Bool :=
  d.units.any fun e => e.2.state != 0 && (match e.2.inv with
    | some i => i.allot == a
    | none => false)

/-- The allotment's regions, sessions and views. -/
def Dev.regionsOf (d : Dev) (a : Nat) : List Nat :=
  (List.range 4096).filter fun r => d.flag Bar.VER_REGION_VALID r && d.get Bar.VER_REGION_ALLOT r == a
def Dev.sessionsOf (d : Dev) (a : Nat) : List Nat := (kvKeys d.sess).filter fun id => d.ses id Ses.ALLOT == a

/-- A region of the allotment: its opens are dropped, then it is destroyed, once no publish of it is in progress. -/
def Dev.resetRegion (d : Dev) (r : Nat) : Dev :=
  if (kvGet? d.ver.destroy r).isSome || (kvGet? d.ver.pubs r).isSome then d
  else
    ((List.range 16).foldl (fun d s => d.set Bar.VER_SLOT_OPENS 0 r s) d).beginDestroy r none

/-- A session or mirror copy of the allotment closes (R342). -/
def Dev.resetSession (d : Dev) (id : Nat) : Dev :=
  ((d.dropAttach id Code.resetting).setSes id Ses.STATE 4).closeComplete id

/-- The allotment's expansion views are cleared (R355). -/
def Dev.resetViews (d : Dev) (a : Nat) : Dev :=
  (List.range 64).foldl (fun d i =>
    if d.flag Bar.EXP_EGR_VALID i && d.get Bar.EXP_EGR_ALLOT i == a then (d.set Bar.EXP_EGR_VALID 0 i).dropViewCache i
    else d) d

/-- Step 3: NMU commands end, operations that wait at an arbiter complete RESETTING, regions are destroyed, sessions close,
views are cleared. -/
def Dev.resetLogic (d : Dev) (a : Nat) : Dev :=
  let d1 := (kvKeys (d.nmus.cmds.filter fun e => !nmuExempt e.2.src e.2.words && nmuAllot e.2.words == a)).foldl Dev.nmuComplete d
  let d2 := (d1.ver.waiting.filter fun x => x.who.allot == a).foldl (fun d x =>
    d.verAnswer x.who Code.resetting x.region x.slot 0)
    { d1 with ver := { d1.ver with waiting := d1.ver.waiting.filter fun x => x.who.allot != a } }
  let d3 := (d2.regionsOf a).foldl Dev.resetRegion d2
  ((d3.sessionsOf a).foldl Dev.resetSession d3).resetViews a

/-- Step 3 has ended. -/
def Dev.logicDone (d : Dev) (a : Nat) : Bool :=
  !(d.nmus.cmds.any fun e => !nmuExempt e.2.src e.2.words && nmuAllot e.2.words == a) && (d.regionsOf a).isEmpty &&
    (d.sessionsOf a).isEmpty

/-- Step 4: queued evictable frames whose transmission has not started leave a Trellis, without notice. -/
def Dev.discardFrames (d : Dev) (a die : Nat) : Dev :=
  ((d.trel die).held.filter fun h => candidate h && h.f.allot == a).foldl (fun d h =>
    h.targets.foldl (fun d p => d.settleQueue p h.f.cls) ((d.freeHeld die h).bump Bar.ALT_STATUS_DISCARDED 1 a)) d

/-- Banks that name the allotment as owner and are not yet FREE. -/
def Dev.banksLeft (d : Dev) (a : Nat) : List BankId :=
  ownedUnits.filter fun b => d.bankOwner b == a && (d.bankAssign b == 1 || (bankGroup b).any fun x => d.bankState x == 2)

/-- Banks of the allotment on their way to FREE. -/
def Dev.banksWiping (d : Dev) (a : Nat) : List BankId := (d.banksLeft a).filter fun b => d.bankAssign b == 0

/-- Step 5: every bank of the allotment is handed to FREE. -/
def Dev.resetBanks (d : Dev) (a : Nat) : Dev :=
  ((d.banksLeft a).filter fun b => d.bankAssign b == 1 && (d.bank b).want.isNone).foldl (fun d b => d.takeAway a b) d

/-- The reset goes on as far as it can: each step starts when the one before has ended. -/
def Dev.resetStep (d : Dev) (a : Nat) : Dev :=
  if !d.inReset a || d.servedByCore a then d
  else
    let d1 := d.resetLogic a
    if d1.logicDone a && !(d1.allotSt a).handed then
      let d2 := (d1.discardFrames a 0).discardFrames a 1
      (d2.setAllot a { d2.allotSt a with handed := true }).resetBanks a
    else d1

/-- Every reset in progress goes on. -/
def Dev.pumpResets (d : Dev) : Dev :=
  ((kvKeys d.allot).filter fun a => d.inReset a).foldl Dev.resetStep d

/-- A trigger of a reset (R394): cause 0 register, 1 function-level reset, 2 tenant removal. -/
def Dev.resetAllot (d : Dev) (a cause : Nat) : Dev :=
  if !isTenant a || d.altState a == 0 then d
  else
    let x := d.allotSt a
    let y := { x with flr := x.flr || cause == 1, removal := x.removal || cause == 2 }
    if d.altState a = 2 then d.setAllot a y
    else
      let d1 := ((d.setAllot a { y with cause := cause }).set Bar.ALT_CFG_STATE 2 a).stopInvs Code.resetting
        fun i => i.allot == a
      ((d1.cancelWork a).resetGroups a).resetStep a

def execAllotmentResetStart (a : Nat) (s : State) : Out := .next (s.host fun d => d.resetAllot a 0)

/-- Steps 6 and 7 (R395); a REMOVE of SEC_KEY_CMD that waited is DONE (R420). -/
def Dev.endReset (d : Dev) (a : Nat) : Dev :=
  let x := d.allotSt a
  let full (die : Nat) : Int := Int.ofNat (400 * d.get Bar.ALT_SHAPE_BURST die a)
  let d1 := d.setAllot a { x with
    notes := [], seq := 0, tokens := d.get Bar.ALT_CFG_N_BURST a, cause := 0, flr := false, removal := false, handed := false
    shape0 := full 0, shape1 := full 1, shapeNs := d.now }
  let d2 : Dev := { d1 with ep := { d1.ep with pend := d1.ep.pend.filter fun e => entryFn e != a } }
  let d3 := (d2.fillPolice a).bump Bar.ALT_STATUS_RESETS 1 a
  let off := x.removal || !d.flag Bar.ALT_CFG_ENABLE a
  let d5 (d : Dev) : Dev :=
    if d.sec.removing.contains a then
      ({ d with sec := { d.sec with removing := d.sec.removing.filter (· != a) } }).set Bar.SEC_KEY_CMD_DONE 1
    else d
  let d4 := d5 <| (if x.removal then d3.set Bar.ALT_CFG_ENABLE 0 a else d3).set Bar.ALT_CFG_STATE (if off then 0 else 1) a
  d4.notify a 0x01 x.cause

def Dev.resetEnd (d : Dev) (a : Nat) : Dev :=
  let d1 := d.resetStep a
  if d1.inReset a && (d1.allotSt a).handed && (d1.banksWiping a).isEmpty then d1.endReset a else d1

def execAllotmentResetEnd (a : Nat) (s : State) : Out := .next (s.live fun d => if isTenant a then d.resetEnd a else d)

/-! ## Notification queue and vectors (R388, R391, R392) -/

/-- The record as 128 bits (R390). -/
def Note.word (n : Note) : Nat :=
  n.code * 2 ^ 120 + n.rep * 2 ^ 112 + n.seq * 2 ^ 96 + n.arg % 2 ^ 32 * 2 ^ 64 + n.timeNs % 2 ^ 64

/-- The head record of a queue; 0 when it is empty. -/
def Dev.headNote (d : Dev) (a : Nat) : Nat := ((d.allotSt a).notes.head?.map Note.word).getD 0

/-- A read removes the oldest record. -/
def Dev.popNote (d : Dev) (a : Nat) : Dev :=
  if (d.allotSt a).notes.isEmpty then d
  else d.setAllot a { d.allotSt a with notes := (d.allotSt a).notes.drop 1 }

def execNotifyPop (a : Nat) (s : State) : Out :=
  .next (s.host fun d => if a < 256 then (d.emit (.readData (if a = 0 then .pf0 else .vf a) (Bar.ALT_NPOP.key a 0) 16
    (d.headNote a))).popNote a else d)

/-- The tokens of the milliseconds of the time base that have begun since the last refill (R41, R392). -/
def Dev.refillTokens (d : Dev) (a : Nat) : Dev :=
  let x := d.allotSt a
  let ms := d.now / 1000000
  if x.tokenMs < ms then
    (d.setAllot a { x with
      tokenMs := ms
      tokens := min (d.get Bar.ALT_CFG_N_BURST a) (x.tokens + d.get Bar.ALT_CFG_N_RATE a * (ms - x.tokenMs)) }).signalNotes a
  else d

def execNotifyTokenRefill (a : Nat) (s : State) : Out :=
  .next (s.live fun d => if a < 256 then d.refillTokens a else d)

/-- A table entry's mask bit is cleared: a pending vector sends one message. -/
def Dev.sendPending (d : Dev) (e : Nat) : Dev :=
  if d.ep.pend.contains e && d.msixOn (entryFn e) && !(d.msixEntry e).mask && !d.msixFnMask (entryFn e) then
    ({ d with ep := { d.ep with pend := d.ep.pend.filter (· != e) } }).emit (.msix e)
  else d

def Dev.unmask (d : Dev) (e : Nat) : Dev :=
  ({ d with ep := { d.ep with table := kvPut d.ep.table e { d.msixEntry e with mask := false } } }).sendPending e

def execVectorUnmask (entry : Nat) (s : State) : Out :=
  .next (s.live fun d => if entry < 2048 then d.unmask entry else d)

/-! ## Map installs (R400) -/

/-- An epoch is installed and a drain window opens. -/
def Dev.installMap (d : Dev) (epoch : Nat) : Dev :=
  ((d.set Bar.ALT_MAP_CURRENT epoch).set Bar.ALT_MAP_INSTALL_NS d.now).notifyAll 0x06 epoch

/-- INSTALL: a NEXT that is not newer is clamped to CURRENT + 1. -/
def Dev.installNext (d : Dev) : Dev :=
  let next := d.get Bar.ALT_MAP_NEXT
  let epoch := if newer next d.mapEpoch then next else (d.mapEpoch + 1) % 2 ^ 32
  (d.set Bar.ALT_MAP_NEXT epoch).installMap epoch

/-- DRAINING (R400). -/
def Dev.draining (d : Dev) : Bool :=
  (d.get Bar.ALT_MAP_INSTALL_NS != 0 || d.mapEpoch != 0) && decide (d.now < d.get Bar.ALT_MAP_INSTALL_NS + 500000)

end Sys2Proof.Machine
end

