-- ==== Sys2Proof/Machine/Security.lean ====
section
/-! DEFINITION. Lifecycle, measurements, tenant removal, key slots, credentials and the tamper response (R403-R429). -/

namespace Sys2Proof.Machine

/-! ## Measurements (R408) -/

/-- The fuse state that measurement 5 covers. -/
def Fuses.bytes (z : Fuses) : List Byte :=
  toLe 1 z.lifecycle ++ toLe 2 z.tamperCount ++ toLe 8 z.serial ++ z.repairs

def Dev.measureFuses (d : Dev) (z : Fuses) : Dev := d.set Bar.SEC_MEAS_DIGEST (Config.shake256 z.bytes) 4

/-- The key and role that SEC_CRED shows: the fuses' once the slot is programmed (R426). -/
def credKey (z : Fuses) (d : Dev) (i : Nat) : Nat :=
  match kvGet? z.creds i with
  | some c => c.pk
  | none => d.get Bar.SEC_CRED_PK_PK i
def credRole (z : Fuses) (d : Dev) (i : Nat) : Nat :=
  match kvGet? z.creds i with
  | some c => c.role
  | none => d.get Bar.SEC_CRED_CTL_ROLE i

/-- The RWL fields in BAR0 offset order (measurement 4, R491). -/
def rwlBytes (z : Fuses) (d : Dev) : List Byte :=
  (List.range 16).flatMap fun i => toLe 64 (credKey z d i) ++ toLe 1 (credRole z d i)

def Dev.measureRwl (d : Dev) (z : Fuses) : Dev := d.set Bar.SEC_MEAS_DIGEST (Config.shake256 (rwlBytes z d)) 3

/-- The fuses change, and measurement 5 with them. -/
def State.burn (s : State) (z : Fuses) : State := { s with fuses := z, dev := s.dev.measureFuses z }

/-! ## Tenant removal (R420, R421) -/

/-- Step 1, and the allotment reset of step 2. -/
def Dev.removeTenant (d : Dev) (a : Nat) : Dev :=
  if !isTenant a then d
  else
    let d1 := d.emptyFabric a
    let d2 := match d1.activeMslot a with
      | some n => d1.retireMslot n
      | none => d1
    (d2.set Bar.SEC_ALT_REMOVED 1 a).resetAllot a 2

/-- A REMOVE of SEC_KEY_CMD: DONE is 0 until the reset has ended, and meanwhile a START has no effect. -/
def Dev.removeCmd (d : Dev) (a : Nat) : Dev :=
  let d0 := (d.set Bar.SEC_KEY_CMD_ALLOT a).set Bar.SEC_KEY_CMD_OP 1
  if d.get Bar.SEC_KEY_CMD_DONE = 0 then d0
  else if a = 0 then d0.set Bar.SEC_KEY_CMD_STATUS Code.access
  else
    let d1 := (d0.set Bar.SEC_KEY_CMD_STATUS Code.ok).removeTenant a
    if d1.inReset a then ({ d1 with sec := { d1.sec with removing := setIns a d1.sec.removing } }).set Bar.SEC_KEY_CMD_DONE 0
    else d1

/-- PF0 and the Gardeners write SEC_KEY_CMD; an Iferic session reaches it with PF0's rights. -/
def writesAsPf0 : Requester → Bool
  | .vf _ => false
  | _ => true

def execTenantRemove (who : Requester) (a : Nat) (s : State) : Out :=
  .next (s.hostBy who fun d => if a < 256 then d.removeCmd a else d)

/-! ## Lifecycle (R403-R405) -/

/-- The lifecycle state advances, never back. -/
def Fuses.advance (z : Fuses) (target : Nat) : Fuses := { z with lifecycle := max z.lifecycle target }

/-- Entry to DEPLOYED. -/
def State.deploy (s : State) : State :=
  let t := s.burn (s.fuses.advance 2)
  { t with dev := t.dev.measureRwl t.fuses }

/-- Entry to RETURNED: every tenant is removed, the Cloche is wiped, the fills of every frame begin. -/
def State.retire (s : State) : State :=
  let t := s.burn (s.fuses.advance 3)
  let d1 := (List.range 256).foldl (fun d a => (d.removeTenant a).set Bar.ALT_CFG_ENABLE (if a = 0 then 1 else 0) a) t.dev
  let d2 := d1.clocheWipe 2
  { t with dev := { d2 with sec := { d2.sec with fills := true } } }

/-- A write of SEC_LIFECYCLE, by PF0, a Gardener or an Iferic session of role OWNER. -/
def State.lifecycleWrite (s : State) (who : Requester) (v : Nat) : State :=
  let owner := match who with
    | .iferic x => match kvGet? s.dev.sec.ifr x with
      | some i => i.phase == 2 && i.role == 2
      | none => false
    | .vf _ => false
    | _ => true
  let target := slice v 11 10
  let confirm := slice v 31 16
  if !s.dev.ready || !owner || !v.testBit 9 then s
  else if target = 2 ∧ confirm = 0x7290 ∧ s.fuses.lifecycle = 1 then s.deploy
  else if target = 3 ∧ confirm = 0xA5A5 ∧ (s.fuses.lifecycle = 1 ∨ s.fuses.lifecycle = 2) then
    { s.retire with dev := if who = .pf0 then s.dev.tdiGuard s.retire.dev else s.retire.dev }
  else s

/-- DEPLOY: a write with TARGET 2. -/
def execLifecycleDeploy (who : Requester) (v : Nat) (s : State) : Out :=
  .next (if slice v 11 10 = 2 then s.lifecycleWrite who v else s)

/-- RETURN: a write with TARGET 3. -/
def execLifecycleReturn (who : Requester) (v : Nat) (s : State) : Out :=
  .next (if slice v 11 10 = 3 then s.lifecycleWrite who v else s)

/-- The fills of RETURNED have ended: every frame holds CLEAR lines. -/
def Dev.fillsDone (d : Dev) : Dev :=
  if d.sec.fills then
    ({ d with sec := { d.sec with fills := false }, pool := { d.pool with mem := [], poison := [], flaws := [] } }).set
      Bar.SEC_STATUS_RETURN_DONE 1
  else d

def execReturnFillsDone (s : State) : Out := .next (s.live Dev.fillsDone)

/-! ## Tamper (R427, R428) -/

def State.tampered (s : State) : State :=
  let z := { s.fuses with tamperCount := min 65535 (s.fuses.tamperCount + 1) }
  let d1 := (({ s.dev with power := { s.dev.power with tamper := true } }).clocheWipe 1).alert Blk.sec
  let d2 := (List.range 256).foldl Dev.removeTenant (d1.set Bar.SEC_STATUS_TAMPERED 1)
  let d3 := d2.freshSlots [0]
  ({ s with dev := { d3 with sec := { d3.sec with chunks := [] } } }).burn z

/-- TAMPER_N and the Cloche lie on VDD_AON (R496): a package that has tripped or has no PWR_OK wipes and counts, and its
units, which stand still, do nothing more; TAMPERED is kept only with PWR_OK. -/
def State.tamperedAon (s : State) : State :=
  let d := s.dev.clocheWipe 1
  { s with
    fuses := { s.fuses with tamperCount := min 65535 (s.fuses.tamperCount + 1) }
    dev := if d.power.pwrOk then ({ d with power := { d.power with tamper := true } }).set Bar.SEC_STATUS_TAMPERED 1 else d }

def execTamperAssert (s : State) : Out := .next (if s.dev.runs then s.tampered else s.tamperedAon)

/-! ## Fabric keys (R414, R416) -/

def Dev.keyState (d : Dev) (a slot : Nat) : Nat :=
  if slot = 0 then d.get Bar.SEC_ALT_A_STATE a else d.get Bar.SEC_ALT_B_STATE a
def Dev.setKeyState (d : Dev) (a slot x : Nat) : Dev :=
  if slot = 0 then d.set Bar.SEC_ALT_A_STATE x a else d.set Bar.SEC_ALT_B_STATE x a

/-- A key and its GEN enter a slot. -/
def Dev.putKey (d : Dev) (a slot gen key state : Nat) : Dev :=
  let d1 := (if slot = 0 then d.set Bar.SEC_ALT_A_GEN gen a else d.set Bar.SEC_ALT_B_GEN gen a).setKeyState a slot state
  { d1 with sec := { d1.sec with fabKeys := kvPut d1.sec.fabKeys (2 * a + slot) key } }

/-- PROVISION_FABRIC: into the slot that is not ACTIVE, as RX; with no ACTIVE slot it becomes ACTIVE. -/
def Dev.provision (d : Dev) (a gen key : Nat) : Dev :=
  let act := d.get Bar.SEC_ALT_ACT_SLOT a
  if d.keyState a act = 2 then d.putKey a (1 - act) gen key 1
  else ((d.putKey a 0 gen key 2).set Bar.SEC_ALT_ACT_SLOT 0 a).set Bar.SEC_ALT_FAB_EN 1 a

/-- ROLL: the RX slot becomes ACTIVE and the ACTIVE one RX; none without an RX slot. -/
def Dev.rollKeys (d : Dev) (a : Nat) : Option Dev :=
  let act := d.get Bar.SEC_ALT_ACT_SLOT a
  if d.keyState a (1 - act) = 1 then
    some (((d.setKeyState a (1 - act) 2).setKeyState a act 1).set Bar.SEC_ALT_ACT_SLOT (1 - act) a)
  else none

/-- RETIRE_OLD: the RX slot becomes EMPTY. -/
def Dev.retireOldKey (d : Dev) (a : Nat) : Dev :=
  let old := 1 - d.get Bar.SEC_ALT_ACT_SLOT a
  if d.keyState a old = 1 then
    ({ d with sec := { d.sec with fabKeys := kvDel d.sec.fabKeys (2 * a + old) } }).setKeyState a old 0
  else d

/-! ## Credentials (R426) -/

/-- A slot is programmed once. -/
def Fuses.program (z : Fuses) (i pk role : Nat) : Fuses :=
  if i < 16 && (kvGet? z.creds i).isNone then
    { z with creds := kvPut z.creds i { valid := true, revoked := false, role := min 2 role, pk := pk } }
  else z

/-- A revocation is permanent. -/
def Fuses.revoke (z : Fuses) (i : Nat) : Fuses := { z with creds := kvMod z.creds i fun c => { c with revoked := true } }

/-- PROGRAM, while the lifecycle is PROVISIONED. -/
def execCredProgram (i : Nat) (s : State) : Out :=
  .next (if s.dev.ready && s.fuses.lifecycle == 1 then
      { s with fuses := s.fuses.program i (s.dev.get Bar.SEC_CRED_PK_PK i) (s.dev.get Bar.SEC_CRED_CTL_ROLE i) }
    else s)

def execCredRevoke (i : Nat) (s : State) : Out := .next (if s.dev.ready then { s with fuses := s.fuses.revoke i } else s)

/-! ## The attestation report (R409) -/

def bit (b : Bool) (n : Nat) : Nat := if b then n else 0

/-- Bytes 0 to 663 of a report. -/
def State.reportBody (s : State) (a : Nat) (nonce : List Byte) : List Byte :=
  let d := s.dev
  let cal := d.flag Bar.MGT_PTP_STATUS_VALID
  let flags := bit cal 1 + bit (d.flag Bar.SEC_STATUS_TAMPERED) 2 + bit (d.flag Bar.SEC_ALT_FAB_EN a) 4 +
    bit (d.flag Bar.SEC_ALT_REMOVED a) 8
  let gen := match d.activeKey a with
    | some _ => if d.get Bar.SEC_ALT_ACT_SLOT a = 0 then d.get Bar.SEC_ALT_A_GEN a else d.get Bar.SEC_ALT_B_GEN a
    | none => 0
  toLe 4 0x00010000 ++ toLe 2 0x7290 ++ toLe 1 0xA0 ++ toLe 1 s.fuses.lifecycle ++ toLe 8 s.fuses.serial ++
    toLe 2 s.fuses.tamperCount ++ toLe 1 a ++ toLe 1 flags ++ toLe 4 d.mapEpoch ++ toLe 4 d.mbrEpoch ++ toLe 4 0 ++
    (nonce ++ List.replicate 32 0).take 32 ++ toLe 8 d.now ++ toLe 8 (if cal then d.calNow else 0) ++
    ((List.range 6).flatMap fun n => toLe 64 (d.get Bar.SEC_MEAS_DIGEST n)) ++
    toLe 64 (d.get Bar.SEC_ALT_OWNER_DIGEST a) ++ toLe 2 gen ++ toLe 6 0 ++
    toLe 64 (d.slotsDigest (if a = 0 then none else some a)) ++ toLe 64 (d.get Bar.SEC_ID_PK_PK)

/-- A report with its signature. -/
def State.signedReport (s : State) (a : Nat) (nonce : List Byte) : List Byte :=
  let b := s.reportBody a nonce
  b ++ Config.slhSign s.fuses.idSeed b

/-! ## The sign engine (R410) -/

/-- SIGN_QUEUE counts the requests that wait behind the one in progress. -/
def Dev.setSigning (d : Dev) (l : List SignJob) : Dev :=
  ({ d with sec := { d.sec with signing := l } }).set Bar.SEC_STATUS_SIGN_QUEUE (l.length - 1)

/-- One request signs and at most 8 wait. -/
def Dev.signFull (d : Dev) : Bool := 9 ≤ d.sec.signing.length

end Sys2Proof.Machine
end

