-- ==== Sys2Proof/Machine/Spdm.lean ====
section
/-! DEFINITION. The SPDM responder, its fabric mailbox, the sign engine's work, and the READ and WRITE of a delivered frame
(R410-R416). A row names a request that has arrived whole on a transport; the wire format of SPDM messages is the SPDM
standard's. -/

namespace Sys2Proof.Machine

def SpdmErr.code : SpdmErr → Nat
  | .unspecified => 0
  | .busy => 1
  | .responseNotReady => 2
  | .sessionLimitExceeded => 3
  | .unexpectedRequest => 4

/-- A number for each response, for the opaque encoding. -/
def SpdmAns.code : SpdmAns → Nat
  | .version => 1
  | .capabilities => 2
  | .algorithms => 3
  | .digests => 4
  | .certificate => 5
  | .challengeAuth => 6
  | .measurements => 7
  | .keyExchangeRsp => 8
  | .finishRsp => 9
  | .heartbeatAck => 10
  | .keyUpdateAck => 11
  | .endSessionAck => 12
  | .chunkSendAck => 13
  | .chunkResponse => 14
  | .vendor st => 256 + st
  | .error e => 1024 + e.code

/-- Transports: 0 PF0's DOE mailbox, 1 + endpoint the fabric mailbox. -/
def viaKey : SpdmVia → Nat
  | .doe _ => 0
  | .fabric ep _ => 1 + ep
def viaSession : SpdmVia → Option Nat
  | .doe x => x
  | .fabric _ x => x

/-! ## Answers (R413) -/

def Dev.putMbox (d : Dev) (ep : Nat) (m : Mbox) : Dev := { d with sec := { d.sec with mailbox := kvPut d.sec.mailbox ep m } }

/-- An answer leaves by the DOE mailbox, or waits in the fabric mailbox with the 8-byte binding header. -/
def Dev.spdmSend (d : Dev) (via : SpdmVia) (ans : SpdmAns) (body : List Byte) : Dev :=
  match via with
  | .doe _ => d.emit (.spdm via ans body)
  | .fabric ep x =>
    match kvGet? d.sec.mailbox ep with
    | none => d
    | some m =>
      let bs := Config.spdmBytes ans.code body
      d.putMbox ep { m with
        answer := some (toLe 4 bs.length ++ toLe 1 (if x.isSome then 2 else 1) ++ toLe 3 0 ++ bs), since := d.now }

/-- Every byte of a mailbox message has been written, and it has no answer yet. -/
def Mbox.ready (m : Mbox) : Bool :=
  m.answer.isNone && (match m.total with
    | none => false
    | some t => (List.range ((t + 8 + 4095) / 4096)).all fun i =>
        decide (min 4096 (t + 8 - 4096 * i) ≤ (kvGetD m.frags i []).length))

/-- A request waits on the transport. -/
def Dev.spdmWaits (d : Dev) : SpdmVia → Bool
  | .doe _ => true
  | .fabric ep _ => match kvGet? d.sec.mailbox ep with
    | some m => m.ready
    | none => false

/-- The session that secures a request, when it lives on that transport. -/
def Dev.spdmSession (d : Dev) (via : SpdmVia) : Option (Nat × Spdm) :=
  match viaSession via with
  | none => none
  | some id => match kvGet? d.sec.spdm id with
    | some x => if x.via = viaKey via then some (id, x) else none
    | none => none

/-- Serve a request: BLANK answers ERROR Unspecified, as does a request under no live session. -/
def State.spdm (s : State) (via : SpdmVia) (f : Dev → Dev) : State :=
  if !s.dev.runs || !s.dev.spdmWaits via then s
  else if s.fuses.lifecycle = 0 || ((viaSession via).isSome && (s.dev.spdmSession via).isNone) then
    s.onDev fun d => d.spdmSend via (.error .unspecified) []
  else s.onDev f

/-- A request that needs a signature: none without the identity key; a ninth waiting one is answered Busy (R410, R428). -/
def Dev.askSign (d : Dev) (via : SpdmVia) (j : SignJob) (f : Dev → Dev) : Dev :=
  if !d.sec.idKey then d
  else if d.signFull then d.spdmSend via (.error .busy) []
  else
    let d1 := (f d).setSigning (d.sec.signing ++ [j])
    match via with
    | .doe _ => d1
    | .fabric _ _ => d1.spdmSend via (.error .responseNotReady) []

/-! ## Requests (R412) -/

def execGetVersion (via : SpdmVia) (s : State) : Out :=
  .next (s.spdm via fun d => d.spdmSend via .version [0x12, 0x13])

def execGetCapabilities (via : SpdmVia) (_msg : List Byte) (s : State) : Out :=
  .next (s.spdm via fun d => d.spdmSend via .capabilities (toLe 4 4096 ++ toLe 4 65536))

/-- Extended algorithms 1 (signature), 2 (key exchange), 3 (measurement hash). -/
def execNegotiateAlgorithms (via : SpdmVia) (_msg : List Byte) (s : State) : Out :=
  .next (s.spdm via fun d => d.spdmSend via .algorithms (toLe 2 1 ++ toLe 2 2 ++ toLe 2 3))

def chainDigest : List Byte := toLe 48 (Config.sha384 Config.certChain)

def execGetDigests (via : SpdmVia) (_msg : List Byte) (s : State) : Out :=
  .next (s.spdm via fun d => d.spdmSend via .digests chainDigest)

/-- Slot 0 holds the chain; slots 1 to 7 are empty (R407). -/
def execGetCertificate (via : SpdmVia) (slot off len : Nat) (s : State) : Out :=
  .next (s.spdm via fun d =>
    let c := Config.certChain.drop off
    if slot = 0 then
      d.spdmSend via .certificate (toLe 2 (min len c.length) ++ toLe 2 (c.length - len) ++ c.take len)
    else d.spdmSend via (.error .unspecified) [])

def execChallenge (via : SpdmVia) (msg : List Byte) (s : State) : Out :=
  .next (s.spdm via fun d => d.askSign via (.spdm via .challengeAuth (chainDigest ++ msg)) id)

/-- Measurement blocks: index 0 asks for their number, 1 to 6 for one, 255 for all. -/
def Dev.measBlocks (d : Dev) (index : Nat) : Option (List Byte) :=
  if index = 0 then some (toLe 1 6)
  else if index ≤ 6 then some (toLe 64 (d.get Bar.SEC_MEAS_DIGEST (index - 1)))
  else if index = 255 then some ((List.range 6).flatMap fun n => toLe 64 (d.get Bar.SEC_MEAS_DIGEST n))
  else none

def execGetMeasurements (via : SpdmVia) (index : Nat) (signed : Bool) (msg : List Byte) (s : State) : Out :=
  .next (s.spdm via fun d =>
    match d.measBlocks index with
    | none => d.spdmSend via (.error .unspecified) []
    | some b =>
      if signed then d.askSign via (.spdm via .measurements (b ++ msg)) id else d.spdmSend via .measurements b)

/-- KEY_EXCHANGE opens a session's handshake; the seventeenth session is refused. -/
def execKeyExchange (via : SpdmVia) (ek msg : List Byte) (s : State) : Out :=
  .next (s.spdm via fun d =>
    if 16 ≤ d.sec.spdm.length then d.spdmSend via (.error .sessionLimitExceeded) []
    else
      let r := d.fresh
      let k := Config.kemEncaps ek r.1
      let n := d.sec.spdmNext
      d.askSign via (.spdm via .keyExchangeRsp (toLe 2 n ++ k.1 ++ msg)) fun _ =>
        { r.2 with sec := { r.2.sec with
          spdmNext := n + 1
          spdm := kvPut r.2.sec.spdm n { via := viaKey via, isOpen := false, secret := k.2, owner := 0, keyGen := 0 } } })

def Dev.endSpdm (d : Dev) (id : Nat) : Dev := { d with sec := { d.sec with spdm := kvDel d.sec.spdm id } }

/-- FINISH: with a requester key, its signature over the session's secret authenticates the requester (R411). -/
def Dev.spdmFinish (d : Dev) (via : SpdmVia) (pk proof : List Byte) : Dev :=
  match d.spdmSession via with
  | none => d.spdmSend via (.error .unexpectedRequest) []
  | some (id, x) =>
    if x.isOpen then d.spdmSend via (.error .unexpectedRequest) []
    else if !pk.isEmpty && !Config.slhVerify (leNat pk) (toLe 32 x.secret) proof then
      (d.endSpdm id).spdmSend via (.error .unspecified) []
    else
      let y := { x with isOpen := true, owner := if pk.isEmpty then 0 else Config.shake256 pk }
      ({ d with sec := { d.sec with spdm := kvPut d.sec.spdm id y } }).spdmSend via .finishRsp []

def execFinish (via : SpdmVia) (requesterPk proof : List Byte) (s : State) : Out :=
  .next (s.spdm via fun d => d.spdmFinish via requesterPk proof)

/-- A request that only an open session may make. -/
def Dev.inSession (d : Dev) (via : SpdmVia) (f : Nat → Spdm → Dev) : Dev :=
  match d.spdmSession via with
  | some (id, x) => if x.isOpen then f id x else d.spdmSend via (.error .unexpectedRequest) []
  | none => d.spdmSend via (.error .unexpectedRequest) []

def execSpdmHeartbeat (via : SpdmVia) (s : State) : Out :=
  .next (s.spdm via fun d => d.inSession via fun _ _ => d.spdmSend via .heartbeatAck [])

def execKeyUpdate (via : SpdmVia) (op : Nat) (s : State) : Out :=
  .next (s.spdm via fun d => d.inSession via fun id x =>
    ({ d with sec := { d.sec with spdm := kvPut d.sec.spdm id { x with keyGen := x.keyGen + 1 } } }).spdmSend via
      .keyUpdateAck (toLe 1 op))

def execEndSession (via : SpdmVia) (s : State) : Out :=
  .next (s.spdm via fun d => d.inSession via fun id _ => (d.spdmSend via .endSessionAck []).endSpdm id)

/-- CHUNK_SEND gathers a large message, at most MaxSPDMmsgSize; its request has a row of its own. -/
def execChunkSend (via : SpdmVia) (seq : Nat) (_last : Bool) (chunk : List Byte) (s : State) : Out :=
  .next (s.spdm via fun d =>
    let bs := (if seq = 0 then [] else kvGetD d.sec.chunks (viaKey via) []) ++ chunk
    if 65536 < bs.length then
      ({ d with sec := { d.sec with chunks := kvDel d.sec.chunks (viaKey via) } }).spdmSend via (.error .unspecified) []
    else
      ({ d with sec := { d.sec with chunks := kvPut d.sec.chunks (viaKey via) bs } }).spdmSend via .chunkSendAck
        (toLe 2 seq))

/-- CHUNK_GET returns a piece of at most DataTransferSize of the large message gathered on the transport. -/
def execChunkGet (via : SpdmVia) (seq : Nat) (s : State) : Out :=
  .next (s.spdm via fun d =>
    let bs := kvGetD d.sec.chunks (viaKey via) []
    if bs.length ≤ 4096 * seq then d.spdmSend via (.error .unspecified) []
    else d.spdmSend via .chunkResponse (toLe 2 seq ++ (bs.drop (4096 * seq)).take 4096))

/-! ## Vendor-defined requests (R411, R416) -/

/-- The session was mutually authenticated with the owner's key. -/
def Dev.ownerSession (d : Dev) (via : SpdmVia) (a : Nat) : Bool :=
  match d.spdmSession via with
  | some (_, x) => x.isOpen && d.get Bar.SEC_ALT_OWNER_DIGEST a != 0 && x.owner == d.get Bar.SEC_ALT_OWNER_DIGEST a
  | none => false

def Dev.reportAllowed (d : Dev) (via : SpdmVia) (a : Nat) : Bool :=
  a == 0 || d.ownerSession via a || (match via with
    | .doe _ => true
    | .fabric _ _ => false)

def execGetReport (via : SpdmVia) (a : Nat) (nonce : List Byte) (s : State) : Out :=
  .next (s.spdm via fun d =>
    if !d.reportAllowed via a then d.spdmSend via (.error .unexpectedRequest) []
    else if 256 ≤ a || d.altState a != 1 then d.spdmSend via (.vendor Code.access) []
    else d.askSign via (.report via a nonce) id)

/-- A key request: authorised, of an ACTIVE allotment that is not REMOVED. -/
def State.keyRequest (s : State) (via : SpdmVia) (a : Nat) (f : Dev → Option Dev) : State :=
  s.spdm via fun d =>
    if 256 ≤ a || !d.ownerSession via a || d.altState a != 1 || d.flag Bar.SEC_ALT_REMOVED a then
      d.spdmSend via (.vendor Code.access) []
    else match f d with
      | some d1 => d1.spdmSend via (.vendor Code.ok) []
      | none => d.spdmSend via (.vendor Code.access) []

/-- Provisioning is refused without the identity key and after RETURNED (R405, R428). -/
def execProvisionFabric (via : SpdmVia) (a gen : Nat) (key : List Byte) (s : State) : Out :=
  .next (s.keyRequest via a fun d => if d.sec.idKey && s.fuses.lifecycle != 3 then
    some (d.provision a gen (leNat key)) else none)

def execRoll (via : SpdmVia) (a : Nat) (s : State) : Out := .next (s.keyRequest via a fun d => d.rollKeys a)

def execRetireOld (via : SpdmVia) (a : Nat) (s : State) : Out := .next (s.keyRequest via a fun d => some (d.retireOldKey a))

/-! ## Signatures (R410, R424) -/

def Dev.modIfr (d : Dev) (n : Nat) (f : Ifr → Ifr) : Dev := { d with sec := { d.sec with ifr := kvMod d.sec.ifr n f } }

/-- The lane and answer of an Iferic session. -/
def Dev.ifrSend (d : Dev) (n code status : Nat) (body : List Byte) : Dev := d.emit (.iferic n code status body)

/-- The sign engine finishes a request and takes the next. -/
def State.signed (s : State) : State :=
  match s.dev.sec.signing with
  | [] => s
  | j :: js =>
    let t := s.onDev fun d => d.setSigning js
    match j with
    | .spdm via ans body => t.onDev fun d => d.spdmSend via ans (body ++ Config.slhSign s.fuses.idSeed body)
    | .report via a nonce => t.onDev fun d => d.spdmSend via (.vendor Code.ok) (s.signedReport a nonce)
    | .hello n hello ct nonce =>
      let rsp := toLe 4 n ++ ct ++ s.signedReport 0 nonce
      t.onDev fun d => (d.modIfr n fun x => { x with
        phase := 1, deadline := d.now + 10000000000, digest := Config.shake256 (hello ++ rsp) }).ifrSend n 2 Code.ok rsp
    | .ifrReport n a nonce => t.onDev fun d => d.ifrSend n 9 Code.ok (s.signedReport a nonce)

def execSignatureDone (s : State) : Out := .next (if s.dev.runs then s.signed else s)

/-! ## The fabric mailbox (R413) -/

/-- The offset of a mailbox address in its span. -/
def mboxOff (f : Frame) : Nat := Frame.addr f % 2 ^ 40

/-- A fragment of a request: fragment 0 begins a new message. -/
def Dev.mboxWrite (d : Dev) (f : Frame) : Dev :=
  let i := mboxOff f / 4096
  let old := kvGet? d.sec.mailbox f.srcEp
  if !mailboxFrame f || mboxOff f % 4096 != 0 || decide (16 < i) then d.nak (.memSide 0) f Code.access
  else if old.isNone && decide (16 ≤ d.sec.mailbox.length) then d.nak (.memSide 0) f Code.busy
  else
    let m : Mbox := if i = 0 then ⟨[(0, f.payload)], some (leNat (f.payload.take 4)), none, d.now⟩
      else match old with
        | some m => { m with frags := kvPut m.frags i f.payload }
        | none => ⟨[(i, f.payload)], none, none, d.now⟩
    (d.putMbox f.srcEp m).sendPlain (.memSide 0) (d.answer f Ty.writeAck 5 Code.ok 0 0 [])

/-- A READ of the answer: BUSY before it is ready, zeros beyond its end. -/
def Dev.mboxRead (d : Dev) (f : Frame) : Dev :=
  let off := mboxOff f - 2 ^ 39
  if !mailboxFrame f || !legal f || decide (mboxOff f < 2 ^ 39) || decide (17 * 4096 ≤ off) then
    d.nak (.memSide 0) f Code.access
  else match (kvGet? d.sec.mailbox f.srcEp).bind Mbox.answer with
    | none => d.nak (.memSide 0) f Code.busy
    | some bs =>
      let n := reqLen f
      d.sendPlain (.memSide 0) (d.answer f Ty.readResp 5 Code.ok 0 0
        (((bs.drop off).take n ++ List.replicate n 0).take n))

/-- A held answer is discarded after 10 s. -/
def Dev.answerExpires (d : Dev) (ep : Nat) : Dev :=
  match kvGet? d.sec.mailbox ep with
  | some m =>
    if m.answer.isSome && decide (m.since + 10000000000 ≤ d.now) then
      { d with sec := { d.sec with mailbox := kvDel d.sec.mailbox ep } }
    else d
  | none => d

def execSpdmAnswerExpiry (ep : Nat) (s : State) : Out := .next (s.live fun d => d.answerExpires ep)

/-! ## READ and WRITE of a delivered frame (R75-R79, R413, R449) -/

def execRead (die : Nat) (src : TPort) (f : Frame) (s : State) : Out :=
  .next (s.live fun d =>
    if f.type = Ty.read then
      match d.recv (.memSide (die % 2)) f with
      | (some g, d1) => if inMailbox g then d1.mboxRead g else d1.takeRead (die % 2) src g
      | (none, d1) => d1
    else d)

/-- A WRITE that is no mirror push. -/
def execWrite (f : Frame) (s : State) : Out :=
  .next (s.live fun d =>
    if f.type = Ty.write ∧ ¬ isPush f then
      d.atHome f fun d src g => if inMailbox g then d.mboxWrite g else d.takeWrite (d.frameDie g) src g
    else d)

end Sys2Proof.Machine
end

