-- ==== Sys2Proof/Machine/Membership.lean ====
section
/-! DEFINITION. Membership, mirroring and recovery among packages (chapter 20): heartbeats and dead declarations, EPOCH
frames, the installed epoch, fencing, forming and joining, and ATTACH. -/

namespace Sys2Proof.Machine

/-! ## The member table (R430, R436) -/

def Dev.memIsIn (d : Dev) (i : Nat) : Bool := d.memValid i && d.flag Bar.MBR_MEMBER_IN i
def Dev.memVoter (d : Dev) (i : Nat) : Bool := d.memValid i && d.flag Bar.MBR_MEMBER_VOTER i
def Dev.selfIdx (d : Dev) : Nat := d.get Bar.MBR_ID_SELF
def Dev.isMember (d : Dev) : Bool := d.get Bar.MBR_STATUS_STATE == 1
def Dev.isAlone (d : Dev) : Bool := d.get Bar.MBR_STATUS_STATE == 0
def Dev.formed (d : Dev) : Bool := d.flag Bar.MBR_STATUS_FORMED

/-- A timer of MBR_CFG in force: new values apply from the next heartbeat window (R454). -/
def Dev.timer (d : Dev) (f : Fld) : Nat := if d.now < d.mbr.cfgFrom then slice d.mbr.oldCfg f.hi f.lo else d.get f

/-- Before a write of MBR_CFG: its timers stay in force up to the next heartbeat window. -/
def Dev.keepTimers (d : Dev) : Dev :=
  if d.now < d.mbr.cfgFrom then d
  else
    let hb := 1000 * max 1 (d.get Bar.MBR_CFG_HB_US)
    { d with mbr := { d.mbr with oldCfg := d.word Bar.MBR_CFG, cfgFrom := (d.now / hb + 1) * hb } }

/-- The coordinator of the package (R436). -/
def Dev.coordinator (d : Dev) : Option Nat :=
  (List.range 1024).find? fun i => d.memIsIn i && d.memVoter i && !d.flag Bar.MBR_MEMBER_DEAD i

def Dev.isCoordinator (d : Dev) : Bool := d.coordinator == some d.selfIdx

/-- V: the number of configured voters. -/
def Dev.voters (d : Dev) : Nat := ((List.range 1024).filter d.memVoter).length

/-! ## EPOCH frames (R437) -/

/-- Send an EPOCH record to an endpoint. A fenced package sends none but FETCH (R445). -/
def Dev.sendEpoch (d : Dev) (ep kind flags subject w6 w7 : Nat) (payload : List Byte) : Dev :=
  if d.isFenced then d
  else d.sendPlain (.memSide 0) (d.newFrame Ty.epoch 7 0 ep 0 0 0 (kind * 2 ^ 28 + flags * 2 ^ 27 + subject % 2 ^ 16) w6 w7
    payload)

/-- A member of a list: the endpoint, and bit 16 for a voter. -/
def memberBytes (m : Nat) : List Byte := toLe 2 (m % 65536) ++ [BitVec.ofNat 8 (m / 65536 % 2), 0]

def listBytes (ms : List Nat) : List Byte := ms.flatMap memberBytes

def listOf (bs : List Byte) : List Nat :=
  (List.range (bs.length / 4)).map fun i => leNat ((bs.drop (4 * i)).take 2) + 65536 * ((bs.getD (4 * i + 2) 0).toNat % 2)

def listsEp (ms : List Nat) (ep : Nat) : Bool := ms.any fun m => m % 65536 == ep

/-- The list entry of an endpoint. -/
def Dev.memberOf (d : Dev) (ep : Nat) : Nat :=
  ep + (match d.memIdx ep with
    | some i => if d.memVoter i then 65536 else 0
    | none => 0)

/-- Take a delivered EPOCH frame: checks 2 and 3 of R75 do not apply to it. A fenced package handles
none, but asks for a newer epoch that it sees (R442, R445). -/
def Dev.epochFrame (d0 : Dev) (f : Frame) (kind : Nat) (act : Dev → Frame → Dev) : Dev :=
  if f.type = Ty.epoch ∧ f.w5 >>> 28 % 16 = kind then
    let d := d0.taken f
    if !d0.inTurn f then d0
    else if wrongLength f then d.bump Bar.LNK_MFP_DROP_MALFORMED 1
    else if f.badTail && f.len != 0 then d
    else
      let d1 := if d.isFenced then d else act d f
      if newer f.mbrEpoch d1.mbrEpoch then d1.fetchEpoch f.srcEp else d1
  else d0

/-! ## Fencing (R443, R445) -/

/-- The package enters FENCED; `seen` and `by` are the fencing epoch and its sender. -/
def Dev.fence (d : Dev) (seen src : Nat) (self : Bool) : Dev :=
  let d1 := d.mbr.attaches.foldl (fun d e => d.endAttach e.1 Code.fenced) d
  let d2 := ((((d1.set Bar.MBR_STATUS_STATE 2).set Bar.MBR_FENCE_SEEN_EPOCH seen).set Bar.MBR_FENCE_BY_EP src).set
    Bar.MBR_FENCE_SELF_FENCED (if self then 1 else 0)).stopInvs Code.fenced fun _ => true
  let d3 : Dev := { d2 with mbr := { d2.mbr with own := none, decideEnd := none, joining := none } }
  (((d3.alm1 Blk.mbr 0x02 d.selfIdx 0 0 (seen + src * 2 ^ 32)).alert Blk.mbr).sysVec Blk.mbr).notifyAll 0x07 seen

/-! ## Installing an epoch (R441, R453) -/

/-- The ranges that an endpoint has lent are withdrawn without an answer. -/
def Dev.withdrawAll (d : Dev) (ep : Nat) : Dev :=
  (List.range 1024).foldl (fun d i =>
    if d.flag Bar.MEM_LEND_VALID i && d.get Bar.MEM_LEND_LENDER_EP i == ep && (kvGet? d.pool.withdraw i).isNone then
      let d1 : Dev := { d with pool := { d.pool with withdraw := kvPut d.pool.withdraw i none } }
      match d1.objOf (d.get Bar.MEM_LEND_POOL_PAGE i) with
      | some n => d1.setLost n
      | none => d1
    else d) d

/-- A mirror push. -/
def isMirror : Cont → Bool
  | .mirror _ _ _ _ _ => true
  | _ => false

/-- Mirror pushes to an endpoint end at once, without a record. -/
def Dev.endPushes (d : Dev) (ep : Nat) : Dev :=
  { d with
    reqs := d.reqs.filter fun e => !(isMirror e.2.cont && e.2.f.dstEp == ep)
    mbr := { d.mbr with pushes := d.mbr.pushes.filter fun e => !(isMirror e.2.2 && e.2.1.dstEp == ep) } }

/-- A session entry at the removal of an endpoint (R453). -/
def Dev.sessionRemoved (d : Dev) (ep id : Nat) : Dev :=
  if d.ses id Ses.MIRROR_EP ≠ ep then d
  else if d.ses id Ses.STATE = 2 then
    if d.ses id Ses.MIRROR_OK = 1 then (d.promoteCopy id).bump Bar.MBR_STAT_PROMOTED 1
    else ((d.setSes id Ses.STATE 3).notify (d.ses id Ses.ALLOT) 0x02 id).bump Bar.MBR_STAT_LOST 1
  else if d.ses id Ses.STATE = 1 then d.breakMirror id
  else d

/-- What the install does for an endpoint that is no longer a member. -/
def Dev.endpointOut (d0 : Dev) (ep : Nat) : Dev :=
  let d : Dev := { d0 with mbr := { d0.mbr with fenced := setIns ep d0.mbr.fenced } }
  let d1 := match d.agentIdx ep with
    | some i => (d.set Bar.COH_AGENT_FENCED 1 i).startReclaim i false
    | none => d
  let d2 := (d1.withdrawAll ep).endPushes ep
  let d3 := d2.mbr.attaches.foldl (fun d e => if e.2.ep = ep then d.endAttach e.1 Code.access else d) d2
  (kvKeys d3.sess).foldl (fun d id => d.sessionRemoved ep id) d3

/-- What the install does for an endpoint that becomes a member. -/
def Dev.endpointIn (d0 : Dev) (ep : Nat) : Dev :=
  let d : Dev := { d0 with mbr := { d0.mbr with fenced := setDel ep d0.mbr.fenced } }
  match d.agentIdx ep with
  | some i => d.set Bar.COH_AGENT_FENCED 0 i
  | none => d

/-- Install an epoch whose list names the package; the words 5 to 7 and the payload of its COMMIT are kept. -/
def Dev.installEpoch (d : Dev) (epoch : Nat) (formed : Bool) (src w5 w7 : Nat) (payload : List Byte) : Dev :=
  let ms := listOf payload
  let valid := (List.range 1024).filter d.memValid
  let out := (valid.filter fun i => d.memIsIn i && !listsEp ms (d.memEp i)).map d.memEp
  let new := valid.filter fun i => !d.memIsIn i && listsEp ms (d.memEp i)
  let d1 := valid.foldl (fun d i =>
    (d.set Bar.MBR_MEMBER_IN (if listsEp ms (d.memEp i) then 1 else 0) i).set Bar.MBR_MEMBER_DEAD 0 i) d
  let d2 := (d1.set Bar.MBR_STATUS_EPOCH epoch).set Bar.MBR_STATUS_STATE 1
  let d3 := if formed then d2.set Bar.MBR_STATUS_FORMED 1 else d2
  let d4 : Dev := { d3 with mbr := { d3.mbr with
    suspects := [], own := none, decideEnd := none, joining := none, hbSeq := 0
    joiners := d.mbr.joiners.filter fun e => !listsEp ms e
    inNs := new.foldl (fun m i => kvPut m i d.now) d3.mbr.inNs
    commit := some (w5, epoch, w7, payload) } }
  let d5 := out.foldl Dev.endpointOut d4
  let d6 := (new.map d.memEp).foldl Dev.endpointIn d5
  ((d6.bump Bar.MBR_STAT_INSTALLED 1).alm1 Blk.mbr 0x01 d.selfIdx 0 0 (epoch + src * 2 ^ 32)).sysVec Blk.mbr

/-- A COMMIT newer than the package's epoch: an install, or FENCED (R441). -/
def Dev.takeCommit (d : Dev) (epoch : Nat) (formed : Bool) (src w5 w7 : Nat) (payload : List Byte) : Dev :=
  if newer epoch d.mbrEpoch then
    if listsEp (listOf payload) d.myEp then d.installEpoch epoch formed src w5 w7 payload
    else d.fence epoch src false
  else d

def execCommit (f : Frame) (s : State) : Out :=
  .next (s.live fun d => d.epochFrame f 0x5 fun d f =>
    d.takeCommit f.w6 (f.w5.testBit 27) f.srcEp (f.w5 % 2 ^ 32) f.w7 f.payload)

/-! ## Deciding an epoch (R438-R440, R443) -/

/-- The deadline of R443 runs from its first event. -/
def Dev.startDeadline (d : Dev) : Dev :=
  if d.formed && d.mbr.decideEnd.isNone then
    { d with mbr := { d.mbr with decideEnd := some (d.now + 1000 * d.timer Bar.MBR_CFG_DECIDE_US) } }
  else d

/-- The proposed list: current members less the dead and the suspects, and the joiners; before FORMED nobody is
removed (R438, R446, R447). -/
def Dev.proposedList (d : Dev) : List Nat :=
  let keep := (List.range 1024).filter fun i => d.memIsIn i &&
    (!d.formed || (!d.flag Bar.MBR_MEMBER_DEAD i && !d.mbr.suspects.contains (d.memEp i)))
  (keep.map d.memEp ++ d.mbr.joiners.filter fun e => !d.memberIn e).eraseDups.map d.memberOf

/-- Quorum (R440). -/
def Dev.quorum (d : Dev) (accepts : List Nat) : Bool :=
  let n := (accepts.eraseDups.filter d.memVoter).length
  decide (d.voters < 2 * n) || (2 * n == d.voters && accepts.contains (d.get Bar.MBR_CFG_TIEBREAKER) &&
    d.memVoter (d.get Bar.MBR_CFG_TIEBREAKER))

/-- FORMED is set when a committed epoch lists every configured voter, and stays set. -/
def Dev.formedBy (d : Dev) (ms : List Nat) : Bool :=
  d.formed || ((List.range 1024).filter d.memVoter).all fun i => listsEp ms (d.memEp i)

/-- Step 3: COMMIT to every valid entry, then the install. -/
def Dev.sendCommit (d : Dev) (epoch : Nat) (ms : List Nat) : Dev :=
  let formed := d.formedBy ms
  let w5 := 0x5 * 2 ^ 28 + (if formed then 2 ^ 27 else 0)
  let d1 := ((List.range 1024).filter fun i => d.memValid i && d.memEp i != d.myEp).foldl (fun d i =>
    d.sendEpoch (d.memEp i) 0x5 (if formed then 1 else 0) 0 epoch d.selfIdx (listBytes ms)) d
  d1.takeCommit epoch formed d.myEp w5 d.selfIdx (listBytes ms)

def Dev.commitIfQuorum (d : Dev) : Dev :=
  match d.mbr.own with
  | none => d
  | some p => if !d.formed || d.quorum p.accepts then d.sendCommit p.epoch p.list else d

/-- Step 1: the coordinator proposes and accepts its own proposal. -/
def Dev.startProposal (d : Dev) : Dev :=
  let epoch := (d.mbrEpoch + 1) % 2 ^ 32
  let ms := d.proposedList
  let d1 : Dev := { d with mbr := { d.mbr with
    own := some ⟨epoch, d.selfIdx, ms, [d.selfIdx], d.now⟩, accepted := some (d.selfIdx, d.now) } }
  if d.formed then
    let d2 := (ms.filter fun m => 65536 ≤ m && m % 65536 != d.myEp).foldl (fun d m =>
      d.sendEpoch (m % 65536) 0x2 0 0 epoch d.selfIdx (listBytes ms)) d1
    d2.startDeadline.commitIfQuorum
  else d1.commitIfQuorum

/-- A proposal starts when none runs. -/
def Dev.proposeIfIdle (d : Dev) : Dev := if d.mbr.own.isNone then d.startProposal else d

def Dev.addSuspect (d : Dev) (ep : Nat) : Dev :=
  if d.mbr.suspects.contains ep then d else { d with mbr := { d.mbr with suspects := d.mbr.suspects ++ [ep] } }

def Dev.takeSuspect (d : Dev) (f : Frame) : Dev :=
  if d.isMember && d.memberIn f.srcEp then
    let d1 := d.addSuspect (f.w5 % 65536)
    if d1.isCoordinator && d1.formed then d1.proposeIfIdle else d1
  else d

def execSuspect (f : Frame) (s : State) : Out := .next (s.live fun d => d.epochFrame f 0x1 Dev.takeSuspect)

/-- The coordinator whose proposal the voter has accepted within PHASE_US. -/
def Dev.lastAccepted (d : Dev) : Option Nat :=
  match d.mbr.accepted with
  | some (c, t) => if d.now < t + 1000 * d.timer Bar.MBR_CFG_PHASE_US then some c else none
  | none => none

def Dev.takePropose (d : Dev) (f : Frame) : Dev :=
  let c := f.w7 % 1024
  if !d.memVoter d.selfIdx then d
  else if newer f.w6 d.mbrEpoch && (match d.lastAccepted with
      | some b => decide (c ≤ b)
      | none => true) then
    let d1 : Dev := { d with mbr := { d.mbr with accepted := some (c, d.now) } }
    (d1.sendEpoch f.srcEp 0x3 0 0 f.w6 c []).startDeadline
  else d.sendEpoch f.srcEp 0x4 0 0 d.mbrEpoch (d.lastAccepted.getD (d.coordinator.getD 0)) []

def execPropose (f : Frame) (s : State) : Out := .next (s.live fun d => d.epochFrame f 0x2 Dev.takePropose)

def Dev.takeAccept (d : Dev) (f : Frame) : Dev :=
  match d.mbr.own, d.memIdx f.srcEp with
  | some p, some i =>
    if f.w6 = p.epoch ∧ f.w7 % 1024 = p.coord ∧ d.memVoter i ∧ ¬ p.accepts.contains i then
      ({ d with mbr := { d.mbr with own := some { p with accepts := p.accepts ++ [i] } } }).commitIfQuorum
    else d
  | _, _ => d

def execAccept (f : Frame) (s : State) : Out := .next (s.live fun d => d.epochFrame f 0x3 Dev.takeAccept)

/-- The members that the package suspects: declared dead, or named in a SUSPECT. -/
def Dev.suspectEps (d : Dev) : List Nat :=
  ((List.range 1024).filter fun i => d.memIsIn i && (d.flag Bar.MBR_MEMBER_DEAD i || d.mbr.suspects.contains (d.memEp i))).map
    d.memEp

def Dev.takeReject (d : Dev) (f : Frame) : Dev :=
  let d1 := d.bump Bar.MBR_STAT_REJECTS 1
  let c := f.w7 % 1024
  if d1.isAlone then { d1 with mbr := { d1.mbr with joining := none } }
  else match d1.mbr.own with
    | some p =>
      if c < p.coord then
        let d2 : Dev := { d1 with mbr := { d1.mbr with own := none } }
        d2.suspectEps.foldl (fun d ep => d.sendEpoch (d.memEp c) 0x1 0 ep d.mbrEpoch 0 []) d2
      else d1
    | none => d1

def execReject (f : Frame) (s : State) : Out := .next (s.live fun d => d.epochFrame f 0x4 Dev.takeReject)

/-- A JOIN record (R447). -/
def Dev.takeJoin (d : Dev) (f : Frame) : Dev :=
  let ep := f.w5 % 65536
  if !d.isMember then d
  else if d.isCoordinator then
    if (d.memIdx ep).isSome then
      ({ d with mbr := { d.mbr with
        joiners := if d.mbr.joiners.contains ep then d.mbr.joiners else d.mbr.joiners ++ [ep] } }).proposeIfIdle
    else d.sendEpoch ep 0x4 0 0 d.mbrEpoch d.selfIdx []
  else match d.coordinator with
    | some c => d.sendEpoch (d.memEp c) 0x6 0 ep 0 0 []
    | none => d

/-- JOINs that came while another proposal ran are proposed once none runs. -/
def Dev.pumpJoins (d : Dev) : Dev :=
  if d.isMember && d.isCoordinator && d.mbr.own.isNone && !d.mbr.joiners.isEmpty then d.startProposal else d

def execEpochJoin (f : Frame) (s : State) : Out := .next (s.live fun d => d.epochFrame f 0x6 Dev.takeJoin)

/-- A delivered frame that no unit of a package takes: an EPOCH of a reserved KIND is dropped (R437); so are a RESULT and a
NOTIFY, which are for accelerators and agents. DESIGN CHOICE (log entry 84) for those two. -/
def unclaimed (f : Frame) : Bool :=
  f.type == Ty.result || f.type == Ty.notify ||
    (f.type == Ty.epoch && (f.w5 >>> 28 % 16 == 0 || decide (8 < f.w5 >>> 28 % 16)))

def Dev.dropUnclaimed (d : Dev) : Dev :=
  (d.inbox.filter fun e => unclaimed e.2.1).foldl (fun d e =>
    if e.2.1.type = Ty.epoch then d.epochFrame e.2.1 (e.2.1.w5 >>> 28 % 16) fun d _ => d else (d.recv e.1 e.2.1).2) d

/-- FETCH: the latest COMMIT installed (R442). -/
def Dev.takeFetch (d : Dev) (f : Frame) : Dev :=
  match d.mbr.commit with
  | some (w5, w6, w7, bs) =>
    if d.isMember then d.sendPlain (.memSide 0) (d.newFrame Ty.epoch 7 0 f.srcEp 0 0 0 w5 w6 w7 bs) else d
  | none => d

def execFetch (f : Frame) (s : State) : Out := .next (s.live fun d => d.epochFrame f 0x7 Dev.takeFetch)

/-- PHASE_US passes without quorum: step 1 again, with the same epoch number. -/
def Dev.phaseExpires (d : Dev) : Dev :=
  match d.mbr.own with
  | some p => if p.since + 1000 * d.timer Bar.MBR_CFG_PHASE_US ≤ d.now ∧ d.isMember then d.startProposal else d
  | none => d

def execProposalPhaseExpiry (s : State) : Out := .next (s.live Dev.phaseExpires)

/-- DECIDE_US pass without a newer install: the package fences itself (R443). -/
def Dev.decideExpires (d : Dev) : Dev :=
  match d.mbr.decideEnd with
  | some t => if t ≤ d.now ∧ d.formed ∧ ¬ d.isFenced then d.fence 0 0 true else d
  | none => d

def execDecideDeadline (s : State) : Out := .next (s.live Dev.decideExpires)

/-! ## Heartbeats and dead declarations (R431, R432, R435) -/

/-- A member's heartbeat is latched. -/
def Dev.takeHeartbeat (d : Dev) (f : Frame) : Dev :=
  match d.memIdx f.srcEp with
  | some i =>
    ((d.set Bar.MBR_MEMBER_LAST_HB_NS d.now i).set Bar.MBR_MEMBER_DOMAIN (f.w5 % 65536) i).set Bar.MBR_MEMBER_DEAD 0 i
  | none => d

def execHeartbeat (f : Frame) (s : State) : Out :=
  .next (s.live fun d =>
    if f.type = Ty.heartbeat then
      match d.recv (.memSide 0) f with
      | (some g, d1) => d1.takeHeartbeat g
      | (none, d1) => d1
    else d)

/-- The heartbeats of a window of the time base. -/
def Dev.sendHeartbeats (d : Dev) : Dev :=
  let hb := 1000 * max 1 (d.timer Bar.MBR_CFG_HB_US)
  let d1 := ((List.range 1024).filter fun i => i != d.selfIdx && d.memIsIn i && d.flag Bar.MBR_MEMBER_WATCH i).foldl
    (fun d i => d.sendPlain (.memSide 0) (d.newFrame Ty.heartbeat 7 0 (d.memEp i) 0 0 0
      (d.get Bar.MBR_STATUS_STATE * 2 ^ 30 + d.get Bar.MBR_ID_FAILURE_DOMAIN) (d.mbr.hbSeq % 2 ^ 32) 0 (toLe 8 d.now))) d
  { d1 with mbr := { d1.mbr with hbSeq := d.mbr.hbSeq + 1, hbWin := (d.now / hb + 1) * hb } }

def Dev.heartbeatWindow (d : Dev) : Dev := if d.isMember && decide (d.mbr.hbWin ≤ d.now) then d.sendHeartbeats else d

def execHeartbeatWindow (s : State) : Out := .next (s.live Dev.heartbeatWindow)

/-- MISS windows have passed for member i (R435). -/
def Dev.silent (d : Dev) (i : Nat) : Bool :=
  i != d.selfIdx && d.memIsIn i && d.flag Bar.MBR_MEMBER_WATCH i && !d.flag Bar.MBR_MEMBER_DEAD i &&
  decide (max (d.get Bar.MBR_MEMBER_LAST_HB_NS i) (kvGetD d.mbr.inNs i 0) +
    1000 * d.timer Bar.MBR_CFG_HB_US * d.timer Bar.MBR_CFG_MISS ≤ d.now)

def Dev.declareDead (d : Dev) (i : Nat) : Dev :=
  let d1 := ((d.set Bar.MBR_MEMBER_DEAD 1 i).bump Bar.MBR_STAT_DECLARED 1)
  if !d1.isMember then d1
  else if d1.isCoordinator then
    if d1.formed then d1.startDeadline.proposeIfIdle else d1
  else match d1.coordinator with
    | some c => (d1.startDeadline).sendEpoch (d1.memEp c) 0x1 0 (d1.memEp i) d1.mbrEpoch 0 []
    | none => d1.startDeadline

def Dev.checkSilent (d : Dev) (i : Nat) : Dev := if i < 1024 ∧ d.silent i then d.declareDead i else d

def execDeadDeclaration (i : Nat) (s : State) : Out := .next (s.live fun d => d.checkSilent i)

/-! ## Forming, joining, rejoining (R446-R448) -/

def Dev.found (d : Dev) : Dev :=
  if d.isAlone ∧ d.mbrEpoch = 0 then
    let ms := [d.memberOf d.myEp]
    let formed := d.formedBy ms
    d.installEpoch 1 formed d.myEp (0x5 * 2 ^ 28 + (if formed then 2 ^ 27 else 0)) d.selfIdx (listBytes ms)
  else d

def execFound (s : State) : Out := .next (s.host Dev.found)

def Dev.join (d0 : Dev) (ep : Nat) : Dev :=
  let d := d0.set Bar.MBR_CTL_EP ep
  if d.isAlone && d.flag Bar.MBR_STATUS_TESTED then
    let d1 := d.sendEpoch (ep % 65536) 0x6 0 d.myEp 0 0 []
    { d1 with mbr := { d1.mbr with joining := some (d.now + 1000 * d.timer Bar.MBR_CFG_DECIDE_US) } }
  else d

def execJoin (ep : Nat) (s : State) : Out := .next (s.host fun d => d.join ep)

def Dev.joinExpires (d : Dev) : Dev :=
  match d.mbr.joining with
  | some t => if t ≤ d.now then ({ d with mbr := { d.mbr with joining := none } }).bump Bar.MBR_STAT_REJECTS 1 else d
  | none => d

def execJoinTimeout (s : State) : Out := .next (s.live Dev.joinExpires)

/-- REJOIN: the sessions and spans go, the membership starts afresh. -/
def Dev.rejoin (d : Dev) : Dev :=
  if d.isFenced then
    let d1 := (kvKeys d.sess).foldl Dev.freeSession d
    let d2 := (List.range 512).foldl (fun d i => if d.flag Bar.MEM_SPAN_VALID i then d.set Bar.MEM_SPAN_VALID 0 i else d) d1
    let d3 := ((List.range 1024).filter d.memIsIn).foldl (fun d i =>
      (d.set Bar.MBR_MEMBER_IN 0 i).set Bar.MBR_MEMBER_DEAD 0 i) d2
    let d4 := ((d3.set Bar.MBR_STATUS_EPOCH 0).set Bar.MBR_STATUS_STATE 0).set Bar.MBR_STATUS_FORMED 0
    { d4 with mbr := { d4.mbr with
      suspects := [], own := none, accepted := none, joiners := [], commit := none, inNs := [], pushes := [] } }
  else d

def execRejoin (s : State) : Out := .next (s.host Dev.rejoin)

/-! ## ATTACH (R452) -/

/-- The 4 KiB pieces of a range of the cache object. -/
def pieces4k (off n : Nat) : List Nat :=
  if n = 0 then [] else (List.range ((off + n - 1) / 4096 + 1 - off / 4096)).map (· + off / 4096)

/-- What the COPY pushes cover, in ascending order: pre-scale area, half-block tables, allocated units. -/
def Dev.attachPieces (d : Dev) (id : Nat) : List Nat :=
  let lk := d.sesLayers id * d.sesKvh id
  let units := (List.range (d.sesLayers id)).flatMap fun l => (d.usedUnits id l).flatMap fun u =>
    pieces4k (d.unitAt id l u.1 - d.areaBase id) (512 * u.2)
  (pieces4k 0 (lk * (d.sesD id / 2)) ++ pieces4k (d.offH id) (lk * d.sesCapHb id * 8) ++ units).foldl
    (fun l x => setIns x l) []

def Dev.modAttach (d : Dev) (w : Nat) (g : Attach → Attach) : Dev :=
  { d with mbr := { d.mbr with attaches := kvMod d.mbr.attaches w g } }

/-- An ATTACH has pushes in flight. -/
def Dev.attachBusy (d : Dev) (w : Nat) : Bool :=
  (d.reqs.any fun e => attachOf w e.2.cont) || d.mbr.pushes.any fun e => attachOf w e.2.2

/-- Put one push of an ATTACH in the line of its mirror. -/
def Dev.attachPush (d : Dev) (w : Nat) (a : Attach) (kind w7 flags : Nat) (bs : List Byte) : Dev :=
  let f := d.pushFrameOf a.session kind a.ep a.msession a.pseq w7 bs
  let g := { f with flags := f.flags ||| flags }
  (({ d with mbr := { d.mbr with
    pushes := d.mbr.pushes ++ [(TPort.memSide (sesDie a.session), g, Cont.attach w)] } }).modAttach w fun a =>
      { a with pseq := a.pseq + 1 }).pumpPushes

/-- Send the COPY pushes that are left, as far as tags are free and the pieces can be read. -/
def Dev.attachCopies (d : Dev) (w : Nat) : Nat → Dev
  | 0 => d
  | fuel + 1 =>
    match kvGet? d.mbr.attaches w with
    | none => d
    | some a =>
      if !d.mbr.pushes.isEmpty then d
      else match a.todo with
        | [] => d
        | o :: os =>
          let addr := d.areaBase a.session + 4096 * o
          let r := d.readyRead addr 4096
          if r.1 then
            ((r.2.modAttach w fun a => { a with todo := os }).attachPush w a 4 o
              (if r.2.rangePoisoned addr 4096 then 1 else 0) (r.2.poolBytes addr 4096)).attachCopies w fuel
          else r.2

/-- The steps of an ATTACH on the primary's side. -/
def Dev.attachStep (d : Dev) (w : Nat) : Dev :=
  match kvGet? d.mbr.attaches w with
  | none => d
  | some a =>
    let d1 := if a.phase = 0 ∧ d.atBoundary a.session then
        (d.modSess a.session fun x => { x with frozen := true }).modAttach w fun a =>
          { a with phase := 1, todo := d.attachPieces a.session }
      else d
    match kvGet? d1.mbr.attaches w with
    | none => d1
    | some b =>
      if b.phase ≠ 1 then d1
      else
        let d2 := d1.attachCopies w b.todo.length
        match kvGet? d2.mbr.attaches w with
        | none => d2
        | some c =>
          if c.todo.isEmpty && !d2.attachBusy w then
            (d2.modAttach w fun a => { a with phase := 2 }).attachPush w c 5 0 0
              ((List.range 8).flatMap fun i => toLe 8 (d2.sesWord c.session i))
          else d2

/-- All ATTACHes go on. -/
def Dev.pumpAttaches (d : Dev) : Dev := (kvKeys d.mbr.attaches).foldl Dev.attachStep d

/-- A push of an ATTACH has been answered. -/
def Dev.attachAcked (d : Dev) (w status : Nat) : Dev :=
  match kvGet? d.mbr.attaches w with
  | none => d
  | some a =>
    if status ≠ Code.ok then d.endAttach w status
    else if a.phase = 2 then d.modAttach w fun a => { a with phase := 3 }
    else
      ((d.modAttach w fun a => { a with bytes := a.bytes + 4096 }).set Bar.MBR_ATT_RESULT_BYTES (a.bytes + 4096) w).attachStep w

def Dev.attach (d : Dev) (w : Nat) : Dev :=
  let id := d.get Bar.MBR_ATT_ARG_SESSION w
  let ep := d.get Bar.MBR_ATT_ARG_MIRROR_EP w
  let refuse (st : Nat) : Dev := (d.set Bar.MBR_ATT_RESULT_STATUS st w).set Bar.MBR_ATT_RESULT_BYTES 0 w
  if !d.flag Bar.MBR_ATT_RESULT_DONE w then d
  else if d.isFenced then refuse Code.fenced
  else if (d.sesn id).isSome && d.inReset (d.ses id Ses.ALLOT) then refuse Code.resetting
  else if d.ses id Ses.STATE ≠ 1 ∨ d.disabled (d.ses id Ses.ALLOT) ∨ ¬ d.memberIn ep ∨ ep = d.myEp then refuse Code.access
  else if (match d.memIdx ep with
      | some i => d.get Bar.MBR_MEMBER_DOMAIN i == d.get Bar.MBR_ID_FAILURE_DOMAIN
      | none => true) then refuse Code.access
  else if d.mbr.attaches.any fun e => e.2.session == id then refuse Code.busy
  else
    let d1 := (d.set Bar.MBR_ATT_RESULT_DONE 0 w).set Bar.MBR_ATT_RESULT_BYTES 0 w
    ({ d1 with mbr := { d1.mbr with attaches := kvPut d1.mbr.attaches w {
        session := id, ep := ep, msession := d.get Bar.MBR_ATT_ARG_MIRROR_SESSION w, todo := [], pseq := 0,
        bytes := 0, phase := 0 } } }).attachStep w

def execAttach (w : Nat) (s : State) : Out := .next (s.window w fun d => if w < 3 then d.attach w else d)

/-- Step 5: the new mirror is named, the former copy is closed, the freeze is released. -/
def Dev.attachComplete (d : Dev) (w : Nat) : Dev :=
  match kvGet? d.mbr.attaches w with
  | none => d
  | some a =>
    if a.phase ≠ 3 then d
    else
      let id := a.session
      let oldEp := d.ses id Ses.MIRROR_EP
      let oldId := d.ses id Ses.MIRROR_SESSION
      let had := (d.ses id Ses.MIRROR_OK == 1 || oldEp != 0 || oldId != 0) && !(oldEp == a.ep && oldId == a.msession)
      let d1 := if had && d.memberIn oldEp then
          match d.sesn id with
          | some x => ({ d with mbr := { d.mbr with pushes := d.mbr.pushes ++
              [(TPort.memSide (sesDie id), d.pushFrameOf id 3 oldEp oldId x.pseq 0 [], Cont.none)] } }).pumpPushes
          | none => d
        else d
      let d2 := ((d1.setSes id Ses.MIRROR_EP a.ep).setSes id Ses.MIRROR_SESSION a.msession).setSes id Ses.MIRROR_OK 1
      (d2.modSess id fun x => { x with pseq := a.pseq }).endAttach w Code.ok

def execAttachComplete (w : Nat) (s : State) : Out := .next (s.live fun d => if w < 3 then d.attachComplete w else d)

end Sys2Proof.Machine
end

