-- ==== Sys2Proof/Machine/Power.lean ====
section
/-! DEFINITION. The time base's monitors, the supplies, power, thermal limits and ALERT_N (chapters 2 and 24). -/

namespace Sys2Proof.Machine

/-- Smallest and largest of a list, 0 for an empty one. -/
def listMin : List Nat → Nat
  | [] => 0
  | x :: xs => xs.foldl min x
def listMax (l : List Nat) : Nat := l.foldl max 0

/-- One cluster's rate at the end of a window (R29). -/
def Dev.setRate (d : Dev) (c r : Nat) : Dev :=
  let d1 := d.set Bar.TIM_WRATE_CLU_RATE r c
  d1.set Bar.TIM_WRATE_CLU_LOWEST (min (d.get Bar.TIM_WRATE_CLU_LOWEST c) r) c

/-- The low wave-rate alert at the end of a window (R31). DESIGN CHOICE (log entry 70): when several clusters share the
lowest rate, the record's UNIT is the lowest of their numbers. -/
def Dev.rateAlert (d : Dev) (rs : List Nat) : Dev :=
  let th := d.get Bar.TIM_WRATE_ALERT_THRESHOLD
  if th ≠ 0 ∧ listMin rs < th ∧ ¬ d.flag Bar.TIM_STATUS_WRATE_LOW then
    ((d.set Bar.TIM_STATUS_WRATE_LOW 1).sysVec Blk.tim).alm1 Blk.tim 0x01 (rs.idxOf (listMin rs)) 0 0
      (d.word Bar.TIM_WRATE_PKG)
  else d

/-- The end of the measuring window in progress, in time-base ns: windows are half-open and follow one another (R29, R41). -/
def Dev.winEnd (d : Dev) : Nat := d.tim.winStart + 1000 * max 1 (d.get Bar.TIM_WMON_CTL_WINDOW_US)

/-- A measuring window ends: every cluster's rate, then the package values and SEQ, and the next window starts (R29). -/
def Dev.measuringWindowEnd (d0 : Dev) (rates : List Nat) : Dev :=
  if d0.flag Bar.TIM_WMON_CTL_ENABLE && decide (d0.winEnd ≤ d0.now) then
    let d : Dev := { d0 with tim := { d0.tim with winStart := d0.winEnd } }
    let rs := (List.range 16).map fun c => min (rates.getD c 0) 65535
    let d1 := (List.range 16).foldl (fun d c => d.setRate c (rs.getD c 0)) d
    let d2 := ((d1.set Bar.TIM_WRATE_PKG_MIN (listMin rs)).set Bar.TIM_WRATE_PKG_MEAN (rs.sum / 16)).set
      Bar.TIM_WRATE_PKG_MAX (listMax rs)
    (d2.set Bar.TIM_WRATE_PKG_SEQ (d2.get Bar.TIM_WRATE_PKG_SEQ + 1)).rateAlert rs
  else d0

/-- The monitors are switched on: a window starts (R29). -/
def Dev.startWindow (d : Dev) : Dev := { d with tim := { d.tim with winStart := d.now } }

def execMeasuringWindowEnd (rates : List Nat) (s : State) : Out := .next (s.live fun d => d.measuringWindowEnd rates)

/-- The offset of die 1's copy of the time base is measured (R39). Its sign is not known, and the copy never goes back
(R40). -/
def Dev.moveDie1 (d : Dev) (skewNs : Nat) : Dev :=
  let r := d.fresh
  let x := if r.1 % 2 = 0 then d.now + skewNs else d.now - skewNs
  { r.2 with tim := { r.2.tim with die1 := max d.tim.die1 x } }

/-- A measured offset of more than 8 ns clears DIE_SYNC, with a record when it was 1; one within 8 ns sets it (R39). -/
def Dev.dieSkew (d : Dev) (skewNs : Nat) : Dev :=
  let d1 := (d.moveDie1 skewNs).set Bar.TIM_STATUS_DIE_SKEW_NS (min skewNs 65535)
  if skewNs ≤ 8 then d1.set Bar.TIM_STATUS_DIE_SYNC 1
  else if d.flag Bar.TIM_STATUS_DIE_SYNC then
    (d1.set Bar.TIM_STATUS_DIE_SYNC 0).alm1 Blk.tim 0x02 1 0 0 (min skewNs 65535)
  else d1

/-- Die 1 leaves the 8 ns of die 0 (R39). -/
def execDieSyncLost (skewNs : Nat) (s : State) : Out := .next (s.live fun d => d.dieSkew skewNs)

/-- Die 1 is back within 8 ns of die 0 (R39). -/
def execDieSyncRegained (skewNs : Nat) (s : State) : Out := .next (s.live fun d => d.dieSkew skewNs)

/-- Die 1's copy of the time base one nanosecond later: it goes on by a free step of 0 to 2 ns, which steers it to within 8 ns
of die 0 while DIE_SYNC is 1 (R39). -/
def Dev.steerDie1 (d : Dev) : Dev :=
  let r := d.fresh
  let x := d.tim.die1 + r.1 % 3
  let y := if d.flag Bar.TIM_STATUS_DIE_SYNC then clampTo (d.now - 8) (d.now + 8) x else x
  { r.2 with tim := { r.2.tim with die1 := max d.tim.die1 y } }

/-! ## Setpoint (R501-R503) -/

/-- The adaptive table's choice for a temperature: the first entry whose bound exceeds it, or the last (R501). -/
def avsPick (table : List (Int × Nat)) (t : Int) : Nat :=
  match table.findIdx? (fun e => decide (t < e.1)) with
  | some i => i
  | none => table.length - 1

/-- A signed 16-bit field. -/
def sext16 (x : Nat) : Int := if x < 32768 then Int.ofNat x else Int.ofNat x - 65536

/-- A signed value as a 16-bit field. -/
def field16 (t : Int) : Nat := (t % 65536).toNat

def Dev.tjMax (d : Dev) : Int := sext16 (d.get Bar.PWR_STATUS_TJ_MAX)

/-- The setpoint the device goes to: the table's or FIXED_MV, held at 600 mV by the thermal throttle (R503). -/
def Dev.avsGoal (d : Dev) : Nat :=
  let base := if d.flag Bar.PWR_AVS_MODE then d.get Bar.PWR_AVS_FIXED_MV else d.power.tableMv
  if d.power.mxThermal then min base 600 else base

/-- TARGET_MV is the lowest of the setpoints and the voltage reached while a step is in progress (R503). -/
def Dev.avsTarget (d : Dev) : Dev := d.set Bar.PWR_AVS_TARGET_MV (min d.avsGoal d.power.requested)

/-- The millisecond choice of a table entry in MODE 0, with 2 °C of hysteresis (R501). -/
def Dev.avsUpdate (d : Dev) : Dev :=
  if d.flag Bar.PWR_AVS_MODE || d.boot.avsTable.isEmpty then d
  else
    let t := d.tjMax
    let up := avsPick d.boot.avsTable (t - 32)
    let down := avsPick d.boot.avsTable (t + 32)
    let n := match d.power.avsEntry with
      | none => avsPick d.boot.avsTable t
      | some e => if e < up then up else if down < e then down else e
    let mv := clampTo 600 900 ((d.boot.avsTable.getD n (0, 750)).2)
    ({ d with power := { d.power with avsEntry := some n, tableMv := mv } }).avsTarget

def execAvsUpdate (s : State) : Out := .next (s.live Dev.avsUpdate)

/-- One AVSBus step of at most 10 mV toward the setpoint (R502). -/
def Dev.avsStep (d : Dev) : Dev :=
  let g := d.avsGoal
  let r := d.power.requested
  if r = g then d.avsTarget
  else
    let r' := if r < g then min g (r + 10) else max g (r - 10)
    (({ d with power := { d.power with requested := r' } }).avsTarget).emit (.avsRequest r')

def execAvsStep (s : State) : Out := .next (s.live Dev.avsStep)

/-! ## Thermal limits (R505) -/

/-- TJ_MAX is the highest of the 64 sites. -/
def Dev.updateTj (d : Dev) : Dev :=
  let t := (List.range 63).foldl (fun (m : Int) i => max m (sext16 (d.get Bar.PWR_VMON_TEMP (i + 1))))
    (sext16 (d.get Bar.PWR_VMON_TEMP 0))
  d.set Bar.PWR_STATUS_TJ_MAX (field16 t)

/-- PWR_STATUS as it reads: ALERT is 1 while ALERT_N is driven (R506). -/
def Dev.pwrStatus (d : Dev) : Nat :=
  splice (d.word Bar.PWR_STATUS) Bar.PWR_STATUS_ALERT.hi Bar.PWR_STATUS_ALERT.lo (if d.alertDriven then 1 else 0)

/-- HOT: TJ_MAX reaches PWR_THERM.HOT_C. -/
def Dev.hotCheck (d : Dev) (site : Nat) : Dev :=
  if Int.ofNat (16 * d.get Bar.PWR_THERM_HOT_C) ≤ d.tjMax ∧ ¬ d.flag Bar.PWR_STATUS_HOT then
    let d1 := d.set Bar.PWR_STATUS_HOT 1
    ((d1.alert Blk.pwr).sysVec Blk.pwr).alm1 Blk.pwr 0x01 site 0 0 (d1.alert Blk.pwr).pwrStatus
  else d

/-- DETAIL of code 0x02: PWR_STATUS, then PWR_AVS (R507). -/
def Dev.throttleDetail (d : Dev) : Nat := d.pwrStatus + d.word Bar.PWR_AVS * 2 ^ 64

/-- The thermal throttle starts at 110 °C and ends below 105 °C. -/
def Dev.throttleCheck (d : Dev) (site : Nat) : Dev :=
  if 1760 ≤ d.tjMax ∧ ¬ d.power.mxThermal then
    let d1 := ({ d with power := { d.power with mxThermal := true } }).avsTarget
    d1.alm1 Blk.pwr 0x02 site 0 0 d1.throttleDetail
  else if d.tjMax < 1680 ∧ d.power.mxThermal then
    let d1 := ({ d with power := { d.power with mxThermal := false } }).avsTarget
    d1.alm1 Blk.pwr 0x02 site 0 0 d1.throttleDetail
  else d

/-- THERMTRIP_N at 120 °C: everything stops but the VDD_AON domain, which attempts one record. -/
def Dev.tripCheck (d : Dev) (site : Nat) : Dev :=
  if 1920 ≤ d.tjMax then
    let d1 : Dev := { d with power := { d.power with tripped := true } }
    d1.alm1 Blk.pwr 0x03 site 0 0 d1.pwrStatus
  else d

/-- A die-0 junction outside −40 to 125 °C wipes the Cloche (R165). -/
def Dev.clocheTemp (d : Dev) (site : Nat) (temp : Int) : Dev :=
  if site < 32 then
    if temp < -640 ∨ 2000 < temp then
      let d1 : Dev := { d with banks := { d.banks with clocheOut := site :: d.banks.clocheOut.filter (· != site) } }
      if !d.banks.clocheOut.isEmpty then d1 else if d.runs then d1.wipeAndRekey 4 else d1.clocheWipe 4
    else { d with banks := { d.banks with clocheOut := d.banks.clocheOut.filter (· != site) } }
  else d

/-- The limits of a site in 0.1 mV: VDD_TRL at sites 16-23 of a die, VDD_LOGIC elsewhere (R28, R498). -/
def siteInRange (site mv : Nat) : Bool :=
  if 16 ≤ site % 32 && site % 32 < 24 then 7200 ≤ mv && mv ≤ 7800 else 5800 ≤ mv && mv ≤ 9200

/-- A site leaves or regains its range (R498, R506). -/
def Dev.siteCheck (d : Dev) (site mv : Nat) : Dev :=
  if siteInRange site mv then
    { d with power := { d.power with sitesOut := d.power.sitesOut.filter (· != site) } }
  else if d.power.sitesOut.contains site then d
  else
    let d1 : Dev := { d with power := { d.power with sitesOut := d.power.sitesOut ++ [site] } }
    (d1.sysVec Blk.pwr).alm1 Blk.pwr 0x04 site 0 0 (d1.word Bar.PWR_VMON site)

/-- One sample of a supply monitor site: voltage in 0.1 mV, temperature in 1/16 °C (R498, R505). -/
def Dev.supplySample (d : Dev) (site mv : Nat) (temp : Int) : Dev :=
  if site < 64 then
    let d1 := ((d.set Bar.PWR_VMON_MV (min mv 65535) site).set Bar.PWR_VMON_TEMP (field16 temp) site).updateTj
    ((((d1.siteCheck site mv).hotCheck site).throttleCheck site).clocheTemp site temp).tripCheck site
  else d

/-- The supply monitors lie on VDD_AON: without the rest of the package a sample only serves the Cloche (R165, R496). -/
def execSupplyMonitorSample (site mv : Nat) (temp : Int) (s : State) : Out :=
  .next (s.onDev fun d => if d.runs then d.supplySample site mv temp else d.clocheTemp site temp)

/-! ## Power (R504) -/

/-- Package power of rail readings, in W: 0.1 mV times mA is 10^-7 W. -/
def packageWatts (rails : List (Nat × Nat)) : Nat := (rails.map fun r => r.1 * r.2).sum / 10000000

/-- DETAIL of code 0x05: the sample count in bytes 32-33, then PWR_STATUS (R507). -/
def Dev.mxDetail (d : Dev) : Nat := d.power.overdraw % 65536 + d.pwrStatus * 65536

/-- The millisecond sample of PKG_W and the MX throttle (R504). -/
def Dev.powerSample (d : Dev) (rails : List (Nat × Nat)) : Dev :=
  let rs := (List.range 8).map fun r =>
    (min (rails.getD r (0, 0)).1 65535, min (rails.getD r (0, 0)).2 (2 ^ 32 - 1))
  let d1 := (List.range 8).foldl (fun d r =>
    (d.set Bar.PWR_RAIL_MV (rs.getD r (0, 0)).1 r).set Bar.PWR_RAIL_MA (rs.getD r (0, 0)).2 r) d
  let w := min (packageWatts rs) 65535
  let d2 := (d1.set Bar.PWR_STATUS_PKG_W w).set Bar.PWR_STATUS_PEAK_W (max (d1.get Bar.PWR_STATUS_PEAK_W) w)
  let n := if 1450 < w then d.power.overdraw + 1 else 0
  let d3 : Dev := { d2 with power := { d2.power with overdraw := n } }
  if 8 ≤ n ∧ ¬ d.power.mxPower then
    let d4 : Dev := { d3 with power := { d3.power with mxPower := true } }
    (d4.alm1 Blk.pwr 0x05 0 0 0 d4.mxDetail).sysVec Blk.pwr
  else if w ≤ 1400 ∧ d.power.mxPower then
    let d4 : Dev := { d3 with power := { d3.power with mxPower := false } }
    (d4.alm1 Blk.pwr 0x05 0 0 0 d4.mxDetail).sysVec Blk.pwr
  else d3

def execPowerSample (rails : List (Nat × Nat)) (s : State) : Out := .next (s.live fun d => d.powerSample rails)

/-! ## ALERT_N (R495, R506) -/

/-- A hold on ALERT_N ends once PF0 has cleared the block's bit and 1 ms has passed since the event. -/
def Dev.releaseAlert (d : Dev) (b : Nat) : Dev :=
  match kvGet? d.power.holds b with
  | none => d
  | some h =>
    if h.acked && decide (h.since + 1000000 ≤ d.now) then
      { d with power := { d.power with holds := kvDel d.power.holds b } }
    else d

def execAlertHoldExpiry (block : Nat) (s : State) : Out := .next (s.live fun d => d.releaseAlert block)

/-- PF0 acknowledges the events of a block. -/
def Dev.ackAlert (d : Dev) (b : Nat) : Dev :=
  ({ d with power := { d.power with holds := kvMod d.power.holds b fun h => { h with acked := true } } }).releaseAlert b

/-- A write to GEN_INT clears the PEND bits written with 1; PF0's write, and Iferic's with PF0's rights, also
acknowledges the blocks' holds on ALERT_N. No PBA bit changes and no message is sent (R493, R495, R506). -/
def Dev.genIntWrite (d : Dev) (who : Requester) (v : Nat) : Dev :=
  let d1 := d.set Bar.GEN_INT_PEND (d.get Bar.GEN_INT_PEND - (d.get Bar.GEN_INT_PEND &&& v))
  match who with
  | .gardener _ => d1
  | .vf _ => d
  | _ => ((List.range 20).filter fun b => v.testBit b).foldl Dev.ackAlert d1

end Sys2Proof.Machine
end

