-- ==== Sys2Proof/Machine/Almanac.lean ====
section
/-! DEFINITION. The Almanac, the weeding pass and the calibration block (chapter 21). -/

namespace Sys2Proof.Machine

/-! ## Flash layout (R455, R477) -/

def almBase : Nat := 0x2000000
def recBase : Nat := almBase + 0x100000
def recSlots : Nat := 114688
def calBase : Nat := 0x100000

def Dev.flashBytes (d : Dev) (a n : Nat) : List Byte := flashReads d.flash a n

/-- The bytes of a range of flash are programmed, the two MARK bytes with the rest. -/
def Dev.program (d : Dev) (a : Nat) (bs : List Byte) : Dev := { d with flash := flashWrites d.flash a bs }

def Dev.erase (d : Dev) (a n : Nat) : Dev := { d with flash := flashErase d.flash a n }

/-- The units of `size` bytes of a flash range that are not erased, rising. -/
def Dev.programmed (d : Dev) (base size n : Nat) : List Nat :=
  ((d.flash.filter fun e => base ≤ e.1 && e.1 < base + size * n).map fun e => (e.1 - base) / size).eraseDups

def Dev.marked (d : Dev) (a : Nat) : Bool := leNat (d.flashBytes a 2) == 0x5AA5

/-! ## Records (R455, R457-R462) -/

/-- The 64 bytes of a record. -/
def AlmEvent.bytes (e : AlmEvent) (cycles : Nat) : List Byte :=
  toLe 2 0x5AA5 ++ toLe 1 1 ++ toLe 1 ((if e.cal then 1 else 0) + (if e.rep then 2 else 0)) ++ toLe 4 cycles ++
    toLe 8 e.opNs ++ toLe 8 e.calNs ++ toLe 1 e.block ++ toLe 1 e.code ++ toLe 2 e.unit ++ toLe 1 e.allot ++
    toLe 1 e.status ++ toLe 2 e.count ++ toLe 32 e.detail

/-- The next slot lies beyond the record area: FULL, and block ALM's vector once. -/
def Dev.checkFull (d : Dev) : Dev :=
  if d.get Bar.ALM_STATUS_NEXT = recSlots ∧ ¬ d.flag Bar.ALM_STATUS_FULL then (d.set Bar.ALM_STATUS_FULL 1).sysVec Blk.alm
  else d

/-- Write a record into the next slot, or count it in LOST. -/
def Dev.writeRecord (d : Dev) (e : AlmEvent) : Dev :=
  if d.flag Bar.ALM_STATUS_FULL then d.bump Bar.ALM_STATUS_LOST 1
  else
    let n := d.get Bar.ALM_STATUS_NEXT
    ((d.program (recBase + 64 * n) (e.bytes (d.get Bar.ALM_LIFE_POWER_CYCLES))).set Bar.ALM_STATUS_NEXT (n + 1)).checkFull

/-- During an erase a record waits at the end of the input queue. -/
def Dev.putRecord (d : Dev) (e : AlmEvent) : Dev :=
  if d.flag Bar.ALM_STATUS_ERASING then { d with alm := { d.alm with inq := d.alm.inq ++ [e] } } else d.writeRecord e

def sameEvent (a b : AlmEvent) : Bool :=
  a.block == b.block && a.code == b.code && a.unit == b.unit && a.allot == b.allot && a.status == b.status

/-- The repeat record of a window. -/
def RepWin.event (w : RepWin) : AlmEvent :=
  { w.key with
    opNs := w.firstNs, calNs := w.firstCal, cal := w.firstCal != 0, rep := true, count := w.count
    detail := w.lastNs % 2 ^ 64 + w.lastCal % 2 ^ 64 * 2 ^ 64 }

/-- A repeat window ends. -/
def Dev.endWin (d : Dev) (w : RepWin) : Dev :=
  let d1 : Dev := { d with alm := { d.alm with wins := d.alm.wins.filter (· != w) } }
  if w.count = 0 then d1 else d1.putRecord w.event

/-- A repeated event adds to its window. -/
def RepWin.add (w : RepWin) (e : AlmEvent) : RepWin :=
  { w with
    count := min 65535 (w.count + 1), firstNs := if w.count = 0 then e.opNs else w.firstNs
    firstCal := if w.count = 0 then e.calNs else w.firstCal, lastNs := e.opNs, lastCal := e.calNs }

/-- An event without a window is written, and opens one when it can. -/
def Dev.newEvent (d : Dev) (e : AlmEvent) : Dev :=
  let ms := d.get Bar.ALM_CFG_REPEAT_MS
  let d1 := d.writeRecord e
  if ms = 0 ∨ 32 ≤ d1.alm.wins.length then d1
  else { d1 with alm := { d1.alm with wins := d1.alm.wins ++ [⟨e, e.opNs + 1000000 * ms, 0, 0, 0, 0, 0⟩] } }

/-- The Almanac handles an event of its queue; windows and stamps are in operating time. -/
def Dev.takeEvent (d : Dev) (e : AlmEvent) : Dev :=
  if e.rep then d.writeRecord e
  else match d.alm.wins.find? fun w => sameEvent w.key e with
    | none => d.newEvent e
    | some w =>
      if e.opNs < w.endNs then
        { d with alm := { d.alm with wins := d.alm.wins.map fun x => if x == w then x.add e else x } }
      else (d.endWin w).newEvent e

/-- The Almanac runs from step 5 of start-up (R476). -/
def Dev.almRuns (d : Dev) : Bool := 3 ≤ d.get Bar.GEN_BOOT_STAGE

/-- The oldest event of the input queue. -/
def Dev.almStep (d : Dev) : Dev :=
  match d.alm.inq with
  | [] => d
  | e :: es =>
    if d.almRuns && !d.flag Bar.ALM_STATUS_ERASING then ({ d with alm := { d.alm with inq := es } }).takeEvent e else d

def execAlmanacEvent (s : State) : Out := .next (s.live Dev.almStep)

/-- A window ends once no event of it waits in the queue. -/
def Dev.winEnds (d : Dev) (i : Nat) : Dev :=
  match d.alm.wins[i]? with
  | none => d
  | some w =>
    if w.endNs ≤ d.opNow ∧ ¬ d.alm.inq.any (fun e => sameEvent w.key e && decide (e.opNs < w.endNs)) then d.endWin w else d

def execRepeatWindowEnd (i : Nat) (s : State) : Out := .next (s.live fun d => d.winEnds i)

/-! ## Checkpoints (R459, R463) -/

def ckptAt (n : Nat) : Nat := almBase + 1024 * n

/-- The 1,024 bytes of a checkpoint; bytes without a meaning are 0. -/
def Dev.ckptBytes (d : Dev) : List Byte :=
  let cal := d.flag Bar.MGT_PTP_STATUS_VALID
  toLe 2 0x5AA5 ++ toLe 2 0 ++ toLe 4 d.alm.ckptSeq ++ toLe 8 (d.get Bar.ALM_LIFE_POWER_CYCLES) ++ toLe 8 d.opNow ++
    toLe 8 (if cal then d.calNow else 0) ++ List.replicate 32 0 ++
    ((List.range 8).flatMap fun h => (List.range 16).flatMap fun i => toLe 4 (d.get Bar.ALM_HIST_COUNT h i)) ++
    ((List.range 8).flatMap fun h => toLe 32 (d.word Bar.ALM_EXT h)) ++ List.replicate 192 0

/-- Write a checkpoint; an area is erased before its first checkpoint. -/
def Dev.checkpoint (d : Dev) : Dev :=
  let n := d.alm.ckptNext
  let d1 := if n % 512 = 0 then d.erase (ckptAt n) 524288 else d
  let d2 := d1.program (ckptAt n) d.ckptBytes
  { d2 with alm := { d2.alm with ckptSeq := d.alm.ckptSeq + 1, ckptNext := (n + 1) % 1024 } }

def Dev.ckptPeriod (d : Dev) : Nat := 60000000000 * max 1 (d.get Bar.ALM_CFG_CKPT_MIN)
def Dev.samplePeriod (d : Dev) : Nat := 1000000000 * max 1 (d.get Bar.ALM_CFG_SAMPLE_S)

def Dev.ckptTimer (d : Dev) : Dev :=
  if d.almRuns ∧ d.alm.ckptDue ≤ d.now then
    ({ d with alm := { d.alm with ckptDue := d.alm.ckptDue + d.ckptPeriod } }).checkpoint
  else d

def execCheckpointTimer (s : State) : Out := .next (s.live Dev.ckptTimer)

/-- FLUSH ends every open window at once and writes a checkpoint. -/
def Dev.flush (d : Dev) : Dev := (d.alm.wins.foldl Dev.endWin d).checkpoint

def execFlush (s : State) : Out := .next (s.host Dev.flush)

/-- The newest valid checkpoint: its place and SEQ. -/
def Dev.newestCkpt (d : Dev) : Option (Nat × Nat) :=
  (d.programmed almBase 1024 1024).foldl (fun best n =>
    if d.marked (ckptAt n) then
      let q := leNat (d.flashBytes (ckptAt n + 4) 4)
      match best with
      | some (m, b) => if b < q then some (n, q) else some (m, b)
      | none => some (n, q)
    else best) none

/-- The counts and extremes of a checkpoint enter the registers. -/
def Dev.restoreHist (d : Dev) (n : Nat) : Dev :=
  let d1 := (List.range 8).foldl (fun d h => (List.range 16).foldl (fun d i =>
    d.set Bar.ALM_HIST_COUNT (leNat (d.flashBytes (ckptAt n + 64 + 64 * h + 4 * i) 4)) h i) d) d
  (List.range 8).foldl (fun d h => d.putWord Bar.ALM_EXT (leNat (d.flashBytes (ckptAt n + 576 + 32 * h) 32)) h) d1

/-- Start-up of the Almanac: life counters, next slot, torn slots, a checkpoint. Events since
power-on that wait in the queue are stamped in operating time too (R456, R459). -/
def Dev.almStart (d : Dev) : Dev :=
  let d1 := match d.newestCkpt with
    | some (n, q) =>
      let used := (d.programmed almBase 1024 1024).filter fun x => x / 512 == n / 512
      let next := match (List.range 512).find? fun i => n < 512 * (n / 512) + i && !used.contains (512 * (n / 512) + i) with
        | some i => 512 * (n / 512) + i
        | none => 512 * (1 - n / 512)
      let op := leNat (d.flashBytes (ckptAt n + 16) 8)
      let queued := d.alm.inq.map fun (e : AlmEvent) => { e with opNs := op + e.opNs }
      let d1 := { d with alm := { d.alm with inq := queued, baseOp := op, ckptSeq := q + 1, ckptNext := next } }
      (d1.set Bar.ALM_LIFE_POWER_CYCLES (leNat (d.flashBytes (ckptAt n + 8) 4) + 1)).restoreHist n
    | none =>
      ({ d with alm := { d.alm with baseOp := 0, ckptSeq := 1, ckptNext := 0 } }).set Bar.ALM_LIFE_POWER_CYCLES 1
  let slots := d1.programmed recBase 64 recSlots
  let next := (firstGap recSlots slots 0).getD recSlots
  let torn := ((slots.filter fun n => n < next).filter fun n => !d1.marked (recBase + 64 * n)).length
  let d2 := ((d1.set Bar.ALM_STATUS_NEXT next).bump Bar.ALM_STATUS_TORN torn).checkFull
  let d3 := if torn = 0 then d2 else d2.alm1 Blk.alm 0x02 0 0 0 torn
  let d4 := d3.checkpoint
  { d4 with alm := { d4.alm with ckptDue := d.now + d4.ckptPeriod, sampleDue := d.now + d4.samplePeriod } }

/-- PWR_OK falls while the flash is written: the oldest waiting record, or else a checkpoint that is due, may be left without
its mark, so that its slot is torn (R455), and an erase may end after any sector of 64 KiB (R462). How far it came is a free
value. DESIGN CHOICE (log entry 85). -/
def Dev.tornFlash (d : Dev) : Dev :=
  let x := d.fresh
  if !d.runs || !d.almRuns then d
  else if d.flag Bar.ALM_STATUS_ERASING then x.2.erase recBase (65536 * (x.1 % 113))
  else if x.1 % 2 = 0 then x.2
  else match d.alm.inq with
    | e :: _ =>
      if d.flag Bar.ALM_STATUS_FULL then x.2
      else x.2.program (recBase + 64 * d.get Bar.ALM_STATUS_NEXT + 2) ((e.bytes (d.get Bar.ALM_LIFE_POWER_CYCLES)).drop 2)
    | [] => if d.alm.ckptDue ≤ d.now then x.2.program (ckptAt d.alm.ckptNext + 2) (d.ckptBytes.drop 2) else x.2

/-! ## Histograms and extremes (R463) -/

/-- The bin of [base + step i, base + step (i + 1)), bin 0 below the first and bin 15 from the last. -/
def linBin (base step x : Int) : Nat := if x < base + step then 0 else min 15 ((x - base) / step).toNat

/-- The bin of a count: 0, then [4^(i-1), 4^i). -/
def powBin (x : Nat) : Nat := if x = 0 then 0 else min 15 (Nat.log2 x / 2 + 1)

/-- The lowest VDD_LOGIC of the sites, in 0.1 mV; sites 16 to 23 of a die lie on VDD_TRL. -/
def Dev.minLogic (d : Dev) : Nat :=
  listMin (((List.range 64).filter fun n => n % 32 < 16 || 24 ≤ n % 32).map fun n => d.get Bar.PWR_VMON_MV n)

/-- Each quantity's sample and bin; none for a sample that is skipped. -/
def Dev.samples (d : Dev) : List (Option (Int × Nat)) :=
  let t := d.tjMax
  let v := d.minLogic
  let w := d.get Bar.TIM_WRATE_PKG_MIN
  let p := d.get Bar.PWR_STATUS_PKG_W
  let cells := max (d.get Bar.TRL_CELLS_USABLE 0 - d.get Bar.TRL_CELLS_FREE 0)
    (d.get Bar.TRL_CELLS_USABLE 1 - d.get Bar.TRL_CELLS_FREE 1)
  let n := d.sess.length
  [ some (t, linBin 400 80 t), some (Int.ofNat v, linBin 5900 200 (Int.ofNat v)),
    if w = 0 then none else some (Int.ofNat w, linBin 700 50 (Int.ofNat w)),
    some (Int.ofNat p, linBin 100 100 (Int.ofNat p)), some (Int.ofNat d.alm.corrTap, powBin d.alm.corrTap),
    some (Int.ofNat d.alm.nmuTap, powBin d.alm.nmuTap), some (Int.ofNat cells, linBin 0 24576 (Int.ofNat cells)),
    some (Int.ofNat n, linBin 0 4096 (Int.ofNat n)) ]

/-- A signed 32-bit field. -/
def sext32 (x : Nat) : Int := if x < 2 ^ 31 then Int.ofNat x else Int.ofNat x - 2 ^ 32

/-- One sample of a histogram. -/
def Dev.sampleOne (d : Dev) (h : Nat) (x : Int) (bin : Nat) : Dev :=
  let first := (List.range 16).all fun i => d.get Bar.ALM_HIST_COUNT h i == 0
  let f := (x % 2 ^ 32).toNat
  let d1 := if first ∨ sext32 (d.get Bar.ALM_EXT_MAX h) < x then
      (d.set Bar.ALM_EXT_MAX f h).set Bar.ALM_EXT_MAX_NS d.opNow h else d
  let d2 := if first ∨ x < sext32 (d.get Bar.ALM_EXT_MIN h) then
      (d1.set Bar.ALM_EXT_MIN f h).set Bar.ALM_EXT_MIN_NS d.opNow h else d1
  d2.bump Bar.ALM_HIST_COUNT 1 h bin

def Dev.sampleAll (d : Dev) : Dev :=
  let d1 := d.samples.zipIdx.foldl (fun (dd : Dev) e => match e.1 with
    | some s => dd.sampleOne e.2 s.1 s.2
    | none => dd) d
  { d1 with alm := { d1.alm with corrTap := 0, nmuTap := 0, sampleDue := d.alm.sampleDue + d.samplePeriod } }

def Dev.sampleTimer (d : Dev) : Dev := if d.almRuns ∧ d.alm.sampleDue ≤ d.now then d.sampleAll else d

def execHistogramSample (s : State) : Out := .next (s.live Dev.sampleTimer)

def Dev.histClear (d : Dev) : Dev :=
  (List.range 8).foldl (fun d h => ((List.range 16).foldl (fun d i => d.set Bar.ALM_HIST_COUNT 0 h i) d).putWord
    Bar.ALM_EXT 0 h) d

def execHistClear (s : State) : Out := .next (s.host Dev.histClear)

/-! ## Erasing and reading (R456, R462) -/

/-- The command window or Iferic session that a command comes from, as ERASED records it. -/
def whoCode : Requester → Nat
  | .pf0 => 0
  | .gardener x => 1 + x % 2
  | .iferic n => 16 + n
  | .vf _ => 0

def Dev.startErase (d : Dev) (who : Requester) : Dev :=
  if d.flag Bar.ALM_STATUS_ERASING then d
  else ({ d with alm := { d.alm with eraser := whoCode who } }).set Bar.ALM_STATUS_ERASING 1

def execErase (who : Requester) (s : State) : Out :=
  .next (s.host fun d => if writesAsPf0 who then d.startErase who else d)

/-- The erase ends: the ERASED record is the first, then FULL and LOST are cleared. -/
def Dev.eraseDone (d : Dev) : Dev :=
  if d.flag Bar.ALM_STATUS_ERASING then
    let lost := d.get Bar.ALM_STATUS_LOST
    let e : AlmEvent := {
      block := Blk.alm, code := 0x01, unit := 0, allot := 0, status := 0, opNs := d.opNow
      calNs := if d.flag Bar.ALM_CFG_CAL_EN && d.flag Bar.MGT_PTP_STATUS_VALID then d.calNow else 0
      cal := d.flag Bar.ALM_CFG_CAL_EN && d.flag Bar.MGT_PTP_STATUS_VALID, rep := false, count := 0
      detail := d.alm.eraser + lost * 2 ^ 16 }
    (((((d.erase recBase (64 * recSlots)).set Bar.ALM_STATUS_NEXT 0).set Bar.ALM_STATUS_FULL 0).set
      Bar.ALM_STATUS_LOST 0).writeRecord e).set Bar.ALM_STATUS_ERASING 0
  else d

def execEraseDone (s : State) : Out := .next (s.live Dev.eraseDone)

/-- OFFSET, aligned and clamped to its area. -/
def Dev.rdOffset (d : Dev) : Nat :=
  min (d.get Bar.ALM_RD_CTL_OFFSET / 8 * 8) ((if d.flag Bar.ALM_RD_CTL_AREA then 65536 else 8388608) - 8)

/-- The 8 bytes at OFFSET. -/
def Dev.rdData (d : Dev) : Nat :=
  leNat (d.flashBytes ((if d.flag Bar.ALM_RD_CTL_AREA then calBase else almBase) + d.rdOffset) 8)

/-- A read advances OFFSET by 8. -/
def Dev.rdAdvance (d : Dev) : Dev :=
  d.set Bar.ALM_RD_CTL_OFFSET (min (d.rdOffset + 8) ((if d.flag Bar.ALM_RD_CTL_AREA then 65536 else 8388608) - 8))

def execAlmRdData (who : Requester) (s : State) : Out :=
  .next (s.host fun d => if writesAsPf0 who then
    (d.emit (.readData who (Bar.ALM_RD_DATA.key 0 0) 8 d.rdData)).rdAdvance else d)

/-! ## The weeding pass (R19, R464-R467) -/

/-- Units of a kind: cores, cluster banks, engines (16 Rakes, 16 Sieves, 16 reduce engines), the cells of a die,
program stores. -/
def kindUnits (k : Nat) : Nat := [256, 1024, 48, 2, 16].getD k 0

/-- Where a unit lies; the units of a kind in one place are tested in ascending order. -/
def kindPlace (k u : Nat) : Nat := if k = 0 then u / 16 else if k = 1 then u / 64 else if k = 2 then u % 16 else u

/-- A removed core and a FAILED bank are out of service and are not tested. -/
def Dev.inService (d : Dev) (k u : Nat) : Bool :=
  if k = 0 then !(d.get Bar.CLU_STATUS_DISABLED (u / 16)).testBit (u % 16)
  else if k = 1 then d.bankState (.cluster (u / 64) (u % 64)) != 3
  else true

/-- The next unit of a kind in a place. -/
def Dev.nextUnit (d : Dev) (k place : Nat) : Option Nat :=
  ((d.wdp.left.filter fun e => d.inService e.1 e.2).find? fun e => e.1 == k && kindPlace k e.2 == place).map Prod.snd

/-- The pass takes the next core of a cluster when it is FREE. -/
def Dev.holdNext (d : Dev) (c : Nat) : Dev :=
  if d.passHolds c then d
  else match d.nextUnit 0 c with
    | none => d
    | some n =>
      if (d.unit n).state = 0 then
        ({ d with wdp := { d.wdp with held := d.wdp.held ++ [n] } }).set Bar.CLU_STATUS_WEEDING
          (setBit (d.get Bar.CLU_STATUS_WEEDING c) (n % 16)) c
      else d

/-- The pass ends when no unit is left: TESTED is set when none failed. -/
def Dev.passEnd (d : Dev) : Dev :=
  if d.flag Bar.WDP_STATUS_RUNNING && !(d.wdp.left.any fun e => d.inService e.1 e.2) then
    let d1 := ({ d with wdp := { d.wdp with left := [] } }).set Bar.WDP_STATUS_RUNNING 0
    let d2 := d1.bump Bar.WDP_STATUS_PASSES 1
    if d.wdp.failed then d2 else d2.set Bar.MBR_STATUS_TESTED 1
  else d

/-- The pass goes on. -/
def Dev.pumpWeeding (d : Dev) : Dev :=
  if d.flag Bar.WDP_STATUS_RUNNING then ((List.range 16).foldl Dev.holdNext d).passEnd else d

def Dev.passPeriod (d : Dev) : Nat := 1000000 * max 1 (d.get Bar.WDP_CFG_PERIOD_MS)

/-- The units of the enabled kinds. -/
def Dev.passUnits (d : Dev) : List (Nat × Nat) :=
  ((List.range 5).filter (d.get Bar.WDP_CFG_KINDS).testBit).flatMap fun k => (List.range (kindUnits k)).map fun u => (k, u)

def Dev.passStart (d : Dev) : Dev :=
  let d1 : Dev := { d with wdp := {
    startNs := d.now, nextNs := (d.now / d.passPeriod + 1) * d.passPeriod, left := d.passUnits, failed := false
    starved := false, held := [] } }
  (d1.set Bar.WDP_STATUS_RUNNING 1).pumpWeeding

/-- The next window of the time base. -/
def Dev.nextPass (d : Dev) : Dev := { d with wdp := { d.wdp with nextNs := (d.now / d.passPeriod + 1) * d.passPeriod } }

/-- A window begins: a pass starts, unless one is running or ENABLE is 0; then none starts in this window (R464). -/
def Dev.passTimer (d : Dev) : Dev :=
  if 4 ≤ d.get Bar.GEN_BOOT_STAGE ∧ d.flag Bar.WDP_CFG_ENABLE ∧ ¬ d.flag Bar.WDP_STATUS_RUNNING ∧ d.wdp.nextNs ≤ d.now then
    d.passStart
  else if 4 ≤ d.get Bar.GEN_BOOT_STAGE ∧ d.wdp.nextNs ≤ d.now then d.nextPass
  else d

def execWeedingPassStart (s : State) : Out := .next (s.live Dev.passTimer)

/-- A unit may be tested now (table of test kinds). -/
def Dev.testable (d : Dev) (k u : Nat) : Bool :=
  if k = 0 then d.wdp.held.contains u
  else if k = 1 then
    let b := BankId.cluster (u / 64) (u % 64)
    !d.flag Bar.CLU_MARCH_STATUS_BUSY (u / 64) && !d.passHolds (u / 64) && !d.bankCold b && !(d.bank b).waking &&
      d.bankState b ≤ 1
  else if k = 2 then
    (kvGetD (if u < 16 then d.eng.rake else if u < 32 then d.eng.sieve else d.eng.parts) (u % 16) []).isEmpty
  else if k = 3 then 2 * d.get Bar.TRL_CFG_EVICT_FLOOR ≤ d.get Bar.TRL_CELLS_FREE u && 0 < d.get Bar.TRL_CELLS_FREE u
  else true

/-- A number for the cause of a failure. -/
def testCode : TestResult → Nat
  | .pass => 0
  | .coreFail => 1
  | .bankRows _ => 2
  | .cellFail => 3
  | .engineFail => 4
  | .storeFail _ => 5

/-- A result that a unit of a kind can have. -/
def testFits (k : Nat) : TestResult → Bool
  | .pass => true
  | .coreFail => k == 0
  | .bankRows rows => k ≤ 1 && !rows.isEmpty
  | .cellFail => k == 3
  | .engineFail => k == 2
  | .storeFail _ => k == 4

/-- What the device does about a failed unit (table of failure handling). -/
def Dev.unitFailed (d : Dev) (k u : Nat) (r : TestResult) : Dev :=
  let d1 := ((d.bump Bar.WDP_STATUS_FAILS 1).alm1 Blk.wdp 0x01 u 0 0 (k + u * 2 ^ 16 + testCode r * 2 ^ 32)).set
    Bar.MBR_STATUS_TESTED 0
  let d2 : Dev := { d1 with wdp := { d1.wdp with failed := true } }
  match r with
  | .pass => d2
  | .coreFail => d2.removeCore u 2
  | .bankRows rows => if k = 0 then d2.removeCore u 2 else (d2.repairRows (.cluster (u / 64) (u % 64)) rows).2
  | .cellFail => d2.retireCell u none
  | .engineFail => d2.alert Blk.wdp
  | .storeFail w =>
    ({ d2 with store := { d2.store with bad := setIns (65536 * u + w % 65536) d2.store.bad } }).alert Blk.wdp

/-- The test of a unit ends. A die's cells are tested until one passes as the last; each failure is one cell. -/
def Dev.unitTest (d : Dev) (k u : Nat) (r : TestResult) : Dev :=
  if d.flag Bar.WDP_STATUS_RUNNING && d.nextUnit k (kindPlace k u) == some u && d.testable k u && testFits k r then
    let d1 : Dev := if r = .cellFail then d
      else { d with wdp := { d.wdp with left := d.wdp.left.filter (· != (k, u)) } }
    let d2 := if k = 0 then d1.unholdCore u else d1
    (if r = .pass then d2 else d2.unitFailed k u r).pumpWeeding
  else d

def execWeedingUnitTest (kind unit : Nat) (result : TestResult) (s : State) : Out :=
  .next (s.live fun d => d.unitTest kind unit result)

def Dev.starveTimer (d : Dev) : Dev :=
  if d.flag Bar.WDP_STATUS_RUNNING ∧ ¬ d.wdp.starved ∧
      d.wdp.startNs + max 1 (d.get Bar.WDP_CFG_STARVE_PASSES) * d.passPeriod ≤ d.now then
    ((({ d with wdp := { d.wdp with starved := true } }).set Bar.WDP_STATUS_STARVED 1).alm1 Blk.wdp 0x02 0 0 0 0).sysVec
      Blk.wdp
  else d

def execWeedingStarve (s : State) : Out := .next (s.live Dev.starveTimer)

/-- ENABLE = 0 stops the pass: held cores are restored. -/
def Dev.wdpDisable (d : Dev) : Dev :=
  let d1 := (d.set Bar.WDP_CFG_ENABLE 0).set Bar.WDP_STATUS_RUNNING 0
  let d2 := d.wdp.held.foldl Dev.unholdCore d1
  { d2 with wdp := { d2.wdp with left := [] } }

def execWdpDisable (s : State) : Out := .next (s.host Dev.wdpDisable)

/-! ## The calibration block (R43, R468, R469) -/

/-- The block is accepted. -/
def calOk (serial : Nat) (bs : List Byte) : Bool :=
  bs.length == 0x8B0 && leNat (bs.take 2) == 0x5AA5 && leNat ((bs.drop 2).take 2) == 1 &&
  leNat ((bs.drop 8).take 8) == serial && Config.shake256 ((bs.drop 2).take 0x86E) == leNat ((bs.drop 0x870).take 64)

/-- Measurement 3 covers the block as stored. -/
def Dev.measureCal (d : Dev) : Dev :=
  d.set Bar.SEC_MEAS_DIGEST (Config.shake256 (if d.marked calBase then d.flashBytes calBase 0x8B0 else [])) 2

/-- A signed 16-bit little-endian value. -/
def le16s (bs : List Byte) : Int := sext16 (leNat (bs.take 2))

/-- The values of an accepted block that the device's rules use: lane latencies and the adaptive VDD_LOGIC table (R52, R501).
Its other trims act on analogue circuits; software reads them through ALM_RD_DATA. -/
def Dev.applyCal (d : Dev) (bs : List Byte) : Dev :=
  let lat := (List.range 192).map fun l => (l, leNat ((bs.drop (0x20 + 8 * l)).take 2))
  let table := (List.range 16).map fun i =>
    (le16s (bs.drop (0x7E0 + 4 * i)), leNat ((bs.drop (0x7E2 + 4 * i)).take 2) % 1024)
  { d with boot := { d.boot with latUi := lat, avsTable := table } }

/-- Built-in values: an own latency of 1,056 UI, zero trims, one setpoint of 750 mV (R468, R501). -/
def Dev.calDefaults (d : Dev) : Dev :=
  let d1 : Dev := { d with boot := { d.boot with latUi := [], avsTable := [(0, 750)] } }
  ((d1.set Bar.WDP_CAL_STATUS_DEFAULTS 1).alm1 Blk.wdp 0x03 0 0 0 0).alert Blk.wdp

/-- Step 4 of start-up. -/
def Dev.calStart (d : Dev) : Dev :=
  let bs := d.flashBytes calBase 0x8B0
  (if calOk d.boot.serial bs then d.applyCal bs else d.calDefaults).measureCal

/-- WRITE: the bytes are read and checked; the erase begins. -/
def Dev.calWrite (d : Dev) (v : Nat) : Dev :=
  let src := d.get Bar.WDP_CAL_ARG_SRC
  if slice v 31 16 ≠ 0xCA1B ∨ slice v 7 0 ≠ 1 ∨ ¬ d.flag Bar.WDP_CAL_STATUS_DONE then d
  else
    let bs := d.poolBytes src 0x8B0
    if d.inObjects 0 src 0x8B0 && calOk d.boot.serial bs && !d.rangePoisoned src 0x8B0 then
      (({ d with boot := { d.boot with calWrite := some bs } }).erase calBase 65536).set Bar.WDP_CAL_STATUS_DONE 0
    else d.set Bar.WDP_CAL_STATUS_STATUS Code.access

def execCalWrite (who : Requester) (v : Nat) (s : State) : Out :=
  .next (s.host fun d => if writesAsPf0 who then d.calWrite v else d)

def execCalibrationWriteDone (s : State) : Out :=
  .next (s.live fun d => match d.boot.calWrite with
    | none => d
    | some bs =>
      let d1 := ((({ d with boot := { d.boot with calWrite := none } }).program calBase bs).measureCal).alm1 Blk.wdp 0x04 0 0 0 0
      ((d1.set Bar.WDP_CAL_STATUS_DONE 1).set Bar.WDP_CAL_STATUS_STATUS Code.ok).bump Bar.WDP_CAL_STATUS_WRITES 1)

end Sys2Proof.Machine
end

