-- ==== Sys2Proof/Machine/Start.lean ====
section
/-! DEFINITION. Start-up, reset domains, firmware reload, the management port and calendar time (chapter 22), the reference
clock and the VDD_AON domain (chapters 7 and 24), and the tenants' snapshots (R422). -/

namespace Sys2Proof.Machine

/-! ## The firmware image (R478) -/

/-- A checked image: what is loaded. -/
structure FwImage where
  imem : List Byte
  dmem : List Byte
  svn  : Nat
  span : List Byte

def sigLen : Nat := 29792

/-- The checks of R478 over a source; the number of the first that fails, or the image. -/
def checkImage (src : List Byte) (minSvn : Nat) : Nat ⊕ FwImage :=
  let le (off n : Nat) : Nat := leNat ((src.drop off).take n)
  let il := le 4 4
  let dl := le 8 4
  let pk := (src.drop 16).take 64
  let span := (src.drop 2).take (126 + il + dl)
  let sig := (src.drop (128 + il + dl)).take sigLen
  if le 0 2 ≠ 0x5AA5 ∨ le 2 2 ≠ 1 then .inl 1
  else if il % 8 ≠ 0 ∨ il < 8 ∨ 262144 < il ∨ 262144 < dl ∨ src.length < 128 + il + dl + sigLen then .inl 2
  else if Config.shake256 pk ≠ Config.signerDigest then .inl 3
  else if !Config.slhVerify (leNat pk) span sig then .inl 4
  else if le 12 2 < minSvn then .inl 5
  else .inr { imem := (src.drop 128).take il, dmem := (src.drop (128 + il)).take dl, svn := le 12 2, span := span }

/-- The nonzero bytes of a memory image, by address. -/
def bytesMap (bs : List Byte) : Kv Byte := (bs.zipIdx.filter fun e => e.1 != 0).map fun e => (e.2, e.1)

/-- The instruction memory of a Gardener lies after the program stores of the clusters. -/
def gardenerCode (die : Nat) : Nat := 65536 * (16 + die)

/-- The words of an instruction memory. -/
def codeWords (base : Nat) (bs : List Byte) : Kv W64 :=
  (List.range (bs.length / 8)).map fun i => (base + i, BitVec.ofNat 64 (leNat ((bs.drop (8 * i)).take 8)))

/-- Both Gardeners take an image: memories from address 0, the rest zeroed. -/
def Dev.loadImage (d : Dev) (x : FwImage) : Dev :=
  let d1 : Dev := { d with
    boot := { d.boot with loaded := true }
    store := { d.store with
      code := d.store.code.filter (fun e => e.1 < gardenerCode 0) ++ codeWords (gardenerCode 0) x.imem ++
        codeWords (gardenerCode 1) x.imem } }
  let put (d : Dev) (k : Nat) : Dev := d.setUnit k { UnitSt.idle with
    gen := ((d.unit k).gen + 1) % 16, halted := true, mem := bytesMap x.dmem }
  ((put (put d1 256) 257).set Bar.SEC_MEAS_DIGEST (Config.shake256 x.span) 1).set Bar.GEN_FW_STATUS_SVN x.svn

/-- Both Gardeners start at instruction 0. -/
def Dev.startGardeners (d : Dev) : Dev :=
  (d.modUnit 256 fun u => { u with halted := false, pc := 0 }).modUnit 257 fun u => { u with halted := false, pc := 0 }

/-! ## Start-up (R476) -/

def execPowerOn (s : State) : Out :=
  .next (if s.dev.power.pwrOk then s
    else s.onDev fun d => { d with now := 0, power := { d.power with pwrOk := true } })

/-- Step 2: fuses, measurements 1 and 5, the identity key, empty key slots, a memory slot for allotment 0. -/
def State.secStart (s : State) : State :=
  let z := s.fuses
  s.onDev fun d =>
    let d1 : Dev := { d with
      boot := { d.boot with serial := z.serial }
      sec := { d.sec with idKey := true, fabKeys := [], mslots := [], mslotCnt := [] } }
    let d2 := ((d1.set Bar.SEC_MEAS_DIGEST Config.bootRomDigest 0).measureFuses z).set Bar.SEC_ID_PK_PK
      (Config.slhPublic z.idSeed)
    let d3 := if 2 ≤ z.lifecycle then d2.measureRwl z else d2
    let d4 := ((d3.set Bar.SEC_STATUS_ID_READY 1).countMslots).freshSlots [0]
    let d5 := ((d4.set Bar.MGT_LANE_MAC z.macs.1 0).set Bar.MGT_LANE_MAC z.macs.2 1).set Bar.GEN_FW_STATUS_MIN_SVN z.minSvn
    (d5.set Bar.GEN_ID_VENDOR Config.vendorId.toNat)

/-- Step 3: the image in flash is checked and loaded, or FAIL is set. -/
def Dev.bootImage (d : Dev) (minSvn : Nat) : Dev :=
  match checkImage (d.flashBytes 0 0x100000) minSvn with
  | .inl n => d.set Bar.GEN_BOOT_FAIL n
  | .inr x => d.loadImage x

/-- LOCK, then steps 2 to 4; step 5 begins and the Almanac starts. -/
def State.lockStart (s : State) : State :=
  let t := (s.onDev fun d => (d.set Bar.TIM_STATUS_LOCK 1).set Bar.TIM_STATUS_REFCLK_OK 1).secStart
  t.onDev fun d => (((d.bootImage t.fuses.minSvn).calStart).set Bar.GEN_BOOT_STAGE 3).almStart

def execTimeBaseLock (s : State) : Out :=
  .next (if s.dev.runs && !s.dev.flag Bar.TIM_STATUS_LOCK && s.dev.get Bar.GEN_BOOT_STAGE == 0 && !s.dev.power.refclkLost
    then s.lockStart else s)

/-- A failing cluster-bank row at start-up takes a spare, or the bank is FAILED (R16, R159). -/
def Dev.startRow (d : Dev) (c b row : Nat) : Dev :=
  if 64 ≤ b then d
  else if d.get Bar.CLU_BANK_SPARES_LEFT c b ≠ 0 then
    (d.drop Bar.CLU_BANK_SPARES_LEFT 1 c b).bump Bar.CLU_MARCH_STATUS_START_REPAIRS 1 c
  else
    let k := BankId.cluster c b
    let d1 := d.setBank k { d.bank k with failedRows := setIns row (d.bank k).failedRows }
    if d.bankState k = 3 then d1 else (d1.setBankState 3 k).bump Bar.CLU_MARCH_STATUS_START_FAILED 1 c

/-- A failing core-bank row marks the bank FAILED and removes the core. -/
def Dev.startCoreRow (d : Dev) (c k b row : Nat) : Dev :=
  if 16 ≤ k ∨ 8 ≤ b then d
  else
    let x := BankId.core c k b
    let fresh := d.bankState x != 3
    let d1 := (d.setBank x { d.bank x with failedRows := setIns (row % 256) (d.bank x).failedRows }).setBankState 3 x
    (if fresh then d1.bump Bar.CLU_MARCH_STATUS_START_FAILED 1 c else d1).removeCore (16 * c + k) 1

/-- The start-up march of a cluster ends. -/
def Dev.startMarch (d : Dev) (c : Nat) (rows : List (Nat × Nat)) (coreRows : List (Nat × Nat × Nat)) : Dev :=
  let d1 := rows.foldl (fun d r => d.startRow c r.1 r.2) d
  let d2 := coreRows.foldl (fun d r => d.startCoreRow c r.1 r.2.1 r.2.2) d1
  ((d2.set Bar.CLU_MARCH_STATUS_BUSY 0 c).set Bar.CLU_MARCH_STATUS_DONE 1 c).set Bar.CLU_MARCH_STATUS_ROWS_FAILED
    (min 255 (rows.length + coreRows.length)) c

def execStartUpMarchDone (c : Nat) (clusterRows : List (Nat × Nat)) (coreRows : List (Nat × Nat × Nat)) (s : State) : Out :=
  .next (s.live fun d =>
    if c < 16 ∧ d.get Bar.GEN_BOOT_STAGE = 3 ∧ ¬ d.flag Bar.CLU_MARCH_STATUS_DONE c then d.startMarch c clusterRows coreRows
    else d)

/-- Step 6: READY with an image, RECOVERY without one; the ports start to serve. -/
def Dev.enterReady (d : Dev) : Dev :=
  let d1 := d.set Bar.GEN_BOOT_READY_NS d.now
  let d2 := if d1.boot.loaded then d1.startGardeners.set Bar.GEN_BOOT_STAGE 4
    else (((d1.modUnit 256 fun u => { u with halted := true }).modUnit 257 fun u => { u with halted := true }).set
      Bar.GEN_BOOT_STAGE 5)
  { d2 with
    mgt := { d2.mgt with tryTen := [true, true], tryNs := [d.now, d.now] }
    wdp := { d2.wdp with nextNs := (d.now / d.passPeriod + 1) * d.passPeriod } }

/-- Stack training and fills end: failed stacks are marked, every frame holds CLEAR lines. -/
def Dev.memoryDone (d : Dev) (failed : List (Nat × Nat)) : Dev :=
  let d1 := (failed.filter fun e => e.1 < 12 && e.2 < 32).foldl (fun d e => d.stackFails e.1 e.2) d
  ({ d1 with pool := { d1.pool with mem := [], poison := [], flaws := [] } }).enterReady

def execStartUpMemoryDone (failedStacks : List (Nat × Nat)) (s : State) : Out :=
  .next (s.live fun d =>
    if d.get Bar.GEN_BOOT_STAGE = 3 ∧ (List.range 16).all (fun c => d.flag Bar.CLU_MARCH_STATUS_DONE c) then
      d.memoryDone failedStacks
    else d)

/-- What the Cloche holds: the contents of a package with power, or what it has kept since (R164, R407). -/
def Dev.clocheNow (d : Dev) : Cloche :=
  if d.power.pwrOk then {
    idKey := d.sec.idKey, fabKeys := d.sec.fabKeys, mslots := d.sec.mslots
    secrets := d.sec.spdm.map (fun e => e.2.secret) ++ d.sec.ifr.map fun e => e.2.secret }
  else d.banks.cloche

/-- PWR_OK is deasserted: fuses, flash and the Cloche keep their contents (a flash write under way may be cut, R455), the time base returns to 0 (R37, R475). The
SEQ values already given out are never used again (R418). -/
def Dev.powerOff (d : Dev) : Dev :=
  let t := d.tornFlash
  { Dev.reset with
    flash := t.flash, free := t.free, out := d.out
    banks := { Dev.reset.banks with cloche := d.clocheNow }
    power := { Dev.reset.power with aonOut := d.power.aonOut }
    sec := { Dev.reset.sec with seqBlock := d.sec.seqBlock } }

def execPowerOff (s : State) : Out := .next (s.onDev Dev.powerOff)

/-! ## Endpoint and function resets, TDIs (R394, R474, R475) -/

/-- A TDI enters CONFIG_UNLOCKED; from any other state an allotment reset runs. -/
def Dev.tdiUnlock (d : Dev) (a : Nat) : Dev :=
  if kvGetD d.ep.tdi a 0 = 0 then d
  else ({ d with ep := { d.ep with tdi := kvDel d.ep.tdi a } }).resetAllot a 1

def execTdiUnlock (a : Nat) (s : State) : Out := .next (s.live fun d => d.tdiUnlock a)

def Dev.setTdi (d : Dev) (a x : Nat) : Dev := { d with ep := { d.ep with tdi := kvPut d.ep.tdi a x } }

def execTdiConfigLocked (a : Nat) (s : State) : Out :=
  .next (s.live fun d => if isTenant a && kvGetD d.ep.tdi a 0 == 0 then d.setTdi a 1 else d)

def execTdiRun (a : Nat) (s : State) : Out :=
  .next (s.live fun d => if kvGetD d.ep.tdi a 0 = 1 then d.setTdi a 2 else d)

/-- PF0's DOE mailbox and the SPDM sessions on it are reset, with the requests of theirs that still sign. -/
def Dev.resetDoe (d : Dev) : Dev :=
  let keep (j : SignJob) : Bool := match j with
    | .spdm (.doe _) _ _ => false
    | .report (.doe _) _ _ => false
    | _ => true
  ({ d with sec := { d.sec with
    spdm := d.sec.spdm.filter (fun e => e.2.via != 0), chunks := kvDel d.sec.chunks 0 } }).setSigning
      (d.sec.signing.filter keep)

def Dev.unlockAll (d : Dev) : Dev := (kvKeys d.ep.tdi).foldl Dev.tdiUnlock d

/-- PERST_N, hot reset or link down. -/
def Dev.endpointReset (d : Dev) : Dev :=
  let d1 := d.unlockAll.resetDoe
  { d1 with ep := { Dev.reset.ep with tdi := [] } }

def execEndpointReset (s : State) : Out := .next (s.live Dev.endpointReset)

def Dev.pf0Flr (d : Dev) : Dev :=
  let d1 := d.unlockAll.resetDoe
  { d1 with ep := { d1.ep with
    table := d1.ep.table.filter (fun e => 256 ≤ e.1), pend := d1.ep.pend.filter (256 ≤ ·), vfEnable := false } }

def execPf0Flr (s : State) : Out := .next (s.live Dev.pf0Flr)

def execVfFlr (a : Nat) (s : State) : Out := .next (s.live fun d => d.resetAllot a 1)

/-! ## Firmware reload (R479, R480) -/

/-- Steps 1 and 2 of a RELOAD whose settings are in GEN_FW_CTL. -/
def State.startReload (s : State) : State :=
  let d := s.dev
  if ¬ d.flag Bar.GEN_FW_STATUS_DONE then s
  else
    let staged := d.flag Bar.GEN_FW_CTL_SOURCE
    let src := if staged then (List.range (d.get Bar.GEN_FW_CTL_LEN)).map fun i => kvGetD d.boot.staging i 0
      else d.flashBytes 0 0x100000
    match checkImage src s.fuses.minSvn with
    | .inl n => s.onDev fun d => (d.set Bar.GEN_FW_STATUS_STATUS Code.access).set Bar.GEN_BOOT_FAIL n
    | .inr _ => s.onDev fun d =>
      let persist := staged && d.flag Bar.GEN_FW_CTL_PERSIST
      let d1 := if persist then d.erase 0 0x100000 else d
      (({ d1 with boot := { d1.boot with reload := some (src, persist) } }).set Bar.GEN_FW_STATUS_DONE 0).set
        Bar.GEN_BOOT_FAIL 0

/-- The fields of a write of GEN_FW_CTL. -/
def Dev.putFwCtl (d : Dev) (v : Nat) : Dev :=
  ((d.set Bar.GEN_FW_CTL_SOURCE (slice v 29 29)).set Bar.GEN_FW_CTL_PERSIST (slice v 28 28)).set Bar.GEN_FW_CTL_LEN
    (clampTo 29928 1048575 (slice v 19 0))

/-- GEN is served in READY and in RECOVERY (R472). -/
def Dev.serves (d : Dev) : Bool := d.runs && 4 ≤ d.get Bar.GEN_BOOT_STAGE

def execReload (who : Requester) (v : Nat) (s : State) : Out :=
  .next (if s.dev.serves && writesAsPf0 who then
      (let t := s.onDev fun d => d.putFwCtl v
       if v.testBit 31 then t.startReload else t)
    else s)

/-- What a Gardener had outstanding ends; later answers count as LATE. -/
def Dev.stopGardener (d : Dev) (k : Nat) : Dev :=
  let r := unitTagRange k
  { d with
    reqs := d.reqs.filter fun e => !(r.1 ≤ e.1 && e.1 < r.1 + r.2)
    copies := d.copies.filter fun e => e.2.core != k }

/-- Steps 2 to 4 end: the image is programmed, the Gardeners stop and start afresh. -/
def State.reloadDone (s : State) : State :=
  match s.dev.boot.reload with
  | none => s
  | some (src, persist) => match checkImage src s.fuses.minSvn with
    | .inl _ => s
    | .inr x => s.onDev fun d =>
      let d1 : Dev := { d with boot := { d.boot with reload := none } }
      let d2 := if persist then d1.program 0 src else d1
      let d3 := (((d2.stopGardener 256).stopGardener 257).loadImage x).startGardeners
      (((d3.set Bar.GEN_BOOT_STAGE 4).set Bar.GEN_FW_STATUS_STATUS Code.ok).set Bar.GEN_FW_STATUS_DONE 1).bump
        Bar.GEN_FW_STATUS_RELOADS 1

def execReloadDone (s : State) : Out := .next (if s.dev.runs then s.reloadDone else s)

/-- PF0, or an Iferic session of role OWNER. -/
def Dev.ownerOrPf0 (d : Dev) : Requester → Bool
  | .pf0 => true
  | .iferic x => match kvGet? d.sec.ifr x with
    | some i => i.phase == 2 && i.role == 2
    | none => false
  | _ => false

/-- MIN_SVN rises to the running image's SVN, and never falls. -/
def Fuses.raiseSvn (z : Fuses) (svn : Nat) : Fuses := { z with minSvn := max z.minSvn svn }

def State.commitSvn (s : State) : State :=
  let z := s.fuses.raiseSvn (s.dev.get Bar.GEN_FW_STATUS_SVN)
  { s with fuses := z, dev := s.dev.set Bar.GEN_FW_STATUS_MIN_SVN z.minSvn }

def execCommitSvn (who : Requester) (s : State) : Out :=
  .next (if s.dev.ready && s.dev.ownerOrPf0 who then s.commitSvn else s)

/-! ## The management lanes (R481) -/

def setAt {α : Type} (l : List α) (i : Nat) (x : α) : List α := l.set i x

/-- The lane tries a speed. -/
def Dev.laneTries (d : Dev) (l : Nat) : Bool :=
  l < 2 && 4 ≤ d.get Bar.GEN_BOOT_STAGE && d.flag Bar.MGT_LANE_ENABLE l && !d.flag Bar.MGT_LANE_LINK l

def execMgtLaneLinkUp (lane speed : Nat) (s : State) : Out :=
  .next (s.live fun d =>
    if d.laneTries lane && speed == (if d.mgt.tryTen.getD lane true then 2 else 1) then
      (d.set Bar.MGT_LANE_LINK 1 lane).set Bar.MGT_LANE_SPEED speed lane
    else d)

def Dev.speedExpires (d : Dev) (lane : Nat) : Dev :=
  if d.laneTries lane && decide (d.mgt.tryNs.getD lane 0 + 500000000 ≤ d.now) then
    { d with mgt := { d.mgt with
      tryTen := setAt d.mgt.tryTen lane (!d.mgt.tryTen.getD lane true), tryNs := setAt d.mgt.tryNs lane d.now } }
  else d

def execMgtSpeedTryExpiry (lane : Nat) (s : State) : Out := .next (s.live fun d => d.speedExpires lane)

/-- A lane loses its link and tries 10GBASE-R again. -/
def Dev.laneDown (d : Dev) (lane : Nat) : Dev :=
  if lane < 2 ∧ d.flag Bar.MGT_LANE_LINK lane then
    let d1 := (d.set Bar.MGT_LANE_LINK 0 lane).set Bar.MGT_LANE_SPEED 0 lane
    { d1 with mgt := { d1.mgt with
      tryTen := setAt d1.mgt.tryTen lane true, tryNs := setAt d1.mgt.tryNs lane d.now } }
  else d

/-- A lane begins to try speeds, 10GBASE-R first. -/
def Dev.laneStarts (d : Dev) (lane : Nat) : Dev :=
  { d with mgt := { d.mgt with tryTen := setAt d.mgt.tryTen lane true, tryNs := setAt d.mgt.tryNs lane d.now } }

def execMgtLaneLinkLoss (lane : Nat) (s : State) : Out := .next (s.live fun d => d.laneDown lane)

/-- The IPv6 link-local address of a MAC, as an EUI-64. -/
def linkLocal (mac : Nat) : Nat :=
  0xFE80 * 2 ^ 112 + ((mac / 2 ^ 24) ^^^ 0x020000) * 2 ^ 40 + 0xFFFE * 2 ^ 24 + mac % 2 ^ 24

def Dev.laneIpv4 (d : Dev) (l : Nat) (ip : Nat) : Bool := ip != 0 && d.get Bar.MGT_LANE_IPV4 l == ip
def Dev.laneIpv6 (d : Dev) (l : Nat) (ip : Nat) : Bool := linkLocal (d.get Bar.MGT_LANE_MAC l) == ip

/-- A query for an address of the lane. -/
def Dev.queryMine (d : Dev) (l : Nat) : NeighbourQuery → Bool
  | .arp ip => d.laneIpv4 l ip
  | .neighbourDiscovery ip => d.laneIpv6 l ip
  | .icmpEcho v6 ip _ => if v6 then d.laneIpv6 l ip else d.laneIpv4 l ip

def execMgtNeighbourQuery (lane : Nat) (q : NeighbourQuery) (s : State) : Out :=
  .next (s.live fun d =>
    if lane < 2 ∧ d.flag Bar.MGT_LANE_LINK lane ∧ d.queryMine lane q then d.emit (.mgtAnswer lane q) else d)

/-! ## Calendar time (R483, R484) -/

/-- A better data set takes over as master. -/
def Dev.ptpAnnounce (d : Dev) (dataset master : Nat) : Dev :=
  match d.mgt.master with
  | some (m, b) =>
    if m = master then { d with mgt := { d.mgt with master := some (m, dataset) } }
    else if dataset < b then
      ({ d with mgt := { d.mgt with master := some (master, dataset), run := 0 } }).set Bar.MGT_PTP_STATUS_STATE 1
    else d
  | none => ({ d with mgt := { d.mgt with master := some (master, dataset), run := 0 } }).set Bar.MGT_PTP_STATUS_STATE 1

/-- A completed offset measurement from the master. -/
def Dev.ptpMeasure (d : Dev) (off : Int) (cal : Nat) : Dev :=
  let bound := Int.ofNat (d.get Bar.MGT_PTP_VALID_NS)
  let mag := Int.ofNat off.natAbs
  let run := if mag ≤ bound then d.mgt.run + 1 else 0
  let c : Int := max (-2147483648) (min 2147483647 off)
  let d1 := (({ d with mgt := { d.mgt with run := run, calOff := Int.ofNat cal - Int.ofNat d.now, holdEnd := 0 } }).set
    Bar.MGT_PTP_STATUS_STATE 2).set Bar.MGT_PTP_STATUS_OFFSET_NS (c % 2 ^ 32).toNat
  if 8 ≤ run then d1.set Bar.MGT_PTP_STATUS_VALID 1
  else if 8 * bound < mag then d1.set Bar.MGT_PTP_STATUS_VALID 0
  else d1

def Dev.ptp (d : Dev) (lane : Nat) (m : PtpMsg) : Dev :=
  if lane < 2 ∧ d.flag Bar.MGT_LANE_LINK lane ∧ d.flag Bar.MGT_PTP_ENABLE then
    match m with
    | .announce dom ds master => if dom = d.get Bar.MGT_PTP_DOMAIN then d.ptpAnnounce ds master else d
    | .measurement dom master off cal =>
      if dom = d.get Bar.MGT_PTP_DOMAIN ∧ d.mgt.master.map Prod.fst = some master then d.ptpMeasure off cal else d
  else d

def execPtpMessage (lane : Nat) (msg : PtpMsg) (s : State) : Out := .next (s.live fun d => d.ptp lane msg)

def execPtpMasterLost (s : State) : Out :=
  .next (s.live fun d => match d.mgt.master with
    | none => d
    | some _ =>
      let h := 1000000000 * min 3600 (d.get Bar.MGT_PTP_HOLDOVER_S)
      ({ d with mgt := { d.mgt with master := none, run := 0, holdEnd := d.now + h } }).set Bar.MGT_PTP_STATUS_STATE 3)

def Dev.holdoverExpires (d : Dev) : Dev :=
  if d.get Bar.MGT_PTP_STATUS_STATE ≠ 2 ∧ d.mgt.holdEnd ≠ 0 ∧ d.mgt.holdEnd ≤ d.now then
    ({ d with mgt := { d.mgt with holdEnd := 0 } }).set Bar.MGT_PTP_STATUS_VALID 0
  else d

def execPtpHoldoverExpiry (s : State) : Out := .next (s.live Dev.holdoverExpires)

/-! ## Reference clock and VDD_AON (R164, R165, R500) -/

/-- REFCLK stops: ports retrain, PCIe and CXL links go down, ALERT_N is driven while it lasts. -/
def Dev.refclkLoss (d : Dev) : Dev :=
  if d.power.refclkLost then d
  else
    let d1 := (({ d with power := { d.power with refclkLost := true } }).set Bar.TIM_STATUS_REFCLK_OK 0).set
      Bar.TIM_STATUS_LOCK 0
    let d2 := ((List.range 192).filter d1.isLeader).foldl (fun d p =>
      if d.portState p = 5 then (d.setDegrading p).startRetrain p
      else if d.portState p = 7 then d.startRetrain p else d) d1
    let d3 := (List.range 8).foldl Dev.cxlFails d2
    d3.endpointReset.alm1 Blk.pwr 0x06 0 0 0 (d3.word Bar.TIM_STATUS)

def execRefclkLoss (s : State) : Out := .next (s.live Dev.refclkLoss)

def execRefclkReturn (s : State) : Out :=
  .next (s.live fun d =>
    if d.power.refclkLost then
      let d1 := (({ d with power := { d.power with refclkLost := false } }).set Bar.TIM_STATUS_REFCLK_OK 1).set
        Bar.TIM_STATUS_LOCK 1
      d1.alm1 Blk.pwr 0x06 0 0 0 (d1.word Bar.TIM_STATUS)
    else d)

/-- VDD_AON leaves its range: the Cloche is wiped, also of a package that has tripped or has no PWR_OK (R165, R496). -/
def Dev.aonOut (d : Dev) : Dev :=
  if d.power.aonOut then d
  else
    let d1 : Dev := { d with power := { d.power with aonOut := true } }
    if d1.runs then d1.wipeAndRekey 3 else d1.clocheWipe 3

def execVddAonOutOfRange (s : State) : Out := .next (s.onDev Dev.aonOut)

/-- VDD_AON is back: the Cloche starts blank, so slots that were filled since the wipe are lost as well (R164, R428). -/
def Dev.aonBack (d : Dev) : Dev :=
  if d.power.aonOut then
    let d1 := { d with power := { d.power with aonOut := false } }.blankCloche
    if d.runs then d1.freshSlots d1.activeAllots else d1
  else d

def execVddAonRestored (s : State) : Out := .next (s.onDev Dev.aonBack)

/-! ## Snapshots for the tenants (R422) -/

/-- The coarsened values of a tenant: ALT_V_QOS, ALT_V_AUTH, ALT_V_NUM, ALT_V_ENV. -/
def Dev.coarseOf (d : Dev) (a n : Nat) : List Nat :=
  let cut (x : Nat) : Nat := x >>> d.get Bar.SEC_COARSE_SHIFT <<< d.get Bar.SEC_COARSE_SHIFT
  let both (f : Fld) : Nat := d.get f 0 a + d.get f 1 a
  let all (f : Fld) : Nat := ((List.range 16).map fun c => d.get f c).sum
  let step := max 1 (d.get Bar.SEC_COARSE_POWER_STEP_W)
  [ cut (both Bar.QOS_ALT_CNT_POLICED) * 2 ^ 64 + cut (both Bar.QOS_ALT_CNT_OVER_KIB),
    cut (d.get Bar.SEC_ALT_AUTH_FAIL a),
    cut (all Bar.CLU_NUM_SAT_SES) % 2 ^ 32 * 2 ^ 96 + cut (all Bar.CLU_NUM_ZEROED) % 2 ^ 32 * 2 ^ 64 +
      cut (d.get Bar.SES_QCNT_HELD_B) * 2 ^ 32 + cut (d.get Bar.SES_QCNT_HELD_C),
    d.get Bar.PWR_STATUS_PKG_W / step * step * 2 ^ 48 + d.get Bar.TIM_WRATE_PKG_MEAN / 10 * 10 * 2 ^ 32 + n % 2 ^ 32 ]

/-- A window of SEC_COARSE.PERIOD_MS begins: every tenant's values are taken. -/
def Dev.snapshots (d : Dev) : Dev :=
  let p := 1000000 * max 1 (d.get Bar.SEC_COARSE_PERIOD_MS)
  if d.now < d.sec.coarseNs then d
  else
    let n := d.sec.coarseN + 1
    { d with sec := { d.sec with
      coarse := (List.range 255).map fun i => (i + 1, d.coarseOf (i + 1) n), coarseN := n
      coarseNs := (d.now / p + 1) * p } }

def execSnapshotWindow (s : State) : Out := .next (s.live Dev.snapshots)

end Sys2Proof.Machine
end

