-- ==== Sys2Proof/Machine/Requester.lean ====
section
/-! DEFINITION. What the device does with the answers to its own requests (R71, R78, R86-R90, R236, R511, R516), and the
map installs of chapters 18 and 20 (R400, R448). -/

namespace Sys2Proof.Machine

/-! ## Checks on an answer -/

/-- Checks 1 to 5 of R75 on a frame that is not a request (R511). An answer for an allotment in reset goes on and is
counted as LATE (R396); a NAK EPOCH_STALE goes on past check 3, since R78 and R442 act on it. -/
def Dev.answerChecks (d : Dev) (port : TPort) (f : Frame) : Option Frame × Dev :=
  if older f.mbrEpoch d.mbrEpoch then (none, (d.bump Bar.LNK_MFP_DROP_STALE_MBR 1).staleNak port f)
  else if newer f.mbrEpoch d.mbrEpoch && !(f.type == Ty.nak && f.status == Code.epochStale) then
    (none, d.fetchEpoch f.srcEp)
  else if d.isFenced then (none, d)
  else if (d.mapCheck f).isSome then (none, d)
  else (some f, d)

/-- A delivered answer, in its turn: its length, then the checks. A bad tail is its receiver's matter (R71, R88). -/
def Dev.recvAnswer (d0 : Dev) (f : Frame) : Option Frame × Dev :=
  let port := TPort.memSide 0
  let d := d0.taken f
  if !d0.inTurn f then (none, d0)
  else if wrongLength f then (none, d.bump Bar.LNK_MFP_DROP_MALFORMED 1)
  else if f.badTail then (some f, d)
  else
    let a := d.authenticate 0 f
    match a.1 with
    | none => (none, (a.2.bump Bar.LNK_MFP_DROP_AUTH_FAIL 1).bump Bar.SEC_ALT_AUTH_FAIL 1 f.allot)
    | some g => a.2.answerChecks port g

/-- A late or unknown answer (LNK_MFP_DROP.LATE). -/
def Dev.late (d : Dev) : Dev := d.bump Bar.LNK_MFP_DROP_LATE 1

/-- The unit that a request belongs to still waits for it: a program's invocation runs on. -/
def Dev.wanted (d : Dev) (r : Req) : Bool :=
  match r.cont with
  | .patom k gen _ _ _ _ => d.holds k gen
  | .chunk c _ => (match kvGet? d.copies c with
    | some x => d.holds x.core x.gen
    | none => false)
  | .rake _ k gen _ _ _ => d.holds k gen
  | .part _ k gen _ _ _ => d.holds k gen
  | _ => true

def Dev.dropReq (d : Dev) (t : Nat) : Dev := { d with reqs := kvDel d.reqs t }

/-- Work that waited for a tag or behind a rejected request goes on. -/
def Dev.goOn (d : Dev) : Dev := d.pumpCopies.pumpPushes.pumpSends.pumpTier

/-! ## Completion of a request (R89, R90, R516) -/

/-- A request whose answer carries data. -/
def readsData (f : Frame) : Bool := f.type == Ty.read || f.type == Ty.atomic

/-- Exactly n bytes of an answer; bytes it does not hold are those of the error value. -/
def fitBytes (n : Nat) (bs : List Byte) : List Byte := (bs ++ errBytes n).take n

/-- The Almanac record of a package unit's request that completes with the error value (R89, R457). -/
def Dev.unitError (d : Dev) (r : Req) (status : Nat) : Dev :=
  d.alm1 Blk.mem 0x10 0 r.f.allot status (reqAddr r.f + r.f.tag * 2 ^ 64)

/-- A read of a copy lands, or fails, over the parts still awaited. -/
def Dev.copyRead (d : Dev) (id : Nat) (gaps : List (Nat × Nat)) (base status : Nat) (bad : Bool) (bs : List Byte) : Dev :=
  (gaps.foldl (fun d g => match kvGet? d.copies id with
    | none => d
    | some c =>
      if status = Code.ok then d.gotPart id c g.1 (fitBytes g.2 (bs.drop (c.src + g.1 - base))) bad
      else d.failPart id c g.1 g.2 status) d).pumpCopy id

/-- A READ or ATOMIC completes. -/
def Dev.readDone (d : Dev) (r : Req) (status : Nat) (poison : Bool) (bs : List Byte) : Dev :=
  let ok := status == Code.ok
  match r.cont with
  | .patom k gen ctr spad size pc =>
    if ok then d.landAtom k gen ctr spad size (fitBytes size bs) poison
    else (d.fabricErr k gen 4 pc status (reqAddr r.f)).landAtom k gen ctr spad size (errBytes size) true
  | .chunk id gaps => d.copyRead id gaps (Frame.addr r.f) status poison bs
  | .forward txn =>
    let d1 := if ok then d else d.unitError r status
    d1.forwarded txn status poison bs
  | .rake cluster core gen row off n =>
    let st := if ok && poison then Code.poison else status
    d.rakeGot cluster core gen row off (if ok then fitBytes n bs else errBytes n) st (Frame.addr r.f)
  | _ => d

/-- A WRITE, a pushed COPY_DATA, a LEND or a REDUCE_PART completes; n bytes were acknowledged. -/
def Dev.writeDone (d : Dev) (r : Req) (status n : Nat) : Dev :=
  let ok := status == Code.ok
  match r.cont with
  | .chunk id _ =>
    (match kvGet? d.copies id with
    | none => d
    | some c =>
      let d1 := if ok then d else d.copyErr c status (Frame.addr r.f)
      (d1.arrive c.core c.gen c.ctr (if ok then n else r.f.len)).closeCopy id)
  | .rake cluster core gen row off k => d.rakeGot cluster core gen row off (errBytes k) status (Frame.addr r.f)
  | .forward txn => d.forwarded txn status false []
  | .lent ln => d.lentDone ln status
  | .mirror s _ core gen pc => if ok then d else d.pushFailed s core gen pc status
  | .attach w => d.attachAcked w status
  | .part _ core gen group member _ => d.partAcked core gen group member status
  | _ => d

/-- A request ends with a status and no data: the error value for a READ or ATOMIC (R78, R90). -/
def Dev.failReq (d : Dev) (t : Nat) (r : Req) (status : Nat) : Dev :=
  let d1 := d.dropReq t
  if !d1.wanted r then d1.goOn
  else (if readsData r.f then d1.readDone r status true [] else d1.writeDone r status r.f.len).goOn

/-! ## Resends (R71, R78, R88) -/

/-- The tags of a unit from one of them (R67). -/
def tagRangeOf (t : Nat) : Nat × Nat := if t < 32768 then clusterTags (t / 2048) else unitTags ((t - 32768) / 4096)

/-- The frame of a request as it is sent again: with the SRC_EP and the epochs in force (R66, R400). -/
def Dev.renewed (d : Dev) (f : Frame) : Frame :=
  { f with srcEp := d.myEp, mapEpoch := d.mapEpoch, mbrEpoch := d.mbrEpoch }

/-- Send a request again under its tag. -/
def Dev.resend (d : Dev) (t : Nat) (r : Req) : Dev :=
  let g := d.renewed r.f
  ({ d with reqs := kvPut d.reqs t { r with f := g, retryNs := none, waitMap := none } }).send r.port g

/-- The target that the map in force names for a request; none when MEM_HOME names none (R512). -/
def Dev.retarget (d : Dev) (f : Frame) : Option Nat :=
  let memory := (f.type == Ty.write && !Frame.sess f) || f.type == Ty.copyData || readsData f
  if !memory || Frame.mcast f then some f.dstEp
  else if (d.spanOf (Frame.addr f)).isSome then some d.myEp
  else d.memHome (Frame.addr f)

/-- Resend after a REMAP: the new target, a new TAG, the old bound. It waits while no tag is free. -/
def Dev.resendMapped (d : Dev) (t : Nat) (r : Req) : Dev :=
  match d.retarget r.f with
  | none => d.failReq t r Code.timeout
  | some ep =>
    match d.freeTag (tagRangeOf t) [] with
    | none => d
    | some u => (d.dropReq t).resend u { r with f := { r.f with dstEp := ep, tag := u } }

/-- A request of a copy that has been ended under R88. -/
def Dev.ofEndedCopy (d : Dev) (r : Req) : Bool :=
  match r.cont with
  | .chunk id _ => ((kvGet? d.copies id).map Copy.ended).getD true
  | _ => false

/-- A request whose wait after a NAK has ended is sent again (R78), unless its invocation or its copy has ended meanwhile
(R88, R227): then nothing more is sent for it. -/
def Dev.resendDue (d : Dev) (t : Nat) (r : Req) : Dev :=
  let due (k : Dev → Dev) : Dev :=
    if !d.wanted r then d.dropReq t
    else match d.ofEndedCopy r, r.cont with
      | true, .chunk id _ => (d.dropReq t).closeCopy id
      | _, _ => k d
  match r.retryNs, r.waitMap with
  | some ns, _ => if ns ≤ d.now then due fun d => d.resend t r else d
  | none, some m => if newer m d.mapEpoch then d else due fun d => d.resendMapped t r
  | none, none => d

/-- Every request whose wait after a NAK has ended is sent again (R78). -/
def Dev.resends (d : Dev) : Dev :=
  (kvKeys d.reqs).foldl (fun d t => match kvGet? d.reqs t with
    | none => d
    | some r => d.resendDue t r) d

/-- The engine ends a copy: CFAIL of its counter is set, and nothing further is sent (R88). -/
def Dev.giveUpCopy (d : Dev) (id : Nat) (c : Copy) : Dev :=
  ((d.putCopy id { c with todo := [], ready := [], ended := true }).failCounter c.core c.gen c.ctr).closeCopy id

/-- One more resend of the frame of a copy at offset `off`, pulled or pushed: the copy with it counted, or none when
COPY_RESEND_MAX are spent. -/
def Dev.resendAllowed (d : Dev) (c : Copy) (off : Nat) (push : Bool) : Option Copy :=
  let key := 2 * off + (if push then 1 else 0)
  let n := kvGetD c.resent key 0
  if c.ended || decide (d.get Bar.LNK_MFP_CTL_COPY_RESEND_MAX ≤ n) then none
  else some { c with resent := kvPut c.resent key (n + 1) }

/-- A pushed frame is to be resent: a new request with a bound of its own (R88, R90). -/
def Dev.resendPush (d : Dev) (t : Nat) (r : Req) (id : Nat) (c : Copy) (off : Nat) : Dev :=
  match d.resendAllowed c off true with
  | some x => (d.putCopy id x).resend t { r with deadline := none }
  | none => ((d.dropReq t).giveUpCopy id c).goOn

/-- Bytes [off, off + n) taken out of the parts still awaited; none when they do not lie in one. -/
def takeGap (gaps : List (Nat × Nat)) (off n : Nat) : Option (List (Nat × Nat)) :=
  if n ≠ 0 ∧ gaps.any (fun g => g.1 ≤ off && off + n ≤ g.1 + g.2) then
    some (gaps.flatMap fun g =>
      if g.1 ≤ off && off + n ≤ g.1 + g.2 then
        [(g.1, off - g.1), (off + n, g.1 + g.2 - (off + n))].filter fun x => x.2 != 0
      else [g])
  else none

/-- What is left of a pull's request once a part of it has been settled. -/
def Dev.leaveGaps (d : Dev) (t : Nat) (r : Req) (id : Nat) (gaps : List (Nat × Nat)) : Dev :=
  if gaps.isEmpty then d.dropReq t else { d with reqs := kvPut d.reqs t { r with naked := false, cont := .chunk id gaps } }

/-- Bytes of a pulled frame were lost: they are requested again (R88). -/
def Dev.repull (d : Dev) (t : Nat) (r : Req) (id : Nat) (c : Copy) (gaps : List (Nat × Nat)) (off n : Nat) : Dev :=
  match takeGap gaps off n with
  | none => d.late
  | some rest =>
    let d1 := d.leaveGaps t r id rest
    match d1.resendAllowed c off false with
    | some x => (d1.putCopy id { x with todo := x.todo ++ [(off, n)] }).pumpCopy id
    | none => (d1.giveUpCopy id c).goOn

/-- A damaged answer to a READ or an ATOMIC (R71). -/
def Dev.damagedAnswer (d : Dev) (t : Nat) (r : Req) : Dev :=
  if r.f.type = Ty.read ∧ r.damaged < 2 then d.resend t { r with damaged := r.damaged + 1 }
  else d.failReq t r Code.badTail

/-! ## READ_RESP, WRITE_ACK, COPY_DATA, EVICT_NOTICE -/

/-- The bound of a request has passed (R42, R90): an answer latched now comes after the expiry. At the very value of the
bound the order of the two commands decides. -/
def Dev.pastBound (d : Dev) (r : Req) : Bool :=
  match r.deadline with
  | some t => decide (t < d.now)
  | none => false

/-- Act on an answer whose request is outstanding and within its bound, and count any other as LATE (R90). -/
def Dev.answered (d : Dev) (f : Frame) (k : Dev → Req → Dev) : Dev :=
  match kvGet? d.reqs f.tag with
  | none => d.late
  | some r =>
    if d.pastBound r then d.late
    else if d.wanted r then k d r
    else (d.dropReq f.tag).late.goOn

def Dev.readResp (d : Dev) (f : Frame) : Dev :=
  d.answered f fun d r =>
    if !readsData r.f then d.late
    else if f.badTail then d.damagedAnswer f.tag r
    else ((d.dropReq f.tag).readDone r (seenStatus f.status) (Frame.poisonBit f) f.payload).goOn

def execReadResp (f : Frame) (s : State) : Out :=
  .next (s.live fun d =>
    if f.type = Ty.readResp then
      match d.recvAnswer f with
      | (some g, d1) => d1.readResp g
      | (none, d1) => d1
    else d)

/-- The WRITE_ACK of a member of a broadcast (R379). -/
def Dev.castAck (d : Dev) (status : Nat) : Dev := if status = Code.ok then d else d.bump Bar.RKS_STAT_BCAST_FAIL 1

/-- A WRITE_ACK of a further member of a multicast push: it adds to the counter while the invocation runs (R87). It is known
by the tag and the address of a frame whose first WRITE_ACK came within its bound. That of a further member of a broadcast
is known by the same and comes before the frame's bound ends (R379). Any other is LATE. -/
def Dev.memberAck (d : Dev) (f : Frame) : Dev :=
  match d.copies.find? fun e => e.2.acked.any (fun x => x.1 == f.tag && x.2.1 == Frame.addr f) &&
      d.holds e.2.core e.2.gen with
  | none =>
    if d.eng.casts.any fun x => x.1 == f.tag && x.2.1 == Frame.addr f && decide (d.now ≤ x.2.2) then
      d.castAck (seenStatus f.status)
    else d.late
  | some e =>
    let st := seenStatus f.status
    let len := (e.2.acked.find? fun x => x.1 == f.tag && x.2.1 == Frame.addr f).elim 0 fun x => x.2.2
    let d1 := if st = Code.ok then d else d.copyErr e.2 st (Frame.addr f)
    d1.arrive e.2.core e.2.gen e.2.ctr (if e.2.cls < 4 ∧ st = Code.ok then f.w7 % 8192 else len)

/-- A WRITE_ACK answers the request with its tag; for a push it also carries the request's COPY_REF, and for a push or a
multicast frame its address. -/
def acks (f : Frame) (r : Req) : Bool :=
  let push := r.f.type == Ty.copyData
  !readsData r.f && (!push || f.w7 / 65536 == r.f.w7 / 65536) &&
    (!(push || Frame.mcast r.f) || Frame.addr f == Frame.addr r.f)

/-- The first WRITE_ACK of a multicast frame has come: those of further members are known by its tag and address. -/
def Dev.keepMember (d : Dev) (t : Nat) (r : Req) : Dev :=
  match Frame.mcast r.f, r.cont with
  | true, .chunk id _ => { d with copies := kvMod d.copies id fun c =>
      { c with acked := c.acked ++ [(t, Frame.addr r.f, r.f.len)] } }
  | _, .bcast _ => { d with eng := { d.eng with casts := (d.eng.casts.filter fun x => x.1 != t && decide (d.now ≤ x.2.2)) ++
      [(t, Frame.addr r.f, r.deadline.getD d.now)] } }
  | _, _ => d

def Dev.writeAck (d : Dev) (f : Frame) : Dev :=
  match kvGet? d.reqs f.tag with
  | none => d.memberAck f
  | some r =>
    if !acks f r then d.memberAck f
    else d.answered f fun d r =>
      let d1 := (d.dropReq f.tag).keepMember f.tag r
      let st := seenStatus f.status
      (match r.cont with
      | .bcast _ => d1.castAck st
      | _ => d1.writeDone r st (if r.f.type = Ty.copyData then f.w7 % 8192 else r.f.len)).goOn

def execWriteAck (f : Frame) (s : State) : Out :=
  .next (s.live fun d =>
    if f.type = Ty.writeAck then
      match d.recvAnswer f with
      | (some g, d1) => d1.writeAck g
      | (none, d1) => d1
    else d)

/-- Act on a frame of a copy's outstanding pull. -/
def Dev.pulled (d : Dev) (f : Frame) (k : Dev → Req → Nat → Copy → List (Nat × Nat) → Nat → Dev) : Dev :=
  d.answered f fun d r =>
    match r.cont with
    | .chunk id gaps =>
      (match kvGet? d.copies id with
      | some c =>
        if readsData r.f && c.ref == f.w7 / 65536 && decide (c.src ≤ Frame.addr f) then
          k d r id c gaps (Frame.addr f - c.src)
        else d.late
      | none => d.late)
    | _ => d.late

/-- A pulled COPY_DATA is placed by its COPY_REF and address (R86). -/
def Dev.copyData (d : Dev) (f : Frame) : Dev :=
  d.pulled f fun d r id c gaps off =>
    if f.badTail then d.repull f.tag r id c gaps off f.len
    else match takeGap gaps off f.len with
      | none => d.late
      | some rest =>
        ((d.leaveGaps f.tag r id rest).copyRead id [(off, f.len)] (Frame.addr f) (seenStatus f.status)
          (Frame.poisonBit f) f.payload).goOn

def execCopyDataPull (f : Frame) (s : State) : Out :=
  .next (s.live fun d =>
    if f.type = Ty.copyData ∧ Frame.copyFlag f then
      match d.recvAnswer f with
      | (some g, d1) => d1.copyData g
      | (none, d1) => d1
    else d)

/-- The offset within its copy of a pushed frame. -/
def pushOff (gaps : List (Nat × Nat)) : Nat := (gaps.head?.map Prod.fst).getD 0

def Dev.evictNotice (d : Dev) (f : Frame) : Dev :=
  match kvGet? d.reqs f.tag with
  | none => d.late
  | some r =>
    if readsData r.f then
      d.pulled f fun d r id c gaps off => d.repull f.tag r id c gaps off (f.w7 % 8192)
    else d.answered f fun d r =>
      match r.cont with
      | .chunk id gaps =>
        (match kvGet? d.copies id with
        | some c => d.resendPush f.tag r id c (pushOff gaps)
        | none => d)
      | _ => d

def execEvictNotice (f : Frame) (s : State) : Out :=
  .next (s.live fun d =>
    if f.type = Ty.evictNotice then
      match d.recvAnswer f with
      | (some g, d1) => d1.evictNotice g
      | (none, d1) => d1
    else d)

/-! ## NAK and the bound (R78, R90) -/

/-- A request is left unresolved by a NAK. -/
def Dev.holdReq (d : Dev) (t : Nat) (r : Req) : Dev := { d with reqs := kvPut d.reqs t r }

def Dev.naked (d : Dev) (f : Frame) (r : Req) : Dev :=
  let t := f.tag
  let st := seenStatus f.status
  if st = Code.remap then (d.holdReq t { r with naked := true, waitMap := some f.mapEpoch }).resends
  else if st = Code.busy then d.holdReq t { r with naked := true, retryNs := some (d.now + 1000) }
  else if st = Code.badTail then
    match r.f.type == Ty.copyData, r.cont with
    | true, .chunk id gaps =>
      (match kvGet? d.copies id with
      | some c => d.resendPush t r id c (pushOff gaps)
      | none => d)
    | _, _ => d.resend t { r with naked := true }
  else if st = Code.epochStale then (d.failReq t r st).fetchEpoch f.srcEp
  else d.failReq t r st

def execNak (f : Frame) (s : State) : Out :=
  .next (s.live fun d =>
    if f.type = Ty.nak then
      match d.recvAnswer f with
      | (some g, d1) => d1.answered g fun d r => d.naked g r
      | (none, d1) => d1
    else d)

/-- The bound of a request expires (R42, R90). -/
def Dev.expireReq (d : Dev) (t : Nat) (r : Req) : Dev :=
  match r.deadline with
  | some e => if e ≤ d.now then d.failReq t r Code.timeout else d
  | none => d

def Dev.reqTimeout (d : Dev) (tag : Nat) : Dev :=
  match kvGet? d.reqs tag with
  | some r => d.expireReq tag r
  | none => d

def execRequestTimeout (tag : Nat) (s : State) : Out := .next (s.live fun d => d.reqTimeout tag)

/-! ## Map installs (R400, R448) -/

/-- The current map changes; requests that wait for it are resent. -/
def Dev.mapChanged (d : Dev) : Dev := d.installNext.resends

def execMapInstall (s : State) : Out := .next (s.host Dev.mapChanged)

/-- A MAP record installs an epoch at a MEMBER when an IN member sent it. -/
def execMap (f : Frame) (s : State) : Out :=
  .next (s.live fun d => d.epochFrame f 0x8 fun d f =>
    if d.isMember && d.memberIn f.srcEp then (d.set Bar.ALT_MAP_NEXT f.w6).mapChanged else d)

/-- SEND_MAP installs NEXT and sends a MAP record to every other IN member. -/
def Dev.sendMap (d : Dev) : Dev :=
  let d1 := d.mapChanged
  (List.range 1024).foldl (fun d i =>
    if d.memIsIn i && d.memEp i != d.myEp then d.sendEpoch (d.memEp i) 0x8 0 0 d.mapEpoch 0 [] else d) d1

def execSendMap (s : State) : Out := .next (s.host Dev.sendMap)

/-- The drain window is over once 500 µs have passed since the install: DRAINING reads 0 and frames of older epochs
are no longer taken (R77). Both follow from the time base, so nothing is stored. -/
def execDrainWindowEnd (s : State) : Out := .next (s.live fun d => d)

end Sys2Proof.Machine
end

