-- ==== Sys2Proof/Machine/RegAccess.lean ====
section
/-! DEFINITION. Accesses to BAR0 and to VF BAR0 (R7, R386-R393, R472-R474, R486-R494): registers read and written in pieces,
clamped fields, trigger bits, the MSI-X tables and the staging buffer. -/

namespace Sys2Proof.Machine

/-! ## Fields and their clamps (R7) -/

/-- The legal range of a field, for the fields whose map gives one. -/
def clampTable : List (Fld × Nat × Nat) := [
  (Bar.TIM_WMON_CTL_WINDOW_US, 1, 1000), (Bar.LNK_DEGRADE_CTL_UNCORR_MAX, 1, 255), (Bar.LNK_DEGRADE_CTL_NEAR_MAX, 1, 65535),
  (Bar.LNK_DEGRADE_CTL_WINDOW_MS, 1, 255), (Bar.LNK_PORT_CFG_PROP_PS_PER_M, 3300, 8000), (Bar.LNK_MFP_CTL_REQ_TIMEOUT_US, 20, 5000),
  (Bar.LNK_MFP_CTL_COPY_RESEND_MAX, 1, 255), (Bar.TRL_CFG_EVICT_FLOOR, 4096, 65536), (Bar.TRL_PORT_EV_TC3, 1, 4095),
  (Bar.TRL_PORT_EV_TC2, 1, 4095), (Bar.TRL_PORT_EV_TC1, 1, 4095), (Bar.TRL_PORT_EV_TC0, 1, 4095), (Bar.QOS_SCHED_W3, 1, 255),
  (Bar.QOS_SCHED_W2, 1, 255), (Bar.QOS_SCHED_W1, 1, 255), (Bar.QOS_SCHED_W0, 1, 255), (Bar.QOS_SCHED_EV_MIN_PCT, 0, 50),
  (Bar.QOS_SHAPE_BURST, 4144, 4294967295), (Bar.QOS_POLICE_BURST, 4144, 4294967295), (Bar.QOS_POLICE_RATE, 0, 38400),
  (Bar.MEM_TIER_CFG_HOT_WINDOW_US, 1, 65535), (Bar.MEM_TIER_CFG_WARM_HOLD_MS, 1, 65535), (Bar.MEM_TIER_CFG_LOW_WATER, 0, 1048576)] ++ [
  (Bar.CLU_COLD_CFG_IDLE_US, 0, 1000000), (Bar.NMU_CFG_BURST_UNITS, 1, 32), (Bar.COH_CFG_SNOOP_TIMEOUT_US, 10, 10000),
  (Bar.COH_RECALL_ARG_PAGES, 1, 268435455), (Bar.CLU_INV_CFG_RUN_LIMIT_US, 100, 1000000), (Bar.ALT_CFG_N_BURST, 1, 64),
  (Bar.ALT_CFG_N_RATE, 1, 65535), (Bar.ALT_SHAPE_BURST, 4144, 4294967295), (Bar.ALT_SHAPE_RATE, 0, 9600),
  (Bar.SEC_COARSE_PERIOD_MS, 10, 1000), (Bar.SEC_COARSE_POWER_STEP_W, 1, 100), (Bar.SEC_COARSE_SHIFT, 0, 24),
  (Bar.SEC_CRED_CTL_ROLE, 0, 2), (Bar.MBR_CFG_DECIDE_US, 1000, 60000), (Bar.MBR_CFG_PHASE_US, 100, 4000),
  (Bar.MBR_CFG_HB_US, 50, 10000), (Bar.MBR_CFG_MISS, 2, 15), (Bar.ALM_CFG_CKPT_MIN, 1, 255), (Bar.ALM_CFG_SAMPLE_S, 1, 255),
  (Bar.WDP_CFG_PERIOD_MS, 100, 3600000), (Bar.WDP_CFG_STARVE_PASSES, 1, 15), (Bar.GEN_FW_CTL_LEN, 29928, 1048575),
  (Bar.MGT_PTP_VALID_NS, 10, 65535), (Bar.MGT_PTP_HOLDOVER_S, 0, 3600), (Bar.PWR_THERM_HOT_C, 60, 105),
  (Bar.PWR_AVS_FIXED_MV, 600, 900)]

/-- Each of the eight fields of ALT_NVEC.VEC is at most 6. -/
def clampVec (x : Nat) : Nat := ((List.range 8).map fun c => min 6 (x >>> (3 * c) % 8) <<< (3 * c)).sum

/-- EVICT_FLOOR leaves the lossless limits in force within ll_budget (R101). -/
def Dev.maxFloor (d : Dev) (die : Nat) : Nat := d.get Bar.TRL_CELLS_USABLE die - d.llLimits die

/-- A value put into its legal range. -/
def Dev.clampFld (d : Dev) (f : Fld) (i j x0 : Nat) : Nat :=
  let x := match clampTable.find? (fun e => e.1 == f) with
    | some e => clampTo e.2.1 e.2.2 x0
    | none => x0
  if f = Bar.TIM_WRATE_ALERT_THRESHOLD then (if x = 0 then 0 else clampTo 500 2000 x)
  else if f = Bar.TRL_CFG_EVICT_FLOOR then min x (min (d.maxFloor 0) (d.maxFloor 1))
  else if f = Bar.TRL_ROUTE_PORT then clampTo (96 * i) (96 * i + 95) x
  else if f = Bar.QOS_SHAPE_RATE then
    min x (4000 * (if d.portState i = 5 then d.upLanes i else d.layoutWidth i))
  else if f = Bar.QOS_ALT_SHARE_EV_SHARE then clampTo 17 (d.get Bar.TRL_CELLS_USABLE i) x
  else if f = Bar.ALT_NVEC_VEC then clampVec x
  else if f = Bar.LNK_PORT_CFG_WIDTH then ([3, 2, 1, 0].find? fun w => w ≤ x && i % 2 ^ w == 0).getD 0
  else if f = Bar.LNK_PORT_CFG_MIN_WIDTH then min x (d.get Bar.LNK_PORT_CFG_WIDTH i j)
  else x

/-- A write of one field, as its access says; `life` is the lifecycle state (R491). -/
def Dev.writeFld (d : Dev) (life : Nat) (f : Fld) (i j x : Nat) : Dev :=
  match f.acc with
  | .rw => d.set f (d.clampFld f i j x) i j
  | .rwl => if life ≤ 1 then d.set f (d.clampFld f i j x) i j else d
  | .w1c => d.set f (d.get f i j ^^^ (d.get f i j &&& x)) i j
  | _ => d

/-! ## Where an offset lies -/

/-- The instance of a register that holds a byte, and the byte's place in it. -/
def Reg.at (r : Reg) (off : Nat) : Option (Nat × Nat × Nat) :=
  if off < r.base then none
  else
    let a := off - r.base
    let i := if r.n1 = 1 then 0 else a / r.s1
    let b := a - i * r.s1
    let j := if r.n2 = 1 then 0 else b / r.s2
    let c := b - j * r.s2
    if i < r.n1 && j < r.n2 && c < r.bytes then some (i, j, c) else none

/-- A register found by offset: its row, its indexes, the byte's place. -/
structure Hit where
  row : RegRow
  i   : Nat
  j   : Nat
  byte : Nat

def findReg (off : Nat) : Option Hit :=
  Bar.table.findSome? fun w => (w.reg.at off).map fun e => ⟨w, e.1, e.2.1, e.2.2⟩

/-! ## What a register reads as -/

/-- A flag as a bit. -/
def bitOf (b : Bool) : Nat := if b then 1 else 0

/-- A word with one field replaced. -/
def putIn (w : Nat) (f : Fld) (x : Nat) : Nat := splice w f.hi f.lo x

/-- Cores of a cluster in a state. -/
def Dev.coresIn (d : Dev) (c st : Nat) : Nat := ((List.range 16).filter fun k => (d.unit (16 * c + k)).state == st).length

/-- Pages of an object with a tier-1 frame or copy (MEM_OBJ.T1_PAGES). -/
def Dev.t1Pages (d : Dev) (n : Nat) : Nat :=
  let b := d.get Bar.MEM_OBJ_BASE_PAGE n
  let k := d.get Bar.MEM_OBJ_PAGES n
  ((d.pool.pmap.filter fun e => b ≤ e.1 && e.1 < b + k).filter fun e => match kvGet? d.pool.pages e.2 with
    | some p => p.copy.isSome || (p.home.map isT1).getD false
    | none => false).length

/-- Directory entries of a home. -/
def Dev.dirEntries (d : Dev) (die : Nat) : Nat :=
  (d.coh.dir.filter fun e => (d.homeDie (128 * e.1)).getD 0 == die).length

/-- Voters and coordinator, as MBR_STATUS shows them. -/
def Dev.mbrWord (d : Dev) (w : Nat) : Nat :=
  putIn (putIn (putIn w Bar.MBR_STATUS_DECIDING (bitOf d.mbr.decideEnd.isSome)) Bar.MBR_STATUS_COORD (d.coordinator.getD 0))
    Bar.MBR_STATUS_VOTERS d.voters

/-- A register of a unit as a read finds it: the stored word with the fields that follow from the device's state. -/
def Dev.unitWord (d : Dev) (b i j w : Nat) : Nat :=
  if b = Bar.TRL_LL_STATUS.base then
    putIn (putIn w Bar.TRL_LL_STATUS_COMMITTED (d.committed i)) Bar.TRL_LL_STATUS_BUDGET (d.llBudget i)
  else if b = Bar.TRL_PORT_OCC.base then
    putIn (putIn w Bar.TRL_PORT_OCC_IN_CELLS (d.inCells (.fabric i))) Bar.TRL_PORT_OCC_OUT_CELLS (d.outCells (.fabric i))
  else if b = Bar.TRL_COMB_STATUS.base then putIn w Bar.TRL_COMB_STATUS_IN_USE (d.combInUse i)
  else if b = Bar.QOS_ALT_CNT.base then
    putIn (putIn w Bar.QOS_ALT_CNT_LL_CELLS (d.altCells i j true)) Bar.QOS_ALT_CNT_EV_CELLS (d.altCells i j false)
  else if b = Bar.MEM_TIER_STATUS.base then
    putIn (putIn w Bar.MEM_TIER_STATUS_T1_FREE d.t1Free) Bar.MEM_TIER_STATUS_T2_FREE d.t2Free
  else if b = Bar.MEM_OBJ.base then
    putIn (putIn w Bar.MEM_OBJ_T1_PAGES (if d.pool.objs.contains i then d.t1Pages i else 0)) Bar.MEM_OBJ_MIGRATING
      (bitOf (d.pool.jobs.any fun x => x.obj == i && x.kind != 2))
  else if b = Bar.MEM_CXL_STATUS.base then putIn w Bar.MEM_CXL_STATUS_USED_PAGES (d.linkUsed i)
  else if b = Bar.MEM_STACK_STATUS.base then putIn w Bar.MEM_STACK_STATUS_FREE (d.stackFree i)
  else if b = Bar.COH_STAT.base then putIn w Bar.COH_STAT_ENTRIES (d.dirEntries i)
  else if b = Bar.COH_AGENT.base then
    putIn w Bar.COH_AGENT_LINES (if d.flag Bar.COH_AGENT_VALID i then d.agentLines i else 0)
  else if b = Bar.CLU_STATUS.base then
    putIn (putIn (putIn (putIn w Bar.CLU_STATUS_FREE (d.coresIn i 0)) Bar.CLU_STATUS_ASSEMBLING (d.coresIn i 1))
      Bar.CLU_STATUS_RUNNING (d.coresIn i 2)) Bar.CLU_STATUS_DRAINING (d.coresIn i 3)
  else w

/-- A register of the package's own logic as a read finds it. -/
def Dev.ownWord (d : Dev) (z : Fuses) (who : Requester) (b i w : Nat) : Nat :=
  if b = Bar.TIM_NOW.base then d.now % 2 ^ 64
  else if b = Bar.PWR_STATUS.base then putIn w Bar.PWR_STATUS_ALERT (bitOf d.alertDriven)
  else if b = Bar.GEN_ID.base then
    putIn w Bar.GEN_ID_DIE (match who with
      | .gardener x => x % 2
      | _ => 0)
  else if b = Bar.GEN_FW_STATUS.base then
    putIn (putIn (putIn w Bar.GEN_FW_STATUS_HALT0 (bitOf (d.unit 256).halted)) Bar.GEN_FW_STATUS_HALT1 (bitOf (d.unit 257).halted))
      Bar.GEN_FW_STATUS_MIN_SVN z.minSvn
  else if b = Bar.ALT_STATUS.base then putIn w Bar.ALT_STATUS_NQ (d.allotSt i).notes.length
  else if b = Bar.ALT_NPOP.base then d.headNote i
  else if b = Bar.ALT_MAP_CTL.base then putIn w Bar.ALT_MAP_CTL_DRAINING (bitOf d.draining)
  else if b = Bar.SEC_LIFECYCLE.base then putIn w Bar.SEC_LIFECYCLE_STATE z.lifecycle
  else if b = Bar.SEC_STATUS.base then putIn w Bar.SEC_STATUS_TAMPER_COUNT z.tamperCount
  else if b = Bar.SEC_CRED_PK.base then
    (match kvGet? z.creds i with
     | some c => c.pk
     | none => w)
  else if b = Bar.SEC_CRED_CTL.base then
    (match kvGet? z.creds i with
     | some c => putIn (putIn (putIn w Bar.SEC_CRED_CTL_VALID (bitOf c.valid)) Bar.SEC_CRED_CTL_REVOKED (bitOf c.revoked))
         Bar.SEC_CRED_CTL_ROLE c.role
     | none => w)
  else if b = Bar.MBR_STATUS.base then d.mbrWord w
  else if b = Bar.ALM_LIFE.base then putIn w Bar.ALM_LIFE_OP_NS d.opNow
  else if b = Bar.ALM_RD_DATA.base then d.rdData
  else if b = Bar.MGT_CAL_NOW.base then (if d.flag Bar.MGT_PTP_STATUS_VALID then d.calNow % 2 ^ 64 else 0)
  else w

/-- A whole register as a read by a requester finds it. -/
def Dev.readWord (d : Dev) (z : Fuses) (who : Requester) (r : Reg) (i j : Nat) : Nat :=
  d.ownWord z who r.base i (d.unitWord r.base i j (d.word r i j))

/-! ## Reading (R486-R488, R494) -/

/-- A number for a requester's snapshots. -/
def snapKey : Requester → Nat
  | .pf0 => 0
  | .gardener x => 1 + x % 2
  | .iferic n => 16 + n
  | .vf a => 4096 + a

def Dev.setSnap (d : Dev) (who : Requester) (x : Nat × Nat × Nat) : Dev :=
  { d with pieces := { d.pieces with snap := kvPut d.pieces.snap (snapKey who) x } }
def Dev.dropSnap (d : Dev) (who : Requester) : Dev :=
  { d with pieces := { d.pieces with snap := kvDel d.pieces.snap (snapKey who) } }

/-- What a snapshot clears: every RC field of the register goes back to its reset value, which is 0 but for
TIM_WRATE_CLU.LOWEST's 0xFFFF (R29); a notification record leaves its queue, and ALM_RD_DATA moves on. -/
def Dev.clearRc (d : Dev) (h : Hit) : Dev :=
  if h.row.reg.base = Bar.ALT_NPOP.base then d.popNote h.i
  else if h.row.reg.base = Bar.ALM_RD_DATA.base then d.rdAdvance
  else h.row.flds.foldl (fun d f => if f.acc = .rc then
    d.set f (slice (f.reg.reset h.i h.j) f.hi f.lo) h.i h.j else d) d

/-- A piece of a register: from the snapshot when this requester's last access read a lower piece, else from a fresh
one. -/
def Dev.readPiece (d : Dev) (z : Fuses) (who : Requester) (h : Hit) (size : Nat) : Nat × Dev :=
  let key := h.row.reg.key h.i h.j
  let cut (v : Nat) : Nat := v >>> (8 * h.byte) % 2 ^ (8 * size)
  let fresh : Nat × Dev :=
    let v := d.readWord z who h.row.reg h.i h.j
    (cut v, (d.clearRc h).setSnap who (key, h.byte, v))
  match kvGet? d.pieces.snap (snapKey who) with
  | some (k, b, v) => if k = key ∧ b < h.byte then (cut v, d.setSnap who (key, h.byte, v)) else fresh
  | none => fresh

/-- A read of 4 or 8 aligned bytes of the register blocks. -/
def Dev.readRegs (d : Dev) (z : Fuses) (who : Requester) (off size : Nat) : Nat × Dev :=
  if off = 0x1400020 then
    let lo := d.word Bar.ALM_RD_CTL
    (if size = 4 then lo else lo + d.get Bar.ALM_LIFE_POWER_CYCLES * 2 ^ 32, d.dropSnap who)
  else match findReg off with
    | none =>
      (match if size = 8 then findReg (off + 4) else none with
      | some h =>
        let r := d.readPiece z who h 4
        (r.1 * 2 ^ 32, r.2)
      | none => (0, d.dropSnap who))
    | some h =>
      if size = 8 ∧ h.row.reg.bytes - h.byte ≤ 4 then
        let a := d.readPiece z who h 4
        (match findReg (off + 4) with
        | some g =>
          let b := a.2.readPiece z who g 4
          (a.1 + b.1 * 2 ^ 32, b.2)
        | none => a)
      else
        let r := d.readPiece z who h size
        (r.1, if off = Bar.TIM_NOW.base ∧ size = 4 then r.2.set Bar.TIM_NOW_HI_SHADOW_NS_HI (d.now / 2 ^ 32) else r.2)

/-- The 16 bytes of an MSI-X table entry. -/
def MsixEntry.word (e : MsixEntry) : Nat := e.addr % 2 ^ 64 + e.data % 2 ^ 32 * 2 ^ 64 + bitOf e.mask * 2 ^ 96

/-- Pending bits of n entries from entry e0 on, the first in bit 0. -/
def Dev.pba (d : Dev) (e0 n : Nat) : Nat := ((List.range n).map fun k => bitOf (d.ep.pend.contains (e0 + k)) <<< k).sum

/-- A read of the PF0 MSI-X table or its PBA. -/
def Dev.readMsix (d : Dev) (off size : Nat) : Nat :=
  if off < 0x98000 then
    let e := (off - 0x90000) / 16
    if e < 256 then (d.msixEntry e).word >>> (8 * (off % 16)) % 2 ^ (8 * size) else 0
  else d.pba 0 256 >>> (8 * (off - 0x98000)) % 2 ^ (8 * size)

/-- The blocks that RECOVERY serves (R472). -/
def Dev.inReach (d : Dev) (off : Nat) : Bool :=
  d.get Bar.GEN_BOOT_STAGE == 4 || off < 0x100000 || (0x8000000 ≤ off && off < 0x8100000)

/-- The MSI-X area of PF0 and the staging buffer. -/
def inMsix (off : Nat) : Bool := 0x90000 ≤ off && off < 0x98100
def inStaging (off : Nat) : Bool := 0x8000000 ≤ off && off < 0x8100000

/-- A read of 4 or 8 aligned bytes of BAR0. -/
def Dev.read48 (d : Dev) (z : Fuses) (who : Requester) (off size : Nat) : Nat × Dev :=
  if !d.inReach off then (0, d.dropSnap who)
  else if inMsix off then (d.readMsix off size, d.dropSnap who)
  else if inStaging off then
    (if who = .pf0 then leNat ((List.range size).map fun i => kvGetD d.boot.staging (off - 0x8000000 + i) 0) else 0,
      d.dropSnap who)
  else d.readRegs z who off size

/-- ALT_V_STATUS (R402): NQ in [63:57] and STATE in [62:61], which overlap; where they disagree the two bits are free. -/
def vStatusWord (st nq : Nat) : Nat :=
  splice (nq * 2 ^ 57) 62 61 (if nq / 16 % 4 = st then st else Config.vStatusOverlap st nq % 4)

/-- The registers of VF BAR0 as words with their offset and width in bytes (R390, R391, R422). -/
def Dev.vfWords (d : Dev) (a : Nat) : List (Nat × Nat × Nat) :=
  let c := kvGetD d.sec.coarse a []
  let q := d.readWord { lifecycle := 0, tamperCount := 0, serial := 0, minSvn := 0, creds := [], macs := (0, 0), idSeed := 0
                        repairs := [] } (.vf a) Bar.ALT_STATUS a 0
  [ (0x0000, 16, d.headNote a),
    (0x0010, 8, vStatusWord (d.altState a) (slice q Bar.ALT_STATUS_NQ.hi Bar.ALT_STATUS_NQ.lo)),
    (0x0100, 16, c.getD 0 0), (0x0110, 8, c.getD 1 0), (0x0118, 16, c.getD 2 0), (0x0128, 8, c.getD 3 0) ]

/-- A piece of a register of a VF: its read of the lowest byte of ALT_V_NOTIFY removes the record. -/
def Dev.readVf (d : Dev) (a off size : Nat) : Nat × Dev :=
  let who := Requester.vf a
  if 0x1000 ≤ off ∧ off < 0x1000 + 16 * 7 then
    ((d.msixEntry (vfEntry a ((off - 0x1000) / 16))).word >>> (8 * (off % 16)) % 2 ^ (8 * size), d.dropSnap who)
  else if off = 0x1800 then (d.pba (vfEntry a 0) 7, d.dropSnap who)
  else match (d.vfWords a).find? fun e => e.1 ≤ off && off < e.1 + e.2.1 with
    | none => (0, d.dropSnap who)
    | some (b, _, v) =>
      let cut (v : Nat) : Nat := v >>> (8 * (off - b)) % 2 ^ (8 * size)
      let fresh : Nat × Dev := (cut v, (if b = 0 then d.popNote a else d).setSnap who (b, off - b, v))
      match kvGet? d.pieces.snap (snapKey who) with
      | some (k, q, x) => if k = b ∧ q < off - b then (cut x, d.setSnap who (b, off - b, x)) else fresh
      | none => fresh

/-- A read of 1, 2, 4 or 8 bytes; 1 and 2 bytes come from the enclosing 32-bit read (R487). -/
def Dev.barRead (d : Dev) (z : Fuses) (who : Requester) (off0 size0 : Nat) : Nat × Dev :=
  let size := if size0 ≤ 1 then 1 else if size0 ≤ 3 then 2 else if size0 ≤ 7 then 4 else 8
  let off := off0 % 2 ^ 28 / size * size
  let wide := max 4 size
  let base := off / wide * wide
  let r := match who with
    | .vf a => if isTenant a then d.readVf a (base % 65536) wide else (0, d)
    | _ => d.read48 z who base wide
  (r.1 >>> (8 * (off - base)) % 2 ^ (8 * size), r.2)

/-! ## Writing (R486, R489-R493) -/

/-- A command window's OP. -/
def Dev.objOp (d : Dev) (w op : Nat) : Dev :=
  if op = 1 then d.objCmd w Dev.objectCreate
  else if op = 2 then d.objCmd w Dev.objectDestroy
  else if op = 3 then d.objCmd w Dev.setPolicy
  else if op = 4 then d.objCmd w fun d w => d.moveObject w 0
  else if op = 5 then d.objCmd w fun d w => d.moveObject w 1
  else if op = 6 then d.objCmd w Dev.windowCmd
  else d

def Dev.verOp (d : Dev) (w op : Nat) : Dev :=
  if op = 1 then d.verCmd w Dev.createRegion
  else if op = 2 then d.verCmd w Dev.destroyRegion
  else if op = 3 ∨ op = 4 ∨ op = 5 then d.verCmd w fun d w => d.windowOp w op
  else d

def Dev.loadOp (d : Dev) (w op : Nat) : Dev :=
  if op = 1 then d.loadCmd w Dev.loadSlot else if op = 2 then d.loadCmd w Dev.unloadSlot else d

def Dev.sesOp (d : Dev) (w op : Nat) : Dev :=
  if op = 1 then d.sesCmd w Dev.createSession
  else if op = 2 then d.sesCmd w Dev.closeSession
  else if op = 3 then d.sesCmd w Dev.setPlan
  else if op = 4 then d.sesCmd w Dev.readSession
  else d

/-- The fields of a register that a write reaches, stored in the order of the map. -/
def Dev.stores (d : Dev) (life : Nat) (h : Hit) (touched : Fld → Bool) (v : Nat) : Dev :=
  h.row.flds.foldl (fun d f => if touched f then d.writeFld life f h.i h.j (slice v f.hi f.lo) else d) d

/-- LNK_PORT_CFG: WIDTH before MIN_WIDTH, then the layout, then ENABLE (R45, R46, R51, R63). -/
def Dev.writePortCfg (d : Dev) (life : Nat) (h : Hit) (touched : Fld → Bool) (v : Nat) : Dev :=
  let p := h.i
  let d1 := d.set Bar.LNK_PORT_CFG_WIDTH (d.clampFld Bar.LNK_PORT_CFG_WIDTH p 0 (slice v 1 0)) p
  let d2 := (d1.stores life h (fun f => touched f && f != Bar.LNK_PORT_CFG_ENABLE) v).applyLayout (p / 8)
  if v.testBit 8 then (if d.flag Bar.LNK_PORT_CFG_ENABLE p then d2 else d2.portEnable p)
  else if d.flag Bar.LNK_PORT_CFG_ENABLE p then d2.portDisable p
  else d2

/-- ALT_CFG: ENABLE moves a tenant between DISABLED and ACTIVE (R384); in RETURNED it ignores writes (R405). -/
def Dev.writeAltCfg (d : Dev) (life : Nat) (h : Hit) (touched : Fld → Bool) (v : Nat) : Dev :=
  let d1 := d.stores life h (fun f => touched f && f != Bar.ALT_CFG_ENABLE) v
  if touched Bar.ALT_CFG_ENABLE && isTenant h.i then
    (if v.testBit 63 then (if life = 3 then d1 else d1.enableAllot h.i) else d1.disableAllot h.i)
  else d1

/-- MBR_MEMBER: VALID, VOTER and ENDPOINT of an IN entry do not change (R454). -/
def Dev.writeMember (d : Dev) (life : Nat) (h : Hit) (touched : Fld → Bool) (v : Nat) : Dev :=
  d.stores life h (fun f => touched f && (f == Bar.MBR_MEMBER_WATCH || !d.flag Bar.MBR_MEMBER_IN h.i)) v

/-- MBR_CTL: EP, then its triggers. -/
def Dev.writeMbrCtl (d : Dev) (life : Nat) (h : Hit) (touched : Fld → Bool) (v : Nat) : Dev :=
  let d1 := d.stores life h touched v
  let d2 := if v.testBit 31 then d1.found else d1
  let d3 := if v.testBit 30 then d2.join (d2.get Bar.MBR_CTL_EP) else d2
  let d4 := if v.testBit 29 then d3.rejoin else d3
  if v.testBit 28 then d4.sendMap else d4

/-- ALM_RD_CTL: OFFSET aligned and clamped to its area. -/
def Dev.writeRdCtl (d : Dev) (life : Nat) (h : Hit) (touched : Fld → Bool) (v : Nat) : Dev :=
  let d1 := d.stores life h touched v
  d1.set Bar.ALM_RD_CTL_OFFSET d1.rdOffset

/-- Registers whose write does more than store: memory, objects and units. -/
def Dev.writeUnits (d : Dev) (life : Nat) (h : Hit) (touched : Fld → Bool) (v : Nat) : Option Dev :=
  let b := h.row.reg.base
  let i := h.i
  let j := h.j
  let st := d.stores life h touched v
  if b = Bar.MEM_OBJ_CMD.base then some (d.objOp i (slice v 7 0))
  else if b = Bar.MEM_SPAN.base then some (d.writeSpan i v)
  else if b = Bar.MEM_CXL_CTL.base then
    some (if v.testBit 0 == d.flag Bar.MEM_CXL_CTL_ENABLE i then d else if v.testBit 0 then d.cxlEnable i else d.cxlDisable i)
  else if b = Bar.CLU_BANK.base then some ((d.writeBank (.cluster i j) v).checkGroups)
  else if b = Bar.CLU_CORE_OWN.base then some ((d.writeBank (.core i j 0) v).checkGroups)
  else if b = Bar.CLU_MARCH_CTL.base then some (d.marchStart i v)
  else if b = Bar.CLU_TBT_CTL.base then some (d.tbtStart v)
  else if b = Bar.NMU_CMD_GO.base then
    some (if v.testBit 0 then d.nmuWindow i (nmuOp ((List.range 8).map fun n => d.get Bar.NMU_CMD_DESC_WORD i n)) else d)
  else if b = Bar.COH_AGENT.base then some (d.writeAgent i v)
  else if b = Bar.COH_RECALL_CTL.base then some (if v.testBit 63 then d.recall i else d)
  else if b = Bar.VER_CMD.base then some (d.verOp i (slice v 7 0))
  else if b = Bar.CLU_LOAD_CMD.base then some (d.loadOp i (slice v 7 0))
  else if b = Bar.SES_CMD.base then some (if d.flag Bar.SES_RESULT_DONE i then st.sesOp i (slice v 7 0) else d)
  else if b = Bar.EXP_EGR.base then some (d.egrWrite i v)
  else if b = Bar.RKS_GRP.base then some (d.grpWrite i v)
  else none

/-- Registers whose write does more than store: ports, allotments, security, membership, Almanac, management. -/
def Dev.writeOwn (d : Dev) (life : Nat) (who : Requester) (h : Hit) (touched : Fld → Bool) (v : Nat) : Option Dev :=
  let b := h.row.reg.base
  let i := h.i
  let st := d.stores life h touched v
  if b = Bar.LNK_PORT_CFG.base then some (d.writePortCfg life h touched v)
  else if b = Bar.LNK_PORT_CTL.base then
    some (let d1 := if v.testBit 1 then d.portRetrain i else d
          if v.testBit 0 then d1.portAccept i else d1)
  else if b = Bar.TRL_PORT_LL.base then some (d.writePortLl i v)
  else if b = Bar.ALT_CFG.base then some (d.writeAltCfg life h touched v)
  else if b = Bar.ALT_RESET.base then some (if v.testBit 31 then d.resetAllot (slice v 7 0) 0 else d)
  else if b = Bar.ALT_MAP_CTL.base then some (if v.testBit 31 then d.mapChanged else d)
  else if b = Bar.SEC_KEY_CMD.base then
    some (if v.testBit 31 ∧ st.get Bar.SEC_KEY_CMD_OP = 1 then st.removeCmd (st.get Bar.SEC_KEY_CMD_ALLOT) else st)
  else if b = Bar.MBR_CTL.base then some (d.writeMbrCtl life h touched v)
  else if b = Bar.MBR_MEMBER.base then some (d.writeMember life h touched v)
  else if b = Bar.MBR_ATT_CMD.base then some (if slice v 7 0 = 1 then d.attach i else d)
  else if b = Bar.ALM_CTL.base then
    some (let d1 := if v.testBit 31 then d.startErase who else d
          let d2 := if v.testBit 30 then d1.flush else d1
          if v.testBit 29 then d2.histClear else d2)
  else if b = Bar.ALM_RD_CTL.base then some (d.writeRdCtl life h touched v)
  else if b = Bar.WDP_CFG.base then
    some (let d1 := if touched Bar.WDP_CFG_ENABLE && !v.testBit 0 && d.flag Bar.WDP_CFG_ENABLE then st.wdpDisable else st
          if d1.passPeriod = d.passPeriod then d1 else d1.nextPass)
  else if b = Bar.WDP_CAL_CMD.base then some (d.calWrite v)
  else if b = Bar.TIM_WMON_CTL.base then
    some (if v.testBit 10 && !d.flag Bar.TIM_WMON_CTL_ENABLE then st.startWindow else st)
  else if b = Bar.PWR_AVS.base then some st.avsTarget
  else if b = Bar.GEN_INT.base then some (d.genIntWrite who (v % 2 ^ 20))
  else if b = Bar.MGT_LANE.base then
    some (if !st.flag Bar.MGT_LANE_ENABLE i then st.laneDown i else if d.flag Bar.MGT_LANE_ENABLE i then st else st.laneStarts i)
  else none

/-- Before a write of a rate or a burst: the tokens held so far are those of the old rate (R115, R116, R392, R399);
membership timers change at the next heartbeat window (R454). -/
def Dev.settleRates (d : Dev) (h : Hit) : Dev :=
  let b := h.row.reg.base
  if b = Bar.QOS_SHAPE.base then d.settleShape h.i h.j
  else if b = Bar.QOS_SCHED.base then d.settleGuar h.i
  else if b = Bar.QOS_POLICE.base then d.settlePolice h.i h.j
  else if b = Bar.ALT_SHAPE.base then d.settleOrigin h.j
  else if b = Bar.ALT_CFG.base then d.refillTokens h.i
  else if b = Bar.MBR_CFG.base then d.keepTimers
  else d

/-- A write of a register that changes no fuse. -/
def Dev.writeReg (d0 : Dev) (life : Nat) (who : Requester) (h : Hit) (touched : Fld → Bool) (v : Nat) : Dev :=
  let d := d0.settleRates h
  match d.writeUnits life h touched v with
  | some e => e
  | none => match d.writeOwn life who h touched v with
    | some e => e
    | none => d.stores life h touched v

/-- The requesters that write with PF0's rights (R425, R493). -/
def asPf0 : Requester → Bool
  | .pf0 => true
  | .iferic _ => true
  | _ => false

/-- A write with PF0's rights: the TDIs whose allotments it touches move to ERROR (R474). -/
def Dev.afterPf0 (d d1 : Dev) (who : Requester) (h : Hit) : Dev :=
  if asPf0 who then
    let e := d.tdiGuard d1
    if h.row.reg.base = Bar.ALT_CFG.base ∨ h.row.reg.base = Bar.SEC_ALT_OWNER.base then e.tdiTouch h.i else e
  else d1

/-- The firmware control register: its fields, then RELOAD and COMMIT_SVN (R479, R480). -/
def State.writeFwCtl (s : State) (who : Requester) (v : Nat) : State :=
  let t := s.onDev fun d => d.putFwCtl v
  let t1 := if v.testBit 31 then t.startReload else t
  if v.testBit 30 && t1.dev.ready && t1.dev.ownerOrPf0 who then t1.commitSvn else t1

/-- A credential's control register: ROLE while unlocked, then REVOKE and PROGRAM (R426). -/
def State.writeCred (s : State) (h : Hit) (touched : Fld → Bool) (v : Nat) : State :=
  let t := s.onDev fun d => d.stores s.fuses.lifecycle h touched v
  let t1 : State := if v.testBit 29 then { t with fuses := t.fuses.revoke h.i } else t
  if v.testBit 28 && t1.fuses.lifecycle == 1 then
    { t1 with fuses := t1.fuses.program h.i (t1.dev.get Bar.SEC_CRED_PK_PK h.i) (t1.dev.get Bar.SEC_CRED_CTL_ROLE h.i) }
  else t1

def State.writeReg (s : State) (who : Requester) (h : Hit) (touched : Fld → Bool) (v : Nat) : State :=
  let b := h.row.reg.base
  if b = Bar.SEC_LIFECYCLE.base then s.lifecycleWrite who v
  else if b = Bar.SEC_CRED_CTL.base then s.writeCred h touched v
  else if b = Bar.GEN_FW_CTL.base then s.writeFwCtl who v
  else s.onDev fun d => d.afterPf0 (d.writeReg s.fuses.lifecycle who h touched v) who h

/-! ### Pieces -/

/-- The key of a 32-bit word that a requester wrote last. -/
def lowKey (who : Requester) (off : Nat) : Nat := snapKey who * 2 ^ 32 + off

/-- The image of a register in which a requester's last writes to lower pieces stand (R489). -/
def Dev.lowImage (d : Dev) (who : Requester) (h : Hit) (w : Nat) : Nat :=
  let key := h.row.reg.key h.i h.j
  ((List.range (h.row.reg.bytes / 4)).map fun k =>
    kvGetD d.pieces.low (lowKey who (key + 4 * k)) (slice w (32 * k + 31) (32 * k)) <<< (32 * k)).sum

/-- The whole register as a write of a piece leaves it, and the fields that take effect: those whose highest byte lies in
the piece. Trigger and W1C bits outside the piece read 0. -/
def Dev.pieceImage (d : Dev) (who : Requester) (h : Hit) (size val : Nat) : Nat × (Fld → Bool) :=
  let lo := 8 * h.byte
  let hi := lo + 8 * size - 1
  let w := d.word h.row.reg h.i h.j
  let img := splice (d.lowImage who h w) hi lo val
  let touched (f : Fld) : Bool := lo ≤ f.hi && f.hi ≤ hi
  (h.row.flds.foldl (fun v f =>
    let x := if touched f then slice img f.hi f.lo
      else match f.acc with
        | .rw => slice w f.hi f.lo
        | .rwl => slice w f.hi f.lo
        | _ => 0
    splice v f.hi f.lo x) 0, touched)

/-- The words of a piece stay for a field that goes on above it. -/
def Dev.keepLow (d : Dev) (who : Requester) (h : Hit) (size val : Nat) : Dev :=
  let hi := 8 * h.byte + 8 * size - 1
  if h.row.flds.any fun f => f.lo ≤ hi && hi < f.hi then
    let key := h.row.reg.key h.i h.j + h.byte
    { d with pieces := { d.pieces with
      low := (List.range (size / 4)).foldl (fun l k => kvPut l (lowKey who (key + 4 * k)) (slice val (32 * k + 31) (32 * k)))
        d.pieces.low } }
  else d

/-- A write of one piece of one register. -/
def State.writePiece (s : State) (who : Requester) (h : Hit) (size val : Nat) : State :=
  let t := s.onDev fun d => d.keepLow who h size val
  let p := s.dev.pieceImage who h size val
  t.writeReg who h p.2 p.1

/-- A write of 4 or 8 aligned bytes of the register blocks. -/
def State.writeRegs (s : State) (who : Requester) (off size val : Nat) : State :=
  let low := val % 2 ^ 32
  let high := val / 2 ^ 32 % 2 ^ 32
  if off = 0x1400020 then s.onDev fun d => d.writeRdCtl 0 ⟨⟨Bar.ALM_RD_CTL, [Bar.ALM_RD_CTL_AREA, Bar.ALM_RD_CTL_OFFSET]⟩, 0, 0, 0⟩
    (fun _ => true) low
  else match findReg off with
    | none => (match if size = 8 then findReg (off + 4) else none with
      | some h => s.writePiece who h 4 high
      | none => s)
    | some h =>
      if size = 8 ∧ h.row.reg.bytes - h.byte ≤ 4 then
        let t := s.writePiece who h 4 low
        (match findReg (off + 4) with
        | some g => t.writePiece who g 4 high
        | none => t)
      else s.writePiece who h size val

/-- A write of an MSI-X table entry; clearing its mask bit sends what is pending (R388). -/
def Dev.writeMsix (d : Dev) (e byte size val : Nat) : Dev :=
  let x := d.msixEntry e
  let w := splice x.word (8 * byte + 8 * size - 1) (8 * byte) val
  let y : MsixEntry := { addr := w % 2 ^ 64, data := w / 2 ^ 64 % 2 ^ 32, mask := w.testBit 96 }
  let d1 : Dev := { d with ep := { d.ep with table := kvPut d.ep.table e y } }
  if x.mask && !y.mask then d1.sendPending e else d1

/-- A write of the staging buffer. -/
def Dev.writeStaging (d : Dev) (off size val : Nat) : Dev :=
  { d with boot := { d.boot with staging := (List.range size).foldl (fun m i =>
    let b : Byte := BitVec.ofNat 8 (val >>> (8 * i))
    if b = 0 then kvDel m (off + i) else kvPut m (off + i) b) d.boot.staging } }

/-- A write of VF BAR0: only the VF's MSI-X table takes writes. -/
def Dev.writeVf (d : Dev) (a off size val : Nat) : Dev :=
  if 0x1000 ≤ off ∧ off < 0x1000 + 16 * 7 then d.writeMsix (vfEntry a ((off - 0x1000) / 16)) (off % 16) size val else d

/-- A write of BAR0 by a requester: 1 and 2 bytes are ignored (R487); a VF writes its own BAR0 only (R493). -/
def State.barWrite (s0 : State) (who : Requester) (off0 size0 val : Nat) : State :=
  if size0 < 4 then s0
  else
    let size := if size0 < 8 then 4 else 8
    let off := off0 % 2 ^ 28 / size * size
    let s := s0.onDev fun d => d.dropSnap who
    match who with
    | .vf a => if isTenant a then s.onDev fun d => d.writeVf a (off % 65536) size val else s
    | _ =>
      if !s.dev.inReach off then s
      else if inMsix off then
        (let e := (off - 0x90000) / 16
         if e < 256 then s.onDev fun d => d.writeMsix e (off % 16) size val else s)
      else if inStaging off then (if who = .pf0 then s.onDev fun d => d.writeStaging (off - 0x8000000) size val else s)
      else s.writeRegs who off size val

/-! ## The rows -/

/-- A register is written by a raw access (R486-R493). -/
def execRegisterWrite (who : Requester) (off size val : Nat) (s : State) : Out :=
  .next (if s.dev.serves then s.barWrite who off size val else s)

/-- A raw read: what it returns leaves the package. -/
def State.rawRead (s : State) (who : Requester) (off size : Nat) : State :=
  s.onDev fun d =>
    let r := d.barRead s.fuses who off size
    r.2.emit (.readData who off size r.1)

def execRcRead (who : Requester) (off size : Nat) (s : State) : Out :=
  .next (if s.dev.serves then s.rawRead who off size else s)

/-- A 32-bit read of TIM_NOW's lower half (R37, R488). -/
def execTimNowRead (who : Requester) (s : State) : Out :=
  .next (if s.dev.serves then s.rawRead who Bar.TIM_NOW.base 4 else s)

def execGenIntWrite (who : Requester) (v : Nat) (s : State) : Out :=
  .next (if s.dev.serves then s.onDev fun d => (d.dropSnap who).genIntWrite who (v % 2 ^ 20) else s)

end Sys2Proof.Machine
end

