-- ==== Sys2Proof/Machine/Iferic.lean ====
section
/-! DEFINITION. Iferic sessions and commands on the management port (R423-R426, R482). A command row names a RECORD that has
opened under its session's key; `seq` is its sequence number. -/

namespace Sys2Proof.Machine

/-! ## Sessions (R424, R425) -/

/-- The signing requests of an Iferic session. -/
def jobOf (n : Nat) : SignJob → Bool
  | .hello x _ _ _ => x == n
  | .ifrReport x _ _ => x == n
  | _ => false

/-- A session ends, and with it the signatures it waits for. -/
def Dev.endIfr (d : Dev) (n : Nat) : Dev :=
  ({ d with sec := { d.sec with ifr := kvDel d.sec.ifr n } }).setSigning (d.sec.signing.filter fun j => !jobOf n j)

/-- Pieces of registers that an earlier session of the number read or wrote are no longer known (R488, R489). -/
def Dev.newRequester (d : Dev) (n : Nat) : Dev :=
  { d with pieces := { d.pieces with
    snap := kvDel d.pieces.snap (snapKey (.iferic n)), low := d.pieces.low.filter fun e => e.1 / 2 ^ 32 != snapKey (.iferic n) } }

/-- HELLO: a session takes the lowest free number, and its HELLO_RSP waits for the sign engine. A HELLO beyond four
sessions, or before ID_READY, is dropped; one that would be the ninth signing request to wait is answered BUSY (R410). -/
def Dev.ifrHello (d : Dev) (lane : Nat) (nonce ek : List Byte) (cred : Nat) : Dev :=
  match kvFree d.sec.ifr 4 with
  | none => d
  | some n =>
    if 2 ≤ lane || !d.flag Bar.MGT_LANE_LINK lane || !d.flag Bar.SEC_STATUS_ID_READY then d
    else if d.signFull then d.ifrSend n 2 Code.busy []
    else
      let x := (d.newRequester n).fresh
      let k := Config.kemEncaps ek x.1
      let s : Ifr := {
        lane := lane, phase := 0, cred := cred, role := 0, seen := [], secret := k.2, digest := 0, deadline := 0 }
      let d1 : Dev := { x.2 with sec := { x.2.sec with ifr := kvPut x.2.sec.ifr n s } }
      d1.setSigning (d1.sec.signing ++ [.hello n (nonce ++ ek ++ toLe 1 cred) k.1 nonce])

def execIfrHello (lane : Nat) (nonce ek : List Byte) (cred : Nat) (s : State) : Out :=
  .next (if s.dev.serves then s.onDev fun d => d.ifrHello lane nonce ek cred else s)

/-- The credential that an AUTH names signed the digest of HELLO and HELLO_RSP. -/
def Fuses.authentic (z : Fuses) (x : Ifr) (sig : List Byte) : Option Cred :=
  match kvGet? z.creds x.cred with
  | some c => if c.valid && !c.revoked && Config.slhVerify c.pk (toLe 64 x.digest) sig then some c else none
  | none => none

/-- AUTH opens the session, or ends it without an answer. -/
def State.ifrAuth (s : State) (n : Nat) (sig : List Byte) : State :=
  match kvGet? s.dev.sec.ifr n with
  | none => s
  | some x =>
    if x.phase ≠ 1 then s
    else match s.fuses.authentic x sig with
      | some c => s.onDev fun d => (d.modIfr n fun x => { x with
          phase := 2, role := c.role, deadline := d.now + 60000000000 }).ifrSend n 0 Code.ok []
      | none => s.onDev fun d => (d.endIfr n).bump Bar.SEC_STATUS_IFR_REJECT 1

def execIfrAuth (session : Nat) (sig : List Byte) (s : State) : Out :=
  .next (if s.dev.serves then s.ifrAuth session sig else s)

/-- A session in a phase whose time has run out ends. -/
def Dev.ifrExpire (d : Dev) (n phase : Nat) : Dev :=
  match kvGet? d.sec.ifr n with
  | some x => if x.phase = phase ∧ x.deadline ≤ d.now then d.endIfr n else d
  | none => d

def execIfrAuthTimeout (session : Nat) (s : State) : Out := .next (s.live fun d => d.ifrExpire session 1)

def execIfrSessionIdle (session : Nat) (s : State) : Out := .next (s.live fun d => d.ifrExpire session 2)

def execIfrClose (session : Nat) (s : State) : Out := .next (s.live fun d => d.endIfr session)

/-! ## Commands (R425) -/

/-- A sequence number that the window of the 64 highest takes. -/
def seqFresh (seen : List Nat) (seq : Nat) : Bool :=
  decide (seq < 2 ^ 63) && !seen.contains seq && decide (seen.foldl max 0 < seq + 64)

/-- The window with one more number. -/
def seqTake (seen : List Nat) (seq : Nat) : List Nat :=
  let l := seq :: seen
  let m := l.foldl max 0
  l.filter fun x => m < x + 64

/-- A RECORD of an open session: dropped when its SEQ is not new; ACCESS above the session's role, and in RECOVERY for
all but REPORT, REG_READ and FW_RELOAD (R482). -/
def State.ifrCmd (s : State) (n seq code least : Nat) (act : State → State) : State :=
  match kvGet? s.dev.sec.ifr n with
  | none => s
  | some x =>
    if !s.dev.serves || x.phase != 2 || !seqFresh x.seen seq then s
    else
      let t := s.onDev fun d => d.modIfr n fun x => { x with
        seen := seqTake x.seen seq, deadline := d.now + 60000000000 }
      let served := t.dev.ready || code == 1 || code == 4 || code == 9
      if x.role < least || !served then t.onDev fun d => d.ifrSend n code Code.access [] else act t

/-- A command's answer. -/
def State.ifrAnswer (s : State) (n code status : Nat) (body : List Byte) : State :=
  s.onDev fun d => d.ifrSend n code status body

def execIfrRegRead (session seq off size : Nat) (s : State) : Out :=
  .next (s.ifrCmd session seq 1 0 fun s =>
    let r := s.dev.barRead s.fuses (.iferic session) off size
    State.ifrAnswer { s with dev := r.2 } session 1 Code.ok (toLe (min 8 size) r.1))

def execIfrRegWrite (session seq off size val : Nat) (s : State) : Out :=
  .next (s.ifrCmd session seq 2 1 fun s => (s.barWrite (.iferic session) off size val).ifrAnswer session 2 Code.ok [])

/-- The longest answer of 256 fragments of 1,400 B (R423). -/
def ifrMost : Nat := 256 * 1400 - 16

/-- A range of the Almanac region, cut at its end and at the longest message. -/
def Dev.almBytes (d : Dev) (off len : Nat) : List Byte :=
  d.flashBytes (almBase + min off 8388608) (min (min len ifrMost) (8388608 - off))

def execIfrAlmanacRead (session seq off len : Nat) (s : State) : Out :=
  .next (s.ifrCmd session seq 3 0 fun s => s.ifrAnswer session 3 Code.ok (s.dev.almBytes off len))

/-- A chunk of an image enters the staging buffer. -/
def Dev.stage (d : Dev) (off : Nat) (bs : List Byte) : Dev :=
  { d with boot := { d.boot with staging := bs.zipIdx.foldl (fun m (e : Byte × Nat) =>
    if 0x100000 ≤ off + e.2 then m else if e.1 = 0 then kvDel m (off + e.2) else kvPut m (off + e.2) e.1) d.boot.staging } }

/-- FW_RELOAD: BUSY while a reload runs; the last chunk starts a RELOAD of the staged bytes up to its end. -/
def State.fwReload (s : State) (n off : Nat) (chunk : List Byte) (start : Bool) : State :=
  if !s.dev.flag Bar.GEN_FW_STATUS_DONE then s.ifrAnswer n 4 Code.busy []
  else
    let t := s.onDev fun d => d.stage off chunk
    if !start then t.ifrAnswer n 4 Code.ok []
    else
      let u := (t.onDev fun d => (d.set Bar.GEN_FW_CTL_SOURCE 1).set Bar.GEN_FW_CTL_LEN
        (clampTo 29928 1048575 (off + chunk.length))).startReload
      u.ifrAnswer n 4 (if u.dev.flag Bar.GEN_FW_STATUS_DONE then Code.access else Code.ok) []

def execIfrFwReload (session seq off : Nat) (chunk : List Byte) (start : Bool) (s : State) : Out :=
  .next (s.ifrCmd session seq 4 1 fun s => s.fwReload session off chunk start)

def execIfrAllotRemove (session seq a : Nat) (s : State) : Out :=
  .next (s.ifrCmd session seq 5 1 fun s =>
    if isTenant a then (s.onDev fun d => d.removeTenant a).ifrAnswer session 5 Code.ok []
    else s.ifrAnswer session 5 Code.access [])

/-- A programmed slot cannot be changed (R426). -/
def execIfrCredAdd (session seq slot : Nat) (pk : List Byte) (role : Nat) (s : State) : Out :=
  .next (s.ifrCmd session seq 6 2 fun s =>
    if slot < 16 ∧ (kvGet? s.fuses.creds slot).isNone then
      State.ifrAnswer { s with fuses := s.fuses.program slot (leNat (pk.take 64)) role } session 6 Code.ok []
    else s.ifrAnswer session 6 Code.access [])

def execIfrCredRevoke (session seq slot : Nat) (s : State) : Out :=
  .next (s.ifrCmd session seq 7 2 fun s =>
    if (kvGet? s.fuses.creds slot).isSome then
      State.ifrAnswer { s with fuses := s.fuses.revoke slot } session 7 Code.ok []
    else s.ifrAnswer session 7 Code.access [])

/-- LIFECYCLE: TARGET and CONFIRM as a write of SEC_LIFECYCLE with GO; ACCESS when the state does not move. -/
def execIfrLifecycle (session seq target confirm : Nat) (s : State) : Out :=
  .next (s.ifrCmd session seq 8 2 fun s =>
    let t := s.lifecycleWrite (.iferic session) (confirm % 65536 * 2 ^ 16 + target % 4 * 2 ^ 10 + 2 ^ 9)
    t.ifrAnswer session 8 (if t.fuses.lifecycle = s.fuses.lifecycle then Code.access else Code.ok) [])

/-- REPORT: a report waits for the sign engine; a ninth waiting request is answered BUSY (R410), one of an allotment in
reset RESETTING (R385). -/
def execIfrReport (session seq a : Nat) (nonce : List Byte) (s : State) : Out :=
  .next (s.ifrCmd session seq 9 0 fun s =>
    if 256 ≤ a then s.ifrAnswer session 9 Code.access []
    else if s.dev.inReset a then s.ifrAnswer session 9 Code.resetting []
    else if s.dev.signFull then s.ifrAnswer session 9 Code.busy []
    else if !s.dev.sec.idKey then s
    else s.onDev fun d => d.setSigning (d.sec.signing ++ [.ifrReport session a nonce]))

end Sys2Proof.Machine
end

