-- ==== Sys2Proof/Machine/Scalar.lean ====
section
/-! DEFINITION. What scalar, control, scalar scratchpad, bank-atomic, token and special-register instructions do when
their engine performs them (R234, R249-R253, R256, R267, R268, R273). -/

namespace Sys2Proof.Machine

/-! ## Scalar arithmetic (R249, R250) -/

/-- A scalar operation of s[RA] and b. -/
def Dev.iScalar (d : Dev) (k : Nat) (rd ra rb : BitVec 5) (imm : W32) (f : W64 → W64 → W64) : Act :=
  .go (d.ws k rd (f (d.rs k ra) (d.opB k rb imm)) (d.sBad k ra || d.sBad k rb))

/-- Signed quotient rounded toward zero; a divisor of 0 is clamped to 1. -/
def divOp (a b : W64) : W64 := BitVec.sdiv a (if b = 0 then 1 else b)

/-- The shift count: b, unsigned, clamped to 63. -/
def shiftCount (b : W64) : Nat := min 63 b.toNat

def sllOp (a b : W64) : W64 := a <<< shiftCount b
def srlOp (a b : W64) : W64 := a >>> shiftCount b
def sraOp (a b : W64) : W64 := a.sshiftRight (shiftCount b)
def sltOp (a b : W64) : W64 := if a.slt b then 1 else 0
def sltuOp (a b : W64) : W64 := if a.ult b then 1 else 0

def Dev.iLi (d : Dev) (k : Nat) (rd : BitVec 5) (imm : BitVec 45) : Act := .go (d.ws k rd (imm.signExtend 64) false)

/-- Bits [63:45] take IMM45[18:0], bits [44:0] stay. -/
def lihOp (old : W64) (imm : BitVec 45) : W64 := (imm.extractLsb' 0 19) ++ (old.extractLsb' 0 45)

def Dev.iLih (d : Dev) (k : Nat) (rd : BitVec 5) (imm : BitVec 45) : Act :=
  .go (d.ws k rd (lihOp (d.rs k rd) imm) (d.sBad k rd))

/-! ## Control and branch (R251, R252) -/

/-- The condition of a branch; a COND of 7 is clamped to 6. -/
def branchCond (cond : BitVec 3) (a b : W64) : Bool :=
  match cond.toNat with
  | 0 => true
  | 1 => a == b
  | 2 => a != b
  | 3 => a.slt b
  | 4 => !a.slt b
  | 5 => a.ult b
  | _ => !a.ult b

/-- A branch to an offset from the unit's own index, or on to the next instruction. -/
def Dev.branch (d : Dev) (k : Nat) (taken : Bool) (off : W32) : Act :=
  if taken then .jump d (Int.ofNat (d.unit k).pc + off.toInt) else .go d

def Dev.iBcc (d : Dev) (k : Nat) (ra rb : BitVec 5) (cond : BitVec 3) (off : W32) : Act :=
  d.branch k (branchCond cond (d.rs k ra) (d.rs k rb)) off

def Dev.iBpany (d : Dev) (k : Nat) (p : BitVec 3) (off : W32) : Act := d.branch k (d.rp k p.toNat != 0) off

def Dev.iBl (d : Dev) (k : Nat) (ra : BitVec 5) (off : W32) : Act :=
  (d.ws k ra (BitVec.ofNat 64 ((d.unit k).pc + 1)) false).branch k true off

def Dev.iJr (d : Dev) (k : Nat) (ra : BitVec 5) (off : W32) : Act := .jump d ((d.rs k ra).toInt + off.toInt)

/-- END (R239, R252): it waits until every engine's queue is empty, then the core drains; a Gardener, which has no
RESULT, stops. -/
def Dev.iEnd (d : Dev) (k : Nat) (ra rb : BitVec 5) : Act :=
  let a := spadAddr (d.rs k ra)
  let n := min 524288 (d.rs k rb).toNat
  if (d.unit k).queues.any fun e => !e.2.isEmpty then .wait d
  else if n ≠ 0 ∧ ¬ d.spadOk k a n then .fault d Cause.spadAccess 0 a
  else if k < 256 then .wait (d.modUnit k fun u => { u with state := 3, res := (a, n) })
  else .wait (d.modUnit k fun u => { u with halted := true })

def Dev.iFault (d : Dev) (_k : Nat) (off : W32) : Act := .fault d Cause.explicit (off.toNat % 256) 0

/-! ## Scalar scratchpad and bank atomics (R153, R253, R256) -/

def memAddr (d : Dev) (k : Nat) (ra : BitVec 5) (imm : W32) (n : Nat) : Nat := alignDown (spadAddr (d.opB k ra imm)) n

def Dev.iLd (d : Dev) (k : Nat) (rd ra : BitVec 5) (sz : BitVec 2) (imm : W32) : Act :=
  let n := 2 ^ sz.toNat
  let a := memAddr d k ra imm n
  d.withSpad k a n fun _ =>
    let r := d.loadSpad k a n
    .go (r.2.2.ws k rd (BitVec.ofNat 64 (leNat r.1)) r.2.1)

def Dev.iSt (d : Dev) (k : Nat) (ra rb : BitVec 5) (sz : BitVec 2) (imm : W32) : Act :=
  let n := 2 ^ sz.toNat
  let a := memAddr d k ra imm n
  d.withSpad k a n fun _ => .go (d.storeSpad k a (toLe n (d.rs k rb).toNat) (d.sBad k rb))

/-- A bank atomic of n bytes: the old value goes to s[RD]; `swap` stores only the operand's poison. -/
def Dev.iAtomic (d : Dev) (k : Nat) (rd ra rb : BitVec 5) (imm : W32) (n : Nat) (swap : Bool) (f : Nat → Nat → Nat) :
    Act :=
  let a := memAddr d k ra imm n
  d.withSpad k a n fun _ =>
    let r := d.loadSpad k a n
    let old := leNat r.1
    let x := (d.rs k rb).toNat % 2 ^ (8 * n)
    let d1 := r.2.2.storeSpad k a (toLe n (f old x)) (d.sBad k rb || (!swap && r.2.1))
    .go (d1.ws k rd (BitVec.ofNat 64 old) r.2.1)

/-- Bytes of a bank atomic: an SZ of 0 or 1 is clamped to 2. -/
def atomBytes (sz : BitVec 2) : Nat := if sz = 3 then 8 else 4

def Dev.iBadd (d : Dev) (k : Nat) (rd ra rb : BitVec 5) (sz : BitVec 2) (imm : W32) : Act :=
  d.iAtomic k rd ra rb imm (atomBytes sz) false fun old x => (old + x) % 2 ^ (8 * atomBytes sz)

def Dev.iBfadd (d : Dev) (k : Nat) (rd ra rb : BitVec 5) (imm : W32) : Act :=
  d.iAtomic k rd ra rb imm 4 false fun old x => (Num.fadd (BitVec.ofNat 32 old) (BitVec.ofNat 32 x)).toNat

def Dev.iBswap (d : Dev) (k : Nat) (rd ra rb : BitVec 5) (sz : BitVec 2) (imm : W32) : Act :=
  d.iAtomic k rd ra rb imm (atomBytes sz) true fun _ x => x

/-! ## Tokens and arrival counters (R234, R267, R268) -/

def Dev.tokens (d : Dev) (k : Nat) (ch : BitVec 5) : Nat := kvGetD (d.unit k).ch (ch.toNat % 16) 0
def Dev.setTokens (d : Dev) (k : Nat) (ch : BitVec 5) (n : Nat) : Dev :=
  d.modUnit k fun u => { u with ch := kvPut u.ch (ch.toNat % 16) n }

/-- A put or take moves b tokens, clamped to 1-255. -/
def tokenCount (b : W64) : Nat := clampTo 1 255 b.toNat

def Dev.iPut (d : Dev) (k : Nat) (ch rb : BitVec 5) (imm : W32) : Act :=
  let n := tokenCount (d.opB k rb imm)
  if d.tokens k ch + n ≤ 255 then .go (d.setTokens k ch (d.tokens k ch + n)) else .wait d

/-- Another waiting take of a channel whose tokens are there comes before engine e's: the round-robin token of the channel
reaches it first (R33, R234). DEDUCED (log entry 82): a take that needs more tokens than there are is not yet in the round. -/
def UnitSt.outranked (u : UnitSt) (c e count : Nat) : Bool :=
  let turn := kvGetD u.takeTurn c 0
  u.takes.any fun t => t.1 == c && decide (t.2.2 ≤ count) && decide ((t.2.1 + 4 - turn) % 4 < (e + 4 - turn) % 4)

/-- A take of engine e on a channel is served, or waits. -/
def UnitSt.takeEnds (u : UnitSt) (c e : Nat) : UnitSt :=
  { u with takes := u.takes.filter fun t => t.1 != c || t.2.1 != e, takeTurn := kvPut u.takeTurn c ((e + 1) % 4) }
def UnitSt.takeWaits (u : UnitSt) (c e n : Nat) : UnitSt :=
  { u with takes := (c, e, n) :: u.takes.filter fun t => t.1 != c || t.2.1 != e }

def Dev.iTake (d : Dev) (k e : Nat) (ch rb : BitVec 5) (imm : W32) : Act :=
  let n := tokenCount (d.opB k rb imm)
  let c := ch.toNat % 16
  if d.tokens k ch < n || (d.unit k).outranked c e (d.tokens k ch) then .wait (d.modUnit k fun u => u.takeWaits c e n)
  else .go ((d.setTokens k ch (d.tokens k ch - n)).modUnit k fun u => u.takeEnds c e)

def Dev.counter (d : Dev) (k : Nat) (ctr : BitVec 5) : Nat := kvGetD (d.unit k).a (ctr.toNat % 16) 0

def Dev.iWait (d : Dev) (k : Nat) (rd ctr rb : BitVec 5) (imm : W32) : Act :=
  let goal := min (2 ^ 48 - 1) (d.opB k rb imm).toNat
  if (d.unit k).pstat.testBit (cfailBit ctr.toNat) then .go (d.ws k rd (BitVec.ofNat 64 Code.pushed) (d.sBad k rb))
  else if goal ≤ d.counter k ctr then .go (d.ws k rd 0 (d.sBad k rb))
  else .wait d

def Dev.iAset (d : Dev) (k : Nat) (ctr rb : BitVec 5) (imm : W32) : Act :=
  .go (d.modUnit k fun u => { u with
    a := kvPut u.a (ctr.toNat % 16) (min (2 ^ 48 - 1) (d.opB k rb imm).toNat)
    pstat := clearBit u.pstat (cfailBit ctr.toNat) })

def Dev.iAget (d : Dev) (k : Nat) (rd ctr : BitVec 5) : Act := .go (d.ws k rd (BitVec.ofNat 64 (d.counter k ctr)) false)

/-! ## Special registers (R273) -/

/-- SCTX reads 0 on a Gardener except GARDENER (R242). -/
def Dev.sctxWord (d : Dev) (k n : Nat) : Nat :=
  if k < 256 then (d.unit k).sctx.getD n 0 else if n = 1 then 1 else 0

def Dev.iRdsctx (d : Dev) (k : Nat) (rd rb : BitVec 5) (imm : W32) : Act :=
  .go (d.ws k rd (BitVec.ofNat 64 (d.sctxWord k (min 7 (d.opB k rb imm).toNat))) (d.sBad k rb))

def Dev.iRdpstat (d : Dev) (k : Nat) (rd : BitVec 5) : Act := .go (d.ws k rd (BitVec.ofNat 64 (d.unit k).pstat) false)

/-- PSTAT after a write: POISON and CFAIL clear by 1, XSTAT takes only 0 (field map of PSTAT). -/
def pstatWrite (old b : Nat) : Nat :=
  let clear := slice b 47 32 * 2 ^ 32 + slice b 55 55 * 2 ^ 55
  let kept := old - (old &&& clear)
  if slice b 63 56 = 0 then splice kept 63 56 0 else kept

def Dev.iWrpstat (d : Dev) (k : Nat) (rb : BitVec 5) (imm : W32) : Act :=
  .go (d.modUnit k fun u => { u with pstat := pstatWrite u.pstat (d.opB k rb imm).toNat })

def Dev.iRdflt (d : Dev) (k : Nat) (rd : BitVec 5) : Act :=
  let r := pairReg rd
  let f := (d.unit k).flt
  let d1 := (d.ws k r (BitVec.ofNat 64 (f / 2 ^ 64)) false).ws k (r + 1) (BitVec.ofNat 64 f) false
  .go (d1.modUnit k fun u => { u with flt := 0, pstat := clearBit u.pstat 54 })

def Dev.iRdtime (d : Dev) (k : Nat) (rd : BitVec 5) : Act :=
  .go (d.ws k rd (BitVec.ofNat 64 (d.dieNow (unitDie k))) false)

def Dev.iRdwrate (d : Dev) (k : Nat) (rd : BitVec 5) : Act :=
  let rate := if k < 256 then d.get Bar.TIM_WRATE_CLU_RATE (k / 16) else d.get Bar.TIM_WRATE_PKG_MIN
  .go (d.ws k rd (BitVec.ofNat 64 (d.get Bar.TIM_WRATE_PKG_SEQ % 65536 * 2 ^ 32 + rate % 65536)) false)

end Sys2Proof.Machine
end

