-- ==== Sys2Proof/Machine/Execute.lean ====
section
/-! DEFINITION. How a unit executes Clepor: fetch and its checks, the queues of MX, VX0, VX1 and the fabric queue (R229),
the register interlock (R230), the program counter and its range (R251), and the instructions whose bodies stand nowhere
else: region instructions (R271) and register-block instructions (R274). -/

namespace Sys2Proof.Machine

/-! ## Registers that an instruction uses (R230) -/

/-- One code per register: s1-s31, v0-v31 from 32, t0-t7 from 64, p1-p7 from 72, a0-a15 from 80; s0 and p0 never
change. -/
def regS (i : Nat) : List Nat := if i = 0 then [] else [i]
def regV (i : Nat) : List Nat := [32 + i]
def regT (i : Nat) : List Nat := [64 + i % 8]
def regP (i : Nat) : List Nat := if i % 8 = 0 then [] else [72 + i % 8]
def regA (i : Nat) : List Nat := [80 + i % 16]

/-- The registers that an instruction reads and those that it writes. The copy engine's additions to a counter are
arrivals, not writes of the instruction. -/
def regUse : Instr → List Nat × List Nat
  | .add _ rd ra rb _ => (regS ra.toNat ++ regS rb.toNat, regS rd.toNat)
  | .sub _ rd ra rb _ => (regS ra.toNat ++ regS rb.toNat, regS rd.toNat)
  | .mul _ rd ra rb _ => (regS ra.toNat ++ regS rb.toNat, regS rd.toNat)
  | .div _ rd ra rb _ => (regS ra.toNat ++ regS rb.toNat, regS rd.toNat)
  | .and _ rd ra rb _ => (regS ra.toNat ++ regS rb.toNat, regS rd.toNat)
  | .or _ rd ra rb _ => (regS ra.toNat ++ regS rb.toNat, regS rd.toNat)
  | .xor _ rd ra rb _ => (regS ra.toNat ++ regS rb.toNat, regS rd.toNat)
  | .sll _ rd ra rb _ => (regS ra.toNat ++ regS rb.toNat, regS rd.toNat)
  | .srl _ rd ra rb _ => (regS ra.toNat ++ regS rb.toNat, regS rd.toNat)
  | .sra _ rd ra rb _ => (regS ra.toNat ++ regS rb.toNat, regS rd.toNat)
  | .slt _ rd ra rb _ => (regS ra.toNat ++ regS rb.toNat, regS rd.toNat)
  | .sltu _ rd ra rb _ => (regS ra.toNat ++ regS rb.toNat, regS rd.toNat)
  | .li _ rd _ => ([], regS rd.toNat)
  | .lih _ rd _ => (regS rd.toNat, regS rd.toNat)
  | .bCc _ ra rb _ _ => (regS ra.toNat ++ regS rb.toNat, [])
  | .bpany _ p _ => (regP p.toNat, [])
  | .bl _ ra _ => ([], regS ra.toNat)
  | .jr _ ra _ => (regS ra.toNat, [])
  | .endProg _ ra rb => (regS ra.toNat ++ regS rb.toNat, [])
  | .fault _ _ => ([], [])
  | .nop _ => ([], [])
  | .ld _ rd ra _ _ => (regS ra.toNat, regS rd.toNat)
  | .st _ ra rb _ _ => (regS ra.toNat ++ regS rb.toNat, [])
  | .vld _ _ vd va _ => (regS va.toNat, regV vd.toNat)
  | .vst _ _ vd va _ => (regS va.toNat ++ regV vd.toNat, [])
  | .vldH _ _ vd va => (regS va.toNat, regV vd.toNat)
  | .vstH _ _ vd va => (regS va.toNat ++ regV vd.toNat, [])
  | .tld _ td sa => (regS sa.toNat, regT td.toNat)
  | .tst _ td sa => (regS sa.toNat ++ regT td.toNat, [])
  | .tstH _ td sa => (regS sa.toNat ++ regT td.toNat, [])
  | .tzero _ td => ([], regT td.toNat)
  | .badd _ rd ra rb _ _ => (regS ra.toNat ++ regS rb.toNat, regS rd.toNat)
  | .bfadd _ rd ra rb _ => (regS ra.toNat ++ regS rb.toNat, regS rd.toNat)
  | .bswap _ rd ra rb _ _ => (regS ra.toNat ++ regS rb.toNat, regS rd.toNat)
  | .vadd _ _ vd va vb pred _ => (regV va.toNat ++ regV vb.toNat ++ regV vd.toNat ++ regP pred.toNat, regV vd.toNat)
  | .vsub _ _ vd va vb pred _ => (regV va.toNat ++ regV vb.toNat ++ regV vd.toNat ++ regP pred.toNat, regV vd.toNat)
  | .vmul _ _ vd va vb pred _ => (regV va.toNat ++ regV vb.toNat ++ regV vd.toNat ++ regP pred.toNat, regV vd.toNat)
  | .vfma _ _ vd va vb vc pred _ => (regV va.toNat ++ regV vb.toNat ++ regV vc.toNat ++ regV vd.toNat ++ regP pred.toNat, regV vd.toNat)
  | .vmax _ _ vd va vb pred _ => (regV va.toNat ++ regV vb.toNat ++ regV vd.toNat ++ regP pred.toNat, regV vd.toNat)
  | .vmin _ _ vd va vb pred _ => (regV va.toNat ++ regV vb.toNat ++ regV vd.toNat ++ regP pred.toNat, regV vd.toNat)
  | .vbcast _ _ vd sa pred _ => (regS sa.toNat ++ regV vd.toNat ++ regP pred.toNat, regV vd.toNat)
  | .vsel _ _ vd va vb pred _ => (regV va.toNat ++ regV vb.toNat ++ regP pred.toNat, regV vd.toNat)
  | .vcmpCc _ _ pd va vb pred _ _ => (regV va.toNat ++ regV vb.toNat ++ regP pred.toNat, regP pd.toNat)
  | .vmovS _ _ sd va _ => (regV va.toNat, regS sd.toNat)
  | .vins _ _ vd sa _ => (regS sa.toNat ++ regV vd.toNat, regV vd.toNat)
  | .vtrow _ _ vd ta tb _ => (regT ta.toNat ++ regT tb.toNat, regV vd.toNat)
  | .pand _ _ pd pa pb => (regP pa.toNat ++ regP pb.toNat, regP pd.toNat)
  | .por _ _ pd pa pb => (regP pa.toNat ++ regP pb.toNat, regP pd.toNat)
  | .pnot _ _ pd pa => (regP pa.toNat, regP pd.toNat)
  | .vexp _ _ vd va pred _ => (regV va.toNat ++ regV vd.toNat ++ regP pred.toNat, regV vd.toNat)
  | .vrcp _ _ vd va pred _ => (regV va.toNat ++ regV vd.toNat ++ regP pred.toNat, regV vd.toNat)
  | .vredmax _ _ vd va pred _ => (regV va.toNat ++ regP pred.toNat, regV vd.toNat)
  | .vredsum _ _ vd va pred _ => (regV va.toNat ++ regP pred.toNat, regV vd.toNat)
  | .vredamax _ _ vd va pred _ => (regV va.toNat ++ regP pred.toNat, regV vd.toNat)
  | .mma _ td sa sb sc _ _ _ _ _ => (regS sa.toNat ++ regS sb.toNat ++ regS sc.toNat ++ regT td.toNat, regT td.toNat)
  | .tscale _ td sa => (regS sa.toNat ++ regT td.toNat, regT td.toNat)
  | .tadd _ td ta => (regT ta.toNat ++ regT td.toNat, regT td.toNat)
  | .vq _ _ vd va _ => (regV va.toNat, regV vd.toNat)
  | .vdq _ _ vd va _ => (regV va.toNat, regV vd.toNat)
  | .vqerr _ _ vd va _ => (regV va.toNat, regV vd.toNat)
  | .abias _ _ vd va sb sc pred _ => (regV va.toNat ++ regS sb.toNat ++ regS sc.toNat ++ regV vd.toNat ++ regP pred.toNat, regV vd.toNat)
  | .astat _ _ vd va vb pred _ => (regV va.toNat ++ regV vb.toNat ++ regP pred.toNat, regV vd.toNat ++ regV vb.toNat)
  | .aprune _ _ vd va sb pred _ => (regV va.toNat ++ regS sb.toNat ++ regV vd.toNat ++ regP pred.toNat, regV vd.toNat)
  | .cpin _ _ sa sb sc _ => (regS sa.toNat ++ regS sb.toNat ++ regS sc.toNat, [])
  | .cpout _ _ sa sb sc _ _ _ => (regS sa.toNat ++ regS sb.toNat ++ regS sc.toNat, [])
  | .cppp _ _ sa sb sc _ => (regS sa.toNat ++ regS sb.toNat ++ regS sc.toNat, [])
  | .patom _ _ sa sb sc _ => (regS sa.toNat ++ regS sb.toNat ++ regS sc.toNat ++ regS (casReg sc).toNat, [])
  | .nmu _ _ sa sb => (regS sa.toNat ++ regS sb.toNat, [])
  | .wacq _ sa sb _ => (regS sb.toNat, regS sa.toNat)
  | .wrel _ sb _ => (regS sb.toNat, [])
  | .put _ _ _ rb _ => (regS rb.toNat, [])
  | .take _ _ _ rb _ => (regS rb.toNat, [])
  | .wait _ _ rd ctr rb _ => (regS rb.toNat ++ regA ctr.toNat, regS rd.toNat)
  | .aset _ ctr rb _ => (regS rb.toNat, regA ctr.toNat)
  | .aget _ rd ctr => (regA ctr.toNat, regS rd.toNat)
  | .rake _ _ sa => (regS sa.toNat, [])
  | .sieve _ _ sa => (regS sa.toNat, [])
  | .rpart _ _ sa _ => (regS sa.toNat, [])
  | .sappend _ _ sa sb => (regS sa.toNat ++ regS sb.toNat, [])
  | .sblk _ sa sb sc => (regS sb.toNat ++ regS sc.toNat, regS (pairReg sa).toNat ++ regS (pairReg sa + 1).toNat)
  | .sinfo _ sa _ => ([], regS sa.toNat)
  | .sprune _ _ sa => (regS sa.toNat, [])
  | .ropen _ _ sa sb => (regS sa.toNat ++ regS sb.toNat, [])
  | .rclose _ _ sa sb sc => (regS sa.toNat ++ regS sb.toNat ++ regS sc.toNat, [])
  | .rpub _ _ sa sb sc _ => (regS sa.toNat ++ regS sb.toNat ++ regS sc.toNat, [])
  | .xcfg _ sa sb => (regS sa.toNat ++ regS sb.toNat, [])
  | .xstat _ sa => ([], regS sa.toNat)
  | .rdsctx _ rd rb _ => (regS rb.toNat, regS rd.toNat)
  | .rdpstat _ rd => ([], regS rd.toNat)
  | .wrpstat _ rb _ => (regS rb.toNat, [])
  | .rdflt _ rd => ([], regS (pairReg rd).toNat ++ regS (pairReg rd + 1).toNat)
  | .rdtime _ rd => ([], regS rd.toNat)
  | .rdwrate _ rd => ([], regS rd.toNat)
  | .rgrd _ rd ra _ _ => (regS ra.toNat, regS rd.toNat)
  | .rgwr _ ra rb _ _ => (regS ra.toNat ++ regS rb.toNat, [])
  | _ => ([], [])

/-- Two instructions, the first earlier in program order, must not be reordered. -/
def conflict (x y : Instr) : Bool :=
  let a := regUse x
  let b := regUse y
  a.2.any (fun i => b.1.contains i || b.2.contains i) || a.1.any b.2.contains

/-! ## Region instructions (R271) -/

/-- Issue a region command for s[SB][11:0]; its 8-byte result goes to s[SA]. -/
def Dev.regionCall (d : Dev) (k : Nat) (ctr : BitVec 4) (sa sb : BitVec 5) (op slot : Nat) (base : Option Nat) : Act :=
  let a := alignDown (spadAddr (d.rs k sa)) 8
  if !d.spadOk k a 8 then .fault d Cause.spadAccess 0 a
  else .go (d.regionOp {
    op := op, region := (d.rs k sb).toNat % 4096, slot := slot, base := base
    who := ⟨16 + k, d.unitAllot k, (d.unit k).gen, ctr.toNat, a⟩ })

def Dev.iRopen (d : Dev) (k : Nat) (ctr : BitVec 4) (sa sb : BitVec 5) : Act := d.regionCall k ctr sa sb 3 0 none
def Dev.iRclose (d : Dev) (k : Nat) (ctr : BitVec 4) (sa sb sc : BitVec 5) : Act :=
  d.regionCall k ctr sa sb 4 ((d.rs k sc).toNat % 16) none
def Dev.iRpub (d : Dev) (k : Nat) (ctr : BitVec 4) (sa sb sc : BitVec 5) (fn : BitVec 6) : Act :=
  d.regionCall k ctr sa sb 5 0 (if fn.toNat % 2 = 1 then some ((d.rs k sc).toNat % 2 ^ 32) else none)

/-! ## Register-block instructions (R274) -/

/-- The offset and bytes of an access. -/
def regBytes (sz : BitVec 2) : Nat := if sz = 3 then 8 else 4
def Dev.regOff (d : Dev) (k : Nat) (ra : BitVec 5) (imm : W32) (sz : BitVec 2) : Nat :=
  alignDown ((d.opB k ra imm).toNat % 2 ^ 28) (regBytes sz)

def Dev.iRgrd (d : Dev) (z : Fuses) (k : Nat) (rd ra : BitVec 5) (sz : BitVec 2) (imm : W32) : Act :=
  let r := d.barRead z (.gardener (k - 256)) (d.regOff k ra imm sz) (regBytes sz)
  .go (r.2.ws k rd (BitVec.ofNat 64 r.1) false)

/-! ## What an engine performs -/

/-- The effect of an instruction of the MX, VX0, VX1 or the fabric queue; no other is ever queued. -/
def Dev.perform (d : Dev) (k : Nat) : Instr → Act
  | .vld _ _ vd va n => d.iVld k vd va n
  | .vst _ _ vd va n => d.iVst k vd va n
  | .vldH _ _ vd va => d.iVldH k vd va
  | .vstH _ _ vd va => d.iVstH k vd va
  | .tld _ td sa => d.iTld k td sa
  | .tst _ td sa => d.iTst k td sa
  | .tstH _ td sa => d.iTstH k td sa
  | .tzero _ td => d.iTzero k td
  | .vadd _ _ vd va vb pred pneg => d.iLanes2 k vd va vb pred pneg Num.fadd
  | .vsub _ _ vd va vb pred pneg => d.iLanes2 k vd va vb pred pneg Num.fsub
  | .vmul _ _ vd va vb pred pneg => d.iLanes2 k vd va vb pred pneg Num.fmul
  | .vfma _ _ vd va vb vc pred pneg => d.iVfma k vd va vb vc pred pneg
  | .vmax _ _ vd va vb pred pneg => d.iLanes2 k vd va vb pred pneg Num.fmax
  | .vmin _ _ vd va vb pred pneg => d.iLanes2 k vd va vb pred pneg Num.fmin
  | .vbcast _ _ vd sa pred pneg => d.iVbcast k vd sa pred pneg
  | .vsel _ _ vd va vb pred pneg => d.iVsel k vd va vb pred pneg
  | .vcmpCc _ _ pd va vb pred pneg fn => d.iVcmp k pd va vb pred pneg fn
  | .vmovS _ _ sd va lane => d.iVmovS k sd va lane
  | .vins _ _ vd sa lane => d.iVins k vd sa lane
  | .vtrow _ _ vd ta tb row => d.iVtrow k vd ta tb row
  | .pand _ _ pd pa pb => d.iPand k pd pa pb
  | .por _ _ pd pa pb => d.iPor k pd pa pb
  | .pnot _ _ pd pa => d.iPnot k pd pa
  | .vexp _ _ vd va pred pneg => d.iLanes1 k vd va pred pneg Num.fexp
  | .vrcp _ _ vd va pred pneg => d.iLanes1 k vd va pred pneg Num.frcp
  | .vredmax _ _ vd va pred pneg => d.iReduce k vd va pred pneg id (Num.finf true) Num.treeMax
  | .vredsum _ _ vd va pred pneg => d.iReduce k vd va pred pneg id 0 Num.treeSum
  | .vredamax _ _ vd va pred pneg => d.iReduce k vd va pred pneg absW 0 Num.treeMax
  | .mma _ td sa sb sc mode kblk acc xb trb => d.iMma k td sa sb sc mode kblk acc xb trb
  | .tscale _ td sa => d.iTscale k td sa
  | .tadd _ td ta => d.iTadd k td ta
  | .vq _ _ vd va fn => d.iVq k vd va fn
  | .vdq _ _ vd va fn => d.iVdq k vd va fn
  | .vqerr _ _ vd va fn => d.iVqerr k vd va fn
  | .abias _ _ vd va sb sc pred pneg => d.iAbias k vd va sb sc pred pneg
  | .astat _ _ vd va vb pred pneg => d.iAstat k vd va vb pred pneg
  | .aprune _ _ vd va sb pred pneg => d.iAprune k vd va sb pred pneg
  | .cpin _ ctr sa sb sc cls => d.iCpin k ctr sa sb sc cls
  | .cpout _ ctr sa sb sc cls fn imm => d.iCpout k ctr sa sb sc cls fn imm
  | .cppp _ ctr sa sb sc cls => d.iCppp k ctr sa sb sc cls
  | .patom _ ctr sa sb sc fn => d.iPatom k ctr sa sb sc fn
  | .nmu _ ctr sa sb => d.iNmu k ctr sa sb
  | .wacq _ sa sb win => d.iWacq k sa sb win
  | .wrel _ sb win => d.iWrel k sb win
  | .put _ _ ch rb imm => d.iPut k ch rb imm
  | .take _ eng ch rb imm => d.iTake k eng.toNat ch rb imm
  | .wait _ _ rd ctr rb imm => d.iWait k rd ctr rb imm
  | .xcfg _ sa sb => d.iXcfg k sa sb
  | .xstat _ sa => d.iXstat k sa
  | _ => .go d

/-- The engine of a vector class instruction: an ENG of 0 or 1 is clamped to 2 (R245). -/
def vecEng (eng : BitVec 2) : Nat := max 2 eng.toNat

/-- The engine of a token instruction; on a Gardener ENG is clamped to 0. -/
def tokEng (u : UnitId) (eng : BitVec 2) : Nat := if unitKey u < 256 then eng.toNat else 0

/-- Which units execute an instruction (R241, R244). -/
inductive Avail where
  | all
  | cores
  | gardeners
  | noUnit

def Avail.on (a : Avail) (k : Nat) : Bool :=
  match a with
  | .all => true
  | .cores => decide (k < 256)
  | .gardeners => decide (256 ≤ k)
  | .noUnit => false

/-! ## Fetch -/

/-- A unit fetches: a core in RUNNING, a Gardener that is not halted once firmware runs. -/
def Dev.fetches (d : Dev) (k : Nat) : Bool :=
  if k < 256 then (d.unit k).state == 2 && (d.unit k).final.isNone else d.ready && !(d.unit k).halted

/-- Instructions that a unit can fetch: the slot's LENGTH, or a Gardener's 256 KiB. -/
def Dev.codeLen (d : Dev) (k : Nat) : Nat :=
  match (d.unit k).inv with
  | some i => if k < 256 then d.get Bar.CLU_SLOT_LENGTH i.slot else 32768
  | none => 32768

/-- The store word of an instruction. -/
def Dev.codeKey (d : Dev) (k pc : Nat) : Nat :=
  if k < 256 then
    match (d.unit k).inv with
    | some i => d.slotKey i.slot (k / 16) pc
    | none => 0
  else 65536 * (16 + (k - 256)) + pc

/-- The program counter moves; outside 0 to LENGTH - 1 the instruction at `pc` faults (R237, R251). -/
def Dev.moveTo (d : Dev) (k pc : Nat) (t : Int) : Dev :=
  if !d.fetches k then d
  else if 0 ≤ t ∧ t < Int.ofNat (d.codeLen k) then d.modUnit k fun u => { u with pc := t.toNat }
  else d.fatal k Cause.pcRange 0 0 pc (t % 2 ^ 56).toNat

def Dev.setPc (d : Dev) (k pc : Nat) : Dev := d.modUnit k fun u => { u with pc := pc }

/-- A fault of the instruction at `pc` on an engine; a descriptor's fault names its own engine above bit 8. -/
def Dev.instrFault (d : Dev) (k eng pc cause status addr : Nat) : Dev :=
  d.fatal k cause (status % 256) (if status < 256 then eng else status / 256) pc addr

/-! ## Engine queues (R229) -/

def UnitSt.queue (u : UnitSt) (e : Nat) : List (Nat × Nat × Instr) := kvGetD u.queues e []
def Dev.setQueue (d : Dev) (k e : Nat) (q : List (Nat × Nat × Instr)) : Dev :=
  d.modUnit k fun u => { u with queues := if q.isEmpty then kvDel u.queues e else kvPut u.queues e q }

/-- Every queued instruction of a unit. -/
def UnitSt.queued (u : UnitSt) : List (Nat × Nat × Instr) := u.queues.flatMap Prod.snd

/-- An instruction meets an earlier one that has not been performed and whose registers it shares (R230). -/
def UnitSt.held (u : UnitSt) (order : Nat) (x : Instr) : Bool := u.queued.any fun y => decide (y.1 < order) && conflict y.2.2 x

/-- The next place in program order. -/
def UnitSt.nextOrder (u : UnitSt) : Nat := (u.queued.map fun y => y.1 + 1).foldl max 0

def Dev.queueInstr (d : Dev) (k e pc : Nat) (x : Instr) : Dev :=
  d.setQueue k e ((d.unit k).queue e ++ [((d.unit k).nextOrder, pc, x)])

/-- The head of a queue is performed when it need not wait: whether it was, and the device after. -/
def Dev.drainOne (d : Dev) (k e : Nat) : Bool × Dev :=
  match (d.unit k).queue e with
  | [] => (false, d)
  | (o, pc, x) :: rest =>
    if (d.unit k).held o x then (false, d)
    else
      let here := (d.unit k).pc
      match (d.setPc k pc).perform k x with
      | .go d1 => (true, (d1.setPc k here).setQueue k e rest)
      | .jump d1 _ => (true, (d1.setPc k here).setQueue k e rest)
      | .wait d1 => (false, d1.setPc k here)
      | .fault d1 cause status addr => (true, (d1.setPc k here).instrFault k e pc cause status addr)

/-- Engines perform what they can until all of them wait or are empty; fuel n. -/
def Dev.drainLoop (d : Dev) (k : Nat) (order : List Nat) : Nat → Dev
  | 0 => d
  | n + 1 =>
    let r := order.foldl (fun (acc : Bool × Dev) e =>
      let x := acc.2.drainOne k e
      (acc.1 || x.1, x.2)) (false, d)
    if r.1 then r.2.drainLoop k order n else r.2

/-- The engines of a unit go on. They act at the same time: which of them is first is a free choice (R32, R229). -/
def Dev.drain (d : Dev) (k : Nat) : Dev :=
  let u := d.unit k
  if u.queues.isEmpty then d
  else if u.queues.length = 1 then d.drainLoop k [1, 2, 3, 4] 65
  else
    let r := d.fresh
    r.2.drainLoop k (turned [1, 2, 3, 4] r.1) 65

/-! ## One instruction -/

/-- The word that a unit fetches next. -/
def Dev.codeWord (d : Dev) (k : Nat) : W64 := kvGetD d.store.code (d.codeKey k (d.unit k).pc) 0

/-- The SQ fetches: the engines go on first; a bad word of the store and an instruction that the unit does not execute
fault. The answer says whether the instruction goes on. A command that is not the instruction the unit fetches next does
nothing. -/
def Dev.fetch (d : Dev) (u : UnitId) (a : Avail) (x : Instr) : Bool × Dev :=
  let k := unitKey u
  if !d.fetches k then (false, d)
  else
    let d0 := d.drain k
    if !d0.fetches k then (false, d0)
    else
      let pc := (d0.unit k).pc
      let d1 := d0.modUnit k fun u => { u with lastPc := pc }
      if d1.store.bad.contains (d1.codeKey k pc) then (false, d1.fatal k Cause.fetchErr 0 0 pc 0)
      else if decodeInstr u (d0.codeWord k) ≠ x then (false, d0)
      else if !a.on k then (false, d1.fatal k Cause.undefOp 0 0 pc 0)
      else (true, d1)

/-- What follows from an engine's answer for the instruction that the SQ has fetched. -/
def Dev.finish (d : Dev) (k e : Nat) (x : Instr) (act : Act) : Dev :=
  let pc := (d.unit k).pc
  match act with
  | .go d1 => d1.moveTo k pc (Int.ofNat pc + 1)
  | .jump d1 t => d1.moveTo k pc t
  | .wait d1 => if e = 0 then d1 else (d1.queueInstr k e pc x).moveTo k pc (Int.ofNat pc + 1)
  | .fault d1 cause status addr => d1.instrFault k e pc cause status addr

/-- The SQ performs an instruction (engine 0) or passes it to its engine, whose queue holds 16. -/
def Dev.pass (d : Dev) (k e : Nat) (x : Instr) (f : Dev → Nat → Act) : Dev :=
  let u := d.unit k
  let waits := u.held u.nextOrder x
  if e = 0 then if waits then d else d.finish k 0 x (f d k)
  else if 16 ≤ (u.queue e).length then d
  else if waits || !(u.queue e).isEmpty then d.finish k e x (.wait d)
  else d.finish k e x (f d k)

/-- One instruction of a unit: fetch, performance, and what the engines can do after it. -/
def Dev.run (d : Dev) (u : UnitId) (e : Nat) (a : Avail) (x : Instr) (f : Dev → Nat → Act) : Dev :=
  let k := unitKey u
  let r := d.fetch u a x
  if r.1 then (r.2.pass k e x f).drain k else r.2

/-- A register-block write: State changes with it, since a register's write may reach the fuses. -/
def State.rgwr (s : State) (u : UnitId) (ra rb : BitVec 5) (sz : BitVec 2) (imm : W32) : State :=
  let k := unitKey u
  if !s.dev.runs then s
  else
    let r := s.dev.fetch u .gardeners (.rgwr u ra rb sz imm)
    let s1 := s.onDev fun _ => r.2
    let v := r.2.unit k
    if !r.1 || v.held v.nextOrder (.rgwr u ra rb sz imm) then s1
    else
      let n := regBytes sz
      let s2 := s1.barWrite (.gardener (k - 256)) (r.2.regOff k ra imm sz) n ((r.2.rs k rb).toNat % 2 ^ (8 * n))
      s2.onDev fun d => (d.moveTo k v.pc (Int.ofNat v.pc + 1)).drain k

/-! ## Undefined instructions (R244) -/

def execUndefOp (u : UnitId) (w : W64) (s : State) : Out :=
  .next (s.live fun d => d.run u 0 .noUnit (.undefOp u w) fun d _ => .go d)

/-- Every unit's engines perform what they can (R229). -/
def Dev.drainUnits (d : Dev) : Dev :=
  (kvKeys d.units).foldl (fun d k => if d.fetches k then d.drain k else d) d

/-- A wake ends, and the accesses that wait for the bank are served (R156). -/
def Dev.wakeServed (d : Dev) (b : BankId) : Dev :=
  if d.bankCold b && (d.bank b).waking then (d.wakeDone b).drainUnits else d

def execColdFrameWakeDone (bank : BankId) (s : State) : Out :=
  .next (s.live fun d => if bankValid bank then d.wakeServed bank else d)

end Sys2Proof.Machine
end

