-- ==== Sys2Proof/Machine/Instructions.lean ====
section
/-! DEFINITION. The meaning of each Clepor instruction (chapter 12), where `u` is the unit that fetches it: which engine
performs it, which units execute it, and what it does. -/

namespace Sys2Proof.Machine

/-! ## Scalar arithmetic and immediates (R249, R250) -/

def execAdd (u : UnitId) (rd ra rb : BitVec 5) (imm : W32) (s : State) : Out :=
  .next (s.live fun d => d.run u 0 .all (.add u rd ra rb imm) fun d k => d.iScalar k rd ra rb imm (fun a b => a + b))
def execSub (u : UnitId) (rd ra rb : BitVec 5) (imm : W32) (s : State) : Out :=
  .next (s.live fun d => d.run u 0 .all (.sub u rd ra rb imm) fun d k => d.iScalar k rd ra rb imm (fun a b => a - b))
def execMul (u : UnitId) (rd ra rb : BitVec 5) (imm : W32) (s : State) : Out :=
  .next (s.live fun d => d.run u 0 .all (.mul u rd ra rb imm) fun d k => d.iScalar k rd ra rb imm (fun a b => a * b))
def execDiv (u : UnitId) (rd ra rb : BitVec 5) (imm : W32) (s : State) : Out :=
  .next (s.live fun d => d.run u 0 .all (.div u rd ra rb imm) fun d k => d.iScalar k rd ra rb imm divOp)
def execAnd (u : UnitId) (rd ra rb : BitVec 5) (imm : W32) (s : State) : Out :=
  .next (s.live fun d => d.run u 0 .all (.and u rd ra rb imm) fun d k => d.iScalar k rd ra rb imm (fun a b => a &&& b))
def execOr (u : UnitId) (rd ra rb : BitVec 5) (imm : W32) (s : State) : Out :=
  .next (s.live fun d => d.run u 0 .all (.or u rd ra rb imm) fun d k => d.iScalar k rd ra rb imm (fun a b => a ||| b))
def execXor (u : UnitId) (rd ra rb : BitVec 5) (imm : W32) (s : State) : Out :=
  .next (s.live fun d => d.run u 0 .all (.xor u rd ra rb imm) fun d k => d.iScalar k rd ra rb imm (fun a b => a ^^^ b))
def execSll (u : UnitId) (rd ra rb : BitVec 5) (imm : W32) (s : State) : Out :=
  .next (s.live fun d => d.run u 0 .all (.sll u rd ra rb imm) fun d k => d.iScalar k rd ra rb imm sllOp)
def execSrl (u : UnitId) (rd ra rb : BitVec 5) (imm : W32) (s : State) : Out :=
  .next (s.live fun d => d.run u 0 .all (.srl u rd ra rb imm) fun d k => d.iScalar k rd ra rb imm srlOp)
def execSra (u : UnitId) (rd ra rb : BitVec 5) (imm : W32) (s : State) : Out :=
  .next (s.live fun d => d.run u 0 .all (.sra u rd ra rb imm) fun d k => d.iScalar k rd ra rb imm sraOp)
def execSlt (u : UnitId) (rd ra rb : BitVec 5) (imm : W32) (s : State) : Out :=
  .next (s.live fun d => d.run u 0 .all (.slt u rd ra rb imm) fun d k => d.iScalar k rd ra rb imm sltOp)
def execSltu (u : UnitId) (rd ra rb : BitVec 5) (imm : W32) (s : State) : Out :=
  .next (s.live fun d => d.run u 0 .all (.sltu u rd ra rb imm) fun d k => d.iScalar k rd ra rb imm sltuOp)
def execLi (u : UnitId) (rd : BitVec 5) (imm : BitVec 45) (s : State) : Out :=
  .next (s.live fun d => d.run u 0 .all (.li u rd imm) fun d k => d.iLi k rd imm)
def execLih (u : UnitId) (rd : BitVec 5) (imm : BitVec 45) (s : State) : Out :=
  .next (s.live fun d => d.run u 0 .all (.lih u rd imm) fun d k => d.iLih k rd imm)

/-! ## Control and branch (R251, R252) -/

def execBCc (u : UnitId) (ra rb : BitVec 5) (cond : BitVec 3) (off : W32) (s : State) : Out :=
  .next (s.live fun d => d.run u 0 .all (.bCc u ra rb cond off) fun d k => d.iBcc k ra rb cond off)
def execBpany (u : UnitId) (p : BitVec 3) (off : W32) (s : State) : Out :=
  .next (s.live fun d => d.run u 0 .all (.bpany u p off) fun d k => d.iBpany k p off)
def execBl (u : UnitId) (ra : BitVec 5) (off : W32) (s : State) : Out :=
  .next (s.live fun d => d.run u 0 .all (.bl u ra off) fun d k => d.iBl k ra off)
def execJr (u : UnitId) (ra : BitVec 5) (off : W32) (s : State) : Out :=
  .next (s.live fun d => d.run u 0 .all (.jr u ra off) fun d k => d.iJr k ra off)
def execEndProg (u : UnitId) (ra rb : BitVec 5) (s : State) : Out :=
  .next (s.live fun d => d.run u 0 .all (.endProg u ra rb) fun d k => d.iEnd k ra rb)
def execFault (u : UnitId) (off : W32) (s : State) : Out :=
  .next (s.live fun d => d.run u 0 .all (.fault u off) fun d k => d.iFault k off)
def execNop (u : UnitId) (s : State) : Out :=
  .next (s.live fun d => d.run u 0 .all (.nop u) fun d _ => .go d)

/-! ## Scalar, vector and tile scratchpad, bank atomics (R253-R256) -/

def execLd (u : UnitId) (rd ra : BitVec 5) (sz : BitVec 2) (imm : W32) (s : State) : Out :=
  .next (s.live fun d => d.run u 0 .all (.ld u rd ra sz imm) fun d k => d.iLd k rd ra sz imm)
def execSt (u : UnitId) (ra rb : BitVec 5) (sz : BitVec 2) (imm : W32) (s : State) : Out :=
  .next (s.live fun d => d.run u 0 .all (.st u ra rb sz imm) fun d k => d.iSt k ra rb sz imm)
def execVld (u : UnitId) (eng : BitVec 2) (vd va : BitVec 5) (n : BitVec 16) (s : State) : Out :=
  .next (s.live fun d => d.run u (vecEng eng) .cores (.vld u eng vd va n) fun d k => d.iVld k vd va n)
def execVst (u : UnitId) (eng : BitVec 2) (vd va : BitVec 5) (n : BitVec 16) (s : State) : Out :=
  .next (s.live fun d => d.run u (vecEng eng) .cores (.vst u eng vd va n) fun d k => d.iVst k vd va n)
def execVldH (u : UnitId) (eng : BitVec 2) (vd va : BitVec 5) (s : State) : Out :=
  .next (s.live fun d => d.run u (vecEng eng) .cores (.vldH u eng vd va) fun d k => d.iVldH k vd va)
def execVstH (u : UnitId) (eng : BitVec 2) (vd va : BitVec 5) (s : State) : Out :=
  .next (s.live fun d => d.run u (vecEng eng) .cores (.vstH u eng vd va) fun d k => d.iVstH k vd va)
def execTld (u : UnitId) (td : BitVec 3) (sa : BitVec 5) (s : State) : Out :=
  .next (s.live fun d => d.run u 1 .cores (.tld u td sa) fun d k => d.iTld k td sa)
def execTst (u : UnitId) (td : BitVec 3) (sa : BitVec 5) (s : State) : Out :=
  .next (s.live fun d => d.run u 1 .cores (.tst u td sa) fun d k => d.iTst k td sa)
def execTstH (u : UnitId) (td : BitVec 3) (sa : BitVec 5) (s : State) : Out :=
  .next (s.live fun d => d.run u 1 .cores (.tstH u td sa) fun d k => d.iTstH k td sa)
def execTzero (u : UnitId) (td : BitVec 3) (s : State) : Out :=
  .next (s.live fun d => d.run u 1 .cores (.tzero u td) fun d k => d.iTzero k td)
def execBadd (u : UnitId) (rd ra rb : BitVec 5) (sz : BitVec 2) (imm : W32) (s : State) : Out :=
  .next (s.live fun d => d.run u 0 .all (.badd u rd ra rb sz imm) fun d k => d.iBadd k rd ra rb sz imm)
def execBfadd (u : UnitId) (rd ra rb : BitVec 5) (imm : W32) (s : State) : Out :=
  .next (s.live fun d => d.run u 0 .all (.bfadd u rd ra rb imm) fun d k => d.iBfadd k rd ra rb imm)
def execBswap (u : UnitId) (rd ra rb : BitVec 5) (sz : BitVec 2) (imm : W32) (s : State) : Out :=
  .next (s.live fun d => d.run u 0 .all (.bswap u rd ra rb sz imm) fun d k => d.iBswap k rd ra rb sz imm)

/-! ## Vector and vector special (R257, R258) -/

def execVadd (u : UnitId) (eng : BitVec 2) (vd va vb : BitVec 5) (pred : BitVec 3) (pneg : Bool) (s : State) : Out :=
  .next (s.live fun d => d.run u (vecEng eng) .cores (.vadd u eng vd va vb pred pneg) fun d k => d.iLanes2 k vd va vb pred pneg Num.fadd)
def execVsub (u : UnitId) (eng : BitVec 2) (vd va vb : BitVec 5) (pred : BitVec 3) (pneg : Bool) (s : State) : Out :=
  .next (s.live fun d => d.run u (vecEng eng) .cores (.vsub u eng vd va vb pred pneg) fun d k => d.iLanes2 k vd va vb pred pneg Num.fsub)
def execVmul (u : UnitId) (eng : BitVec 2) (vd va vb : BitVec 5) (pred : BitVec 3) (pneg : Bool) (s : State) : Out :=
  .next (s.live fun d => d.run u (vecEng eng) .cores (.vmul u eng vd va vb pred pneg) fun d k => d.iLanes2 k vd va vb pred pneg Num.fmul)
def execVfma (u : UnitId) (eng : BitVec 2) (vd va vb vc : BitVec 5) (pred : BitVec 3) (pneg : Bool) (s : State) : Out :=
  .next (s.live fun d => d.run u (vecEng eng) .cores (.vfma u eng vd va vb vc pred pneg) fun d k => d.iVfma k vd va vb vc pred pneg)
def execVmax (u : UnitId) (eng : BitVec 2) (vd va vb : BitVec 5) (pred : BitVec 3) (pneg : Bool) (s : State) : Out :=
  .next (s.live fun d => d.run u (vecEng eng) .cores (.vmax u eng vd va vb pred pneg) fun d k => d.iLanes2 k vd va vb pred pneg Num.fmax)
def execVmin (u : UnitId) (eng : BitVec 2) (vd va vb : BitVec 5) (pred : BitVec 3) (pneg : Bool) (s : State) : Out :=
  .next (s.live fun d => d.run u (vecEng eng) .cores (.vmin u eng vd va vb pred pneg) fun d k => d.iLanes2 k vd va vb pred pneg Num.fmin)
def execVbcast (u : UnitId) (eng : BitVec 2) (vd sa : BitVec 5) (pred : BitVec 3) (pneg : Bool) (s : State) : Out :=
  .next (s.live fun d => d.run u (vecEng eng) .cores (.vbcast u eng vd sa pred pneg) fun d k => d.iVbcast k vd sa pred pneg)
def execVsel (u : UnitId) (eng : BitVec 2) (vd va vb : BitVec 5) (pred : BitVec 3) (pneg : Bool) (s : State) : Out :=
  .next (s.live fun d => d.run u (vecEng eng) .cores (.vsel u eng vd va vb pred pneg) fun d k => d.iVsel k vd va vb pred pneg)
def execVcmpCc (u : UnitId) (eng : BitVec 2) (pd va vb : BitVec 5) (pred : BitVec 3) (pneg : Bool) (fn : BitVec 6) (s : State) : Out :=
  .next (s.live fun d => d.run u (vecEng eng) .cores (.vcmpCc u eng pd va vb pred pneg fn) fun d k => d.iVcmp k pd va vb pred pneg fn)
def execVmovS (u : UnitId) (eng : BitVec 2) (sd va : BitVec 5) (lane : BitVec 16) (s : State) : Out :=
  .next (s.live fun d => d.run u (vecEng eng) .cores (.vmovS u eng sd va lane) fun d k => d.iVmovS k sd va lane)
def execVins (u : UnitId) (eng : BitVec 2) (vd sa : BitVec 5) (lane : BitVec 16) (s : State) : Out :=
  .next (s.live fun d => d.run u (vecEng eng) .cores (.vins u eng vd sa lane) fun d k => d.iVins k vd sa lane)
def execVtrow (u : UnitId) (eng : BitVec 2) (vd ta tb : BitVec 5) (row : BitVec 16) (s : State) : Out :=
  .next (s.live fun d => d.run u (vecEng eng) .cores (.vtrow u eng vd ta tb row) fun d k => d.iVtrow k vd ta tb row)
def execPand (u : UnitId) (eng : BitVec 2) (pd pa pb : BitVec 5) (s : State) : Out :=
  .next (s.live fun d => d.run u (vecEng eng) .cores (.pand u eng pd pa pb) fun d k => d.iPand k pd pa pb)
def execPor (u : UnitId) (eng : BitVec 2) (pd pa pb : BitVec 5) (s : State) : Out :=
  .next (s.live fun d => d.run u (vecEng eng) .cores (.por u eng pd pa pb) fun d k => d.iPor k pd pa pb)
def execPnot (u : UnitId) (eng : BitVec 2) (pd pa : BitVec 5) (s : State) : Out :=
  .next (s.live fun d => d.run u (vecEng eng) .cores (.pnot u eng pd pa) fun d k => d.iPnot k pd pa)
def execVexp (u : UnitId) (eng : BitVec 2) (vd va : BitVec 5) (pred : BitVec 3) (pneg : Bool) (s : State) : Out :=
  .next (s.live fun d => d.run u (vecEng eng) .cores (.vexp u eng vd va pred pneg) fun d k => d.iLanes1 k vd va pred pneg Num.fexp)
def execVrcp (u : UnitId) (eng : BitVec 2) (vd va : BitVec 5) (pred : BitVec 3) (pneg : Bool) (s : State) : Out :=
  .next (s.live fun d => d.run u (vecEng eng) .cores (.vrcp u eng vd va pred pneg) fun d k => d.iLanes1 k vd va pred pneg Num.frcp)
def execVredmax (u : UnitId) (eng : BitVec 2) (vd va : BitVec 5) (pred : BitVec 3) (pneg : Bool) (s : State) : Out :=
  .next (s.live fun d => d.run u (vecEng eng) .cores (.vredmax u eng vd va pred pneg) fun d k => d.iReduce k vd va pred pneg id (Num.finf true) Num.treeMax)
def execVredsum (u : UnitId) (eng : BitVec 2) (vd va : BitVec 5) (pred : BitVec 3) (pneg : Bool) (s : State) : Out :=
  .next (s.live fun d => d.run u (vecEng eng) .cores (.vredsum u eng vd va pred pneg) fun d k => d.iReduce k vd va pred pneg id 0 Num.treeSum)
def execVredamax (u : UnitId) (eng : BitVec 2) (vd va : BitVec 5) (pred : BitVec 3) (pneg : Bool) (s : State) : Out :=
  .next (s.live fun d => d.run u (vecEng eng) .cores (.vredamax u eng vd va pred pneg) fun d k => d.iReduce k vd va pred pneg absW 0 Num.treeMax)

/-! ## Matrix, quantise and attention helpers (R259-R262, R272) -/

def execMma (u : UnitId) (td : BitVec 3) (sa sb sc : BitVec 5) (mode : BitVec 4) (kblk : BitVec 6) (acc xb trb : Bool) (s : State) : Out :=
  .next (s.live fun d => d.run u 1 .cores (.mma u td sa sb sc mode kblk acc xb trb) fun d k => d.iMma k td sa sb sc mode kblk acc xb trb)
def execTscale (u : UnitId) (td : BitVec 3) (sa : BitVec 5) (s : State) : Out :=
  .next (s.live fun d => d.run u 1 .cores (.tscale u td sa) fun d k => d.iTscale k td sa)
def execTadd (u : UnitId) (td : BitVec 3) (ta : BitVec 5) (s : State) : Out :=
  .next (s.live fun d => d.run u 1 .cores (.tadd u td ta) fun d k => d.iTadd k td ta)
def execVq (u : UnitId) (eng : BitVec 2) (vd va : BitVec 5) (fn : BitVec 6) (s : State) : Out :=
  .next (s.live fun d => d.run u (vecEng eng) .cores (.vq u eng vd va fn) fun d k => d.iVq k vd va fn)
def execVdq (u : UnitId) (eng : BitVec 2) (vd va : BitVec 5) (fn : BitVec 6) (s : State) : Out :=
  .next (s.live fun d => d.run u (vecEng eng) .cores (.vdq u eng vd va fn) fun d k => d.iVdq k vd va fn)
def execVqerr (u : UnitId) (eng : BitVec 2) (vd va : BitVec 5) (fn : BitVec 6) (s : State) : Out :=
  .next (s.live fun d => d.run u (vecEng eng) .cores (.vqerr u eng vd va fn) fun d k => d.iVqerr k vd va fn)
def execAbias (u : UnitId) (eng : BitVec 2) (vd va sb sc : BitVec 5) (pred : BitVec 3) (pneg : Bool) (s : State) : Out :=
  .next (s.live fun d => d.run u (vecEng eng) .cores (.abias u eng vd va sb sc pred pneg) fun d k => d.iAbias k vd va sb sc pred pneg)
def execAstat (u : UnitId) (eng : BitVec 2) (vd va vb : BitVec 5) (pred : BitVec 3) (pneg : Bool) (s : State) : Out :=
  .next (s.live fun d => d.run u (vecEng eng) .cores (.astat u eng vd va vb pred pneg) fun d k => d.iAstat k vd va vb pred pneg)
def execAprune (u : UnitId) (eng : BitVec 2) (vd va sb : BitVec 5) (pred : BitVec 3) (pneg : Bool) (s : State) : Out :=
  .next (s.live fun d => d.run u (vecEng eng) .cores (.aprune u eng vd va sb pred pneg) fun d k => d.iAprune k vd va sb pred pneg)

/-! ## Fabric and windows (R263-R266) -/

def execCpin (u : UnitId) (ctr : BitVec 4) (sa sb sc : BitVec 5) (cls : BitVec 3) (s : State) : Out :=
  .next (s.live fun d => d.run u 4 .all (.cpin u ctr sa sb sc cls) fun d k => d.iCpin k ctr sa sb sc cls)
def execCpout (u : UnitId) (ctr : BitVec 4) (sa sb sc : BitVec 5) (cls : BitVec 3) (fn : BitVec 6) (imm : BitVec 16) (s : State) : Out :=
  .next (s.live fun d => d.run u 4 .all (.cpout u ctr sa sb sc cls fn imm) fun d k => d.iCpout k ctr sa sb sc cls fn imm)
def execCppp (u : UnitId) (ctr : BitVec 4) (sa sb sc : BitVec 5) (cls : BitVec 3) (s : State) : Out :=
  .next (s.live fun d => d.run u 4 .all (.cppp u ctr sa sb sc cls) fun d k => d.iCppp k ctr sa sb sc cls)
def execPatom (u : UnitId) (ctr : BitVec 4) (sa sb sc : BitVec 5) (fn : BitVec 6) (s : State) : Out :=
  .next (s.live fun d => d.run u 4 .all (.patom u ctr sa sb sc fn) fun d k => d.iPatom k ctr sa sb sc fn)
def execNmu (u : UnitId) (ctr : BitVec 4) (sa sb : BitVec 5) (s : State) : Out :=
  .next (s.live fun d => d.run u 4 .all (.nmu u ctr sa sb) fun d k => d.iNmu k ctr sa sb)
def execWacq (u : UnitId) (sa sb : BitVec 5) (win : BitVec 16) (s : State) : Out :=
  .next (s.live fun d => d.run u 4 .cores (.wacq u sa sb win) fun d k => d.iWacq k sa sb win)
def execWrel (u : UnitId) (sb : BitVec 5) (win : BitVec 16) (s : State) : Out :=
  .next (s.live fun d => d.run u 4 .cores (.wrel u sb win) fun d k => d.iWrel k sb win)

/-! ## Tokens and arrival counters (R267, R268) -/

def execPut (u : UnitId) (eng : BitVec 2) (ch rb : BitVec 5) (imm : W32) (s : State) : Out :=
  .next (s.live fun d => d.run u (tokEng u eng) .all (.put u eng ch rb imm) fun d k => d.iPut k ch rb imm)
def execTake (u : UnitId) (eng : BitVec 2) (ch rb : BitVec 5) (imm : W32) (s : State) : Out :=
  .next (s.live fun d => d.run u (tokEng u eng) .all (.take u eng ch rb imm) fun d k => d.iTake k (tokEng u eng) ch rb imm)
def execWait (u : UnitId) (eng : BitVec 2) (rd ctr rb : BitVec 5) (imm : W32) (s : State) : Out :=
  .next (s.live fun d => d.run u (tokEng u eng) .all (.wait u eng rd ctr rb imm) fun d k => d.iWait k rd ctr rb imm)
def execAset (u : UnitId) (ctr rb : BitVec 5) (imm : W32) (s : State) : Out :=
  .next (s.live fun d => d.run u 0 .all (.aset u ctr rb imm) fun d k => d.iAset k ctr rb imm)
def execAget (u : UnitId) (rd ctr : BitVec 5) (s : State) : Out :=
  .next (s.live fun d => d.run u 0 .all (.aget u rd ctr) fun d k => d.iAget k rd ctr)

/-! ## Rake, Sieve, reduce, session and region instructions (R269-R271) -/

def execRake (u : UnitId) (ctr : BitVec 4) (sa : BitVec 5) (s : State) : Out :=
  .next (s.live fun d => d.run u 0 .cores (.rake u ctr sa) fun d k => d.iRake k ctr sa)
def execSieve (u : UnitId) (ctr : BitVec 4) (sa : BitVec 5) (s : State) : Out :=
  .next (s.live fun d => d.run u 0 .cores (.sieve u ctr sa) fun d k => d.iSieve k ctr sa)
def execRpart (u : UnitId) (ctr : BitVec 4) (sa : BitVec 5) (grp : BitVec 16) (s : State) : Out :=
  .next (s.live fun d => d.run u 0 .cores (.rpart u ctr sa grp) fun d k => d.iRpart k ctr sa grp)
def execSappend (u : UnitId) (ctr : BitVec 4) (sa sb : BitVec 5) (s : State) : Out :=
  .next (s.live fun d => d.run u 0 .cores (.sappend u ctr sa sb) fun d k => d.iSappend k ctr sa sb)
def execSblk (u : UnitId) (sa sb sc : BitVec 5) (s : State) : Out :=
  .next (s.live fun d => d.run u 0 .cores (.sblk u sa sb sc) fun d k => d.iSblk k sa sb sc)
def execSinfo (u : UnitId) (sa : BitVec 5) (n : BitVec 16) (s : State) : Out :=
  .next (s.live fun d => d.run u 0 .cores (.sinfo u sa n) fun d k => d.iSinfo k sa n)
def execSprune (u : UnitId) (ctr : BitVec 4) (sa : BitVec 5) (s : State) : Out :=
  .next (s.live fun d => d.run u 0 .cores (.sprune u ctr sa) fun d k => d.iSprune k ctr sa)
def execRopen (u : UnitId) (ctr : BitVec 4) (sa sb : BitVec 5) (s : State) : Out :=
  .next (s.live fun d => d.run u 0 .cores (.ropen u ctr sa sb) fun d k => d.iRopen k ctr sa sb)
def execRclose (u : UnitId) (ctr : BitVec 4) (sa sb sc : BitVec 5) (s : State) : Out :=
  .next (s.live fun d => d.run u 0 .cores (.rclose u ctr sa sb sc) fun d k => d.iRclose k ctr sa sb sc)
def execRpub (u : UnitId) (ctr : BitVec 4) (sa sb sc : BitVec 5) (fn : BitVec 6) (s : State) : Out :=
  .next (s.live fun d => d.run u 0 .cores (.rpub u ctr sa sb sc fn) fun d k => d.iRpub k ctr sa sb sc fn)

/-! ## The expander stream and special registers (R272, R273) -/

def execXcfg (u : UnitId) (sa sb : BitVec 5) (s : State) : Out :=
  .next (s.live fun d => d.run u 1 .cores (.xcfg u sa sb) fun d k => d.iXcfg k sa sb)
def execXstat (u : UnitId) (sa : BitVec 5) (s : State) : Out :=
  .next (s.live fun d => d.run u 1 .cores (.xstat u sa) fun d k => d.iXstat k sa)
def execRdsctx (u : UnitId) (rd rb : BitVec 5) (imm : W32) (s : State) : Out :=
  .next (s.live fun d => d.run u 0 .all (.rdsctx u rd rb imm) fun d k => d.iRdsctx k rd rb imm)
def execRdpstat (u : UnitId) (rd : BitVec 5) (s : State) : Out :=
  .next (s.live fun d => d.run u 0 .all (.rdpstat u rd) fun d k => d.iRdpstat k rd)
def execWrpstat (u : UnitId) (rb : BitVec 5) (imm : W32) (s : State) : Out :=
  .next (s.live fun d => d.run u 0 .all (.wrpstat u rb imm) fun d k => d.iWrpstat k rb imm)
def execRdflt (u : UnitId) (rd : BitVec 5) (s : State) : Out :=
  .next (s.live fun d => d.run u 0 .all (.rdflt u rd) fun d k => d.iRdflt k rd)
def execRdtime (u : UnitId) (rd : BitVec 5) (s : State) : Out :=
  .next (s.live fun d => d.run u 0 .all (.rdtime u rd) fun d k => d.iRdtime k rd)
def execRdwrate (u : UnitId) (rd : BitVec 5) (s : State) : Out :=
  .next (s.live fun d => d.run u 0 .all (.rdwrate u rd) fun d k => d.iRdwrate k rd)

/-! ## Register-block instructions (R274) -/

def execRgrd (u : UnitId) (rd ra : BitVec 5) (sz : BitVec 2) (imm : W32) (s : State) : Out :=
  .next (s.live fun d => d.run u 0 .gardeners (.rgrd u rd ra sz imm) fun d k => d.iRgrd s.fuses k rd ra sz imm)
def execRgwr (u : UnitId) (ra rb : BitVec 5) (sz : BitVec 2) (imm : W32) (s : State) : Out :=
  .next (s.rgwr u ra rb sz imm)

end Sys2Proof.Machine
end

