-- ==== Sys2Proof/Machine/Dispatch.lean ====
section
/-! DEFINITION. One arm per command: each calls the meaning of its row. -/

namespace Sys2Proof.Machine

def exec (i : Instr) (s : State) : Host.Outcome State Fault Refusal :=
  match i with
  -- Clepor instructions (chapter 12): `u` is the unit that fetches the instruction
  | .add u rd ra rb imm => Sys2Proof.Machine.execAdd u rd ra rb imm s
  | .sub u rd ra rb imm => Sys2Proof.Machine.execSub u rd ra rb imm s
  | .mul u rd ra rb imm => Sys2Proof.Machine.execMul u rd ra rb imm s
  | .div u rd ra rb imm => Sys2Proof.Machine.execDiv u rd ra rb imm s
  | .and u rd ra rb imm => Sys2Proof.Machine.execAnd u rd ra rb imm s
  | .or u rd ra rb imm => Sys2Proof.Machine.execOr u rd ra rb imm s
  | .xor u rd ra rb imm => Sys2Proof.Machine.execXor u rd ra rb imm s
  | .sll u rd ra rb imm => Sys2Proof.Machine.execSll u rd ra rb imm s
  | .srl u rd ra rb imm => Sys2Proof.Machine.execSrl u rd ra rb imm s
  | .sra u rd ra rb imm => Sys2Proof.Machine.execSra u rd ra rb imm s
  | .slt u rd ra rb imm => Sys2Proof.Machine.execSlt u rd ra rb imm s
  | .sltu u rd ra rb imm => Sys2Proof.Machine.execSltu u rd ra rb imm s
  | .li u rd imm => Sys2Proof.Machine.execLi u rd imm s
  | .lih u rd imm => Sys2Proof.Machine.execLih u rd imm s
  | .bCc u ra rb cond off => Sys2Proof.Machine.execBCc u ra rb cond off s
  | .bpany u p off => Sys2Proof.Machine.execBpany u p off s
  | .bl u ra off => Sys2Proof.Machine.execBl u ra off s
  | .jr u ra off => Sys2Proof.Machine.execJr u ra off s
  | .endProg u ra rb => Sys2Proof.Machine.execEndProg u ra rb s
  | .fault u off => Sys2Proof.Machine.execFault u off s
  | .nop u => Sys2Proof.Machine.execNop u s
  | .ld u rd ra sz imm => Sys2Proof.Machine.execLd u rd ra sz imm s
  | .st u ra rb sz imm => Sys2Proof.Machine.execSt u ra rb sz imm s
  | .vld u eng vd va n => Sys2Proof.Machine.execVld u eng vd va n s
  | .vst u eng vd va n => Sys2Proof.Machine.execVst u eng vd va n s
  | .vldH u eng vd va => Sys2Proof.Machine.execVldH u eng vd va s
  | .vstH u eng vd va => Sys2Proof.Machine.execVstH u eng vd va s
  | .tld u td sa => Sys2Proof.Machine.execTld u td sa s
  | .tst u td sa => Sys2Proof.Machine.execTst u td sa s
  | .tstH u td sa => Sys2Proof.Machine.execTstH u td sa s
  | .tzero u td => Sys2Proof.Machine.execTzero u td s
  | .badd u rd ra rb sz imm => Sys2Proof.Machine.execBadd u rd ra rb sz imm s
  | .bfadd u rd ra rb imm => Sys2Proof.Machine.execBfadd u rd ra rb imm s
  | .bswap u rd ra rb sz imm => Sys2Proof.Machine.execBswap u rd ra rb sz imm s
  | .vadd u eng vd va vb pred pneg => Sys2Proof.Machine.execVadd u eng vd va vb pred pneg s
  | .vsub u eng vd va vb pred pneg => Sys2Proof.Machine.execVsub u eng vd va vb pred pneg s
  | .vmul u eng vd va vb pred pneg => Sys2Proof.Machine.execVmul u eng vd va vb pred pneg s
  | .vfma u eng vd va vb vc pred pneg => Sys2Proof.Machine.execVfma u eng vd va vb vc pred pneg s
  | .vmax u eng vd va vb pred pneg => Sys2Proof.Machine.execVmax u eng vd va vb pred pneg s
  | .vmin u eng vd va vb pred pneg => Sys2Proof.Machine.execVmin u eng vd va vb pred pneg s
  | .vbcast u eng vd sa pred pneg => Sys2Proof.Machine.execVbcast u eng vd sa pred pneg s
  | .vsel u eng vd va vb pred pneg => Sys2Proof.Machine.execVsel u eng vd va vb pred pneg s
  | .vcmpCc u eng pd va vb pred pneg fn => Sys2Proof.Machine.execVcmpCc u eng pd va vb pred pneg fn s
  | .vmovS u eng sd va lane => Sys2Proof.Machine.execVmovS u eng sd va lane s
  | .vins u eng vd sa lane => Sys2Proof.Machine.execVins u eng vd sa lane s
  | .vtrow u eng vd ta tb row => Sys2Proof.Machine.execVtrow u eng vd ta tb row s
  | .pand u eng pd pa pb => Sys2Proof.Machine.execPand u eng pd pa pb s
  | .por u eng pd pa pb => Sys2Proof.Machine.execPor u eng pd pa pb s
  | .pnot u eng pd pa => Sys2Proof.Machine.execPnot u eng pd pa s
  | .vexp u eng vd va pred pneg => Sys2Proof.Machine.execVexp u eng vd va pred pneg s
  | .vrcp u eng vd va pred pneg => Sys2Proof.Machine.execVrcp u eng vd va pred pneg s
  | .vredmax u eng vd va pred pneg => Sys2Proof.Machine.execVredmax u eng vd va pred pneg s
  | .vredsum u eng vd va pred pneg => Sys2Proof.Machine.execVredsum u eng vd va pred pneg s
  | .vredamax u eng vd va pred pneg => Sys2Proof.Machine.execVredamax u eng vd va pred pneg s
  | .mma u td sa sb sc mode kblk acc xb trb => Sys2Proof.Machine.execMma u td sa sb sc mode kblk acc xb trb s
  | .tscale u td sa => Sys2Proof.Machine.execTscale u td sa s
  | .tadd u td ta => Sys2Proof.Machine.execTadd u td ta s
  | .vq u eng vd va fn => Sys2Proof.Machine.execVq u eng vd va fn s
  | .vdq u eng vd va fn => Sys2Proof.Machine.execVdq u eng vd va fn s
  | .vqerr u eng vd va fn => Sys2Proof.Machine.execVqerr u eng vd va fn s
  | .abias u eng vd va sb sc pred pneg => Sys2Proof.Machine.execAbias u eng vd va sb sc pred pneg s
  | .astat u eng vd va vb pred pneg => Sys2Proof.Machine.execAstat u eng vd va vb pred pneg s
  | .aprune u eng vd va sb pred pneg => Sys2Proof.Machine.execAprune u eng vd va sb pred pneg s
  | .cpin u ctr sa sb sc cls => Sys2Proof.Machine.execCpin u ctr sa sb sc cls s
  | .cpout u ctr sa sb sc cls fn imm => Sys2Proof.Machine.execCpout u ctr sa sb sc cls fn imm s
  | .cppp u ctr sa sb sc cls => Sys2Proof.Machine.execCppp u ctr sa sb sc cls s
  | .patom u ctr sa sb sc fn => Sys2Proof.Machine.execPatom u ctr sa sb sc fn s
  | .nmu u ctr sa sb => Sys2Proof.Machine.execNmu u ctr sa sb s
  | .wacq u sa sb win => Sys2Proof.Machine.execWacq u sa sb win s
  | .wrel u sb win => Sys2Proof.Machine.execWrel u sb win s
  | .put u eng ch rb imm => Sys2Proof.Machine.execPut u eng ch rb imm s
  | .take u eng ch rb imm => Sys2Proof.Machine.execTake u eng ch rb imm s
  | .wait u eng rd ctr rb imm => Sys2Proof.Machine.execWait u eng rd ctr rb imm s
  | .aset u ctr rb imm => Sys2Proof.Machine.execAset u ctr rb imm s
  | .aget u rd ctr => Sys2Proof.Machine.execAget u rd ctr s
  | .rake u ctr sa => Sys2Proof.Machine.execRake u ctr sa s
  | .sieve u ctr sa => Sys2Proof.Machine.execSieve u ctr sa s
  | .rpart u ctr sa grp => Sys2Proof.Machine.execRpart u ctr sa grp s
  | .sappend u ctr sa sb => Sys2Proof.Machine.execSappend u ctr sa sb s
  | .sblk u sa sb sc => Sys2Proof.Machine.execSblk u sa sb sc s
  | .sinfo u sa n => Sys2Proof.Machine.execSinfo u sa n s
  | .sprune u ctr sa => Sys2Proof.Machine.execSprune u ctr sa s
  | .ropen u ctr sa sb => Sys2Proof.Machine.execRopen u ctr sa sb s
  | .rclose u ctr sa sb sc => Sys2Proof.Machine.execRclose u ctr sa sb sc s
  | .rpub u ctr sa sb sc fn => Sys2Proof.Machine.execRpub u ctr sa sb sc fn s
  | .xcfg u sa sb => Sys2Proof.Machine.execXcfg u sa sb s
  | .xstat u sa => Sys2Proof.Machine.execXstat u sa s
  | .rdsctx u rd rb imm => Sys2Proof.Machine.execRdsctx u rd rb imm s
  | .rdpstat u rd => Sys2Proof.Machine.execRdpstat u rd s
  | .wrpstat u rb imm => Sys2Proof.Machine.execWrpstat u rb imm s
  | .rdflt u rd => Sys2Proof.Machine.execRdflt u rd s
  | .rdtime u rd => Sys2Proof.Machine.execRdtime u rd s
  | .rdwrate u rd => Sys2Proof.Machine.execRdwrate u rd s
  | .rgrd u rd ra sz imm => Sys2Proof.Machine.execRgrd u rd ra sz imm s
  | .rgwr u ra rb sz imm => Sys2Proof.Machine.execRgwr u ra rb sz imm s
  | .undefOp u w => Sys2Proof.Machine.execUndefOp u w s
  -- start-up, resets and firmware (chapters 22 and 23)
  | .powerOn => Sys2Proof.Machine.execPowerOn s
  | .timeBaseLock => Sys2Proof.Machine.execTimeBaseLock s
  | .startUpMemoryDone failedStacks => Sys2Proof.Machine.execStartUpMemoryDone failedStacks s
  | .startUpMarchDone c clusterRows coreRows => Sys2Proof.Machine.execStartUpMarchDone c clusterRows coreRows s
  | .powerOff => Sys2Proof.Machine.execPowerOff s
  | .endpointReset => Sys2Proof.Machine.execEndpointReset s
  | .pf0Flr => Sys2Proof.Machine.execPf0Flr s
  | .vfFlr a => Sys2Proof.Machine.execVfFlr a s
  | .tdiUnlock a => Sys2Proof.Machine.execTdiUnlock a s
  | .reload who v => Sys2Proof.Machine.execReload who v s
  | .commitSvn who => Sys2Proof.Machine.execCommitSvn who s
  | .registerWrite who off size val => Sys2Proof.Machine.execRegisterWrite who off size val s
  | .rcRead who off size => Sys2Proof.Machine.execRcRead who off size s
  | .timNowRead who => Sys2Proof.Machine.execTimNowRead who s
  | .genIntWrite who v => Sys2Proof.Machine.execGenIntWrite who v s
  -- time, supplies and power (chapters 2 and 24)
  | .alertHoldExpiry block => Sys2Proof.Machine.execAlertHoldExpiry block s
  | .measuringWindowEnd rates => Sys2Proof.Machine.execMeasuringWindowEnd rates s
  | .dieSyncLost skewNs => Sys2Proof.Machine.execDieSyncLost skewNs s
  | .supplyMonitorSample site mv temp => Sys2Proof.Machine.execSupplyMonitorSample site mv temp s
  | .vddAonOutOfRange => Sys2Proof.Machine.execVddAonOutOfRange s
  | .vddRetLoss => Sys2Proof.Machine.execVddRetLoss s
  | .powerSample rails => Sys2Proof.Machine.execPowerSample rails s
  | .avsUpdate => Sys2Proof.Machine.execAvsUpdate s
  | .avsStep => Sys2Proof.Machine.execAvsStep s
  | .refclkLoss => Sys2Proof.Machine.execRefclkLoss s
  | .refclkReturn => Sys2Proof.Machine.execRefclkReturn s
  | .tamperAssert => Sys2Proof.Machine.execTamperAssert s
  -- the Trellis and the ports (chapters 3 and 5)
  | .cellUncorrectable die frame => Sys2Proof.Machine.execCellUncorrectable die frame s
  | .portEnable p => Sys2Proof.Machine.execPortEnable p s
  | .portDisable p => Sys2Proof.Machine.execPortDisable p s
  | .trainingFramesDetected p lanes => Sys2Proof.Machine.execTrainingFramesDetected p lanes s
  | .laneTrainingDone p lanes => Sys2Proof.Machine.execLaneTrainingDone p lanes s
  | .laneMapAgreed p partnerGood partnerWidth => Sys2Proof.Machine.execLaneMapAgreed p partnerGood partnerWidth s
  | .measureDone p rttUi => Sys2Proof.Machine.execMeasureDone p rttUi s
  | .capabilityReceived p blocks => Sys2Proof.Machine.execCapabilityReceived p blocks s
  | .portAccept p => Sys2Proof.Machine.execPortAccept p s
  | .bringupStepTimeout p => Sys2Proof.Machine.execBringupStepTimeout p s
  | .portRetrain p => Sys2Proof.Machine.execPortRetrain p s
  | .laneDegrading lane cause => Sys2Proof.Machine.execLaneDegrading lane cause s
  | .lossOfSignal lane => Sys2Proof.Machine.execLossOfSignal lane s
  | .uncorrectableCodeword lane frame => Sys2Proof.Machine.execUncorrectableCodeword lane frame s
  | .resyncMarker p cls senderCells => Sys2Proof.Machine.execResyncMarker p cls senderCells s
  | .partnerCreditReceived p cls cells => Sys2Proof.Machine.execPartnerCreditReceived p cls cells s
  | .frameAdmission ingress f => Sys2Proof.Machine.execFrameAdmission ingress f s
  | .frameTailArrival die id payload damaged => Sys2Proof.Machine.execFrameTailArrival die id payload damaged s
  | .egressSend port => Sys2Proof.Machine.execEgressSend port s
  | .trlPortLlWrite p v => Sys2Proof.Machine.execTrlPortLlWrite p v s
  -- memory frames at the home and the device's own requests (chapter 4)
  | .read die src f => Sys2Proof.Machine.execRead die src f s
  | .write f => Sys2Proof.Machine.execWrite f s
  | .atomic die src f => Sys2Proof.Machine.execAtomic die src f s
  | .combineEntryGrant die entry => Sys2Proof.Machine.execCombineEntryGrant die entry s
  | .cowCopyDone page => Sys2Proof.Machine.execCowCopyDone page s
  | .readResp f => Sys2Proof.Machine.execReadResp f s
  | .writeAck f => Sys2Proof.Machine.execWriteAck f s
  | .copyDataPush f => Sys2Proof.Machine.execCopyDataPush f s
  | .copyDataPull f => Sys2Proof.Machine.execCopyDataPull f s
  | .evictNotice f => Sys2Proof.Machine.execEvictNotice f s
  | .nak f => Sys2Proof.Machine.execNak f s
  | .requestTimeout tag => Sys2Proof.Machine.execRequestTimeout tag s
  | .invoke f => Sys2Proof.Machine.execInvoke f s
  | .invokeAssemblyTimeout core => Sys2Proof.Machine.execInvokeAssemblyTimeout core s
  | .warm f => Sys2Proof.Machine.execWarm f s
  | .warmHoldExpiry session => Sys2Proof.Machine.execWarmHoldExpiry session s
  | .lend f => Sys2Proof.Machine.execLend f s
  | .withdraw f => Sys2Proof.Machine.execWithdraw f s
  | .withdrawComplete entry => Sys2Proof.Machine.execWithdrawComplete entry s
  -- coherence (chapter 9)
  | .rdShared f => Sys2Proof.Machine.execRdShared f s
  | .rdOwn f => Sys2Proof.Machine.execRdOwn f s
  | .upgrade f => Sys2Proof.Machine.execUpgrade f s
  | .snoopResp f => Sys2Proof.Machine.execSnoopResp f s
  | .writeback f => Sys2Proof.Machine.execWriteback f s
  | .snoopTimeout tag => Sys2Proof.Machine.execSnoopTimeout tag s
  | .reclaim agent => Sys2Proof.Machine.execReclaim agent s
  | .reclaimWalkDone agent => Sys2Proof.Machine.execReclaimWalkDone agent s
  | .cohAgentWrite agent v => Sys2Proof.Machine.execCohAgentWrite agent v s
  | .recall w => Sys2Proof.Machine.execRecall w s
  | .recallDone w => Sys2Proof.Machine.execRecallDone w s
  -- reduction, membership and mirror frames (chapters 17 and 20)
  | .reducePart f => Sys2Proof.Machine.execReducePart f s
  | .heartbeat f => Sys2Proof.Machine.execHeartbeat f s
  | .suspect f => Sys2Proof.Machine.execSuspect f s
  | .propose f => Sys2Proof.Machine.execPropose f s
  | .accept f => Sys2Proof.Machine.execAccept f s
  | .reject f => Sys2Proof.Machine.execReject f s
  | .commit f => Sys2Proof.Machine.execCommit f s
  | .epochJoin f => Sys2Proof.Machine.execEpochJoin f s
  | .fetch f => Sys2Proof.Machine.execFetch f s
  | .map f => Sys2Proof.Machine.execMap f s
  | .pushRow f => Sys2Proof.Machine.execPushRow f s
  | .pushRecord f => Sys2Proof.Machine.execPushRecord f s
  | .pushClose f => Sys2Proof.Machine.execPushClose f s
  | .pushCopy f => Sys2Proof.Machine.execPushCopy f s
  | .pushCopyDone f => Sys2Proof.Machine.execPushCopyDone f s
  -- pool memory, tiers and objects (chapter 6)
  | .memSpanWrite n v => Sys2Proof.Machine.execMemSpanWrite n v s
  | .stackFailure stack channel => Sys2Proof.Machine.execStackFailure stack channel s
  | .cxlEnable link => Sys2Proof.Machine.execCxlEnable link s
  | .cxlLinkReady link found => Sys2Proof.Machine.execCxlLinkReady link found s
  | .cxlDisable link => Sys2Proof.Machine.execCxlDisable link s
  | .cxlDrainDone link => Sys2Proof.Machine.execCxlDrainDone link s
  | .cxlLinkFailure link => Sys2Proof.Machine.execCxlLinkFailure link s
  | .objectCreate w => Sys2Proof.Machine.execObjectCreate w s
  | .objectDestroy w => Sys2Proof.Machine.execObjectDestroy w s
  | .setPolicy w => Sys2Proof.Machine.execSetPolicy w s
  | .promote w => Sys2Proof.Machine.execPromote w s
  | .demote w => Sys2Proof.Machine.execDemote w s
  | .window w => Sys2Proof.Machine.execWindow w s
  | .pageCopyDone page => Sys2Proof.Machine.execPageCopyDone page s
  | .windowLayerLoaded win slot => Sys2Proof.Machine.execWindowLayerLoaded win slot s
  -- scratchpad banks (chapter 7)
  | .bankOwnershipWrite bank v => Sys2Proof.Machine.execBankOwnershipWrite bank v s
  | .bankHandoverDone bank => Sys2Proof.Machine.execBankHandoverDone bank s
  | .coldFrameEntry bank => Sys2Proof.Machine.execColdFrameEntry bank s
  | .coldFrameWakeDone bank => Sys2Proof.Machine.execColdFrameWakeDone bank s
  | .marchStart c v => Sys2Proof.Machine.execMarchStart c v s
  | .marchDone c failRows uncorrWords => Sys2Proof.Machine.execMarchDone c failRows uncorrWords s
  | .tbtStart v => Sys2Proof.Machine.execTbtStart v s
  | .tbtDone failUnit => Sys2Proof.Machine.execTbtDone failUnit s
  -- near-memory units (chapter 8)
  | .nmuFill src => Sys2Proof.Machine.execNmuFill src s
  | .nmuCopy src => Sys2Proof.Machine.execNmuCopy src s
  | .nmuCompare src => Sys2Proof.Machine.execNmuCompare src s
  | .nmuReduce src => Sys2Proof.Machine.execNmuReduce src s
  | .nmuAtomic src => Sys2Proof.Machine.execNmuAtomic src s
  | .nmuBurstGrant nmu cmd => Sys2Proof.Machine.execNmuBurstGrant nmu cmd s
  | .nmuBurstEnd nmu => Sys2Proof.Machine.execNmuBurstEnd nmu s
  | .refreshDue nmu => Sys2Proof.Machine.execRefreshDue nmu s
  | .nmuCommandComplete cmd => Sys2Proof.Machine.execNmuCommandComplete cmd s
  -- versioned regions (chapter 10)
  | .createRegion w => Sys2Proof.Machine.execCreateRegion w s
  | .destroyRegion w => Sys2Proof.Machine.execDestroyRegion w s
  | .regionOpen w => Sys2Proof.Machine.execRegionOpen w s
  | .regionClose w => Sys2Proof.Machine.execRegionClose w s
  | .versionRetireDone r slot => Sys2Proof.Machine.execVersionRetireDone r slot s
  | .publish w => Sys2Proof.Machine.execPublish w s
  | .publishRecallDone r => Sys2Proof.Machine.execPublishRecallDone r s
  -- programs and invocations (chapter 11)
  | .load w => Sys2Proof.Machine.execLoad w s
  | .loadComplete w => Sys2Proof.Machine.execLoadComplete w s
  | .unload w => Sys2Proof.Machine.execUnload w s
  | .dispatch core => Sys2Proof.Machine.execDispatch core s
  | .resultSend core => Sys2Proof.Machine.execResultSend core s
  | .runLimitExpiry core => Sys2Proof.Machine.execRunLimitExpiry core s
  -- sessions (chapter 15)
  | .sessionCreate w => Sys2Proof.Machine.execSessionCreate w s
  | .sessionClose w => Sys2Proof.Machine.execSessionClose w s
  | .sessionCloseComplete session => Sys2Proof.Machine.execSessionCloseComplete session s
  | .setPlan w => Sys2Proof.Machine.execSetPlan w s
  | .sessionRead w => Sys2Proof.Machine.execSessionRead w s
  | .pruneRecordApply session => Sys2Proof.Machine.execPruneRecordApply session s
  -- expanders, Rake, Sieve and reduce engine (chapters 16 and 17)
  | .expanderBlockDecoded core => Sys2Proof.Machine.execExpanderBlockDecoded core s
  | .expEgrWrite n v => Sys2Proof.Machine.execExpEgrWrite n v s
  | .rksGrpWrite g v => Sys2Proof.Machine.execRksGrpWrite g v s
  | .abandon g => Sys2Proof.Machine.execAbandon g s
  | .roundTimeout g => Sys2Proof.Machine.execRoundTimeout g s
  | .rakeRowComplete c => Sys2Proof.Machine.execRakeRowComplete c s
  | .sieveComplete c => Sys2Proof.Machine.execSieveComplete c s
  -- allotments (chapter 18)
  | .altEnable a => Sys2Proof.Machine.execAltEnable a s
  | .altDisable a => Sys2Proof.Machine.execAltDisable a s
  | .allotmentResetStart a => Sys2Proof.Machine.execAllotmentResetStart a s
  | .allotmentResetEnd a => Sys2Proof.Machine.execAllotmentResetEnd a s
  | .notifyPop a => Sys2Proof.Machine.execNotifyPop a s
  | .notifyTokenRefill a => Sys2Proof.Machine.execNotifyTokenRefill a s
  | .vectorUnmask entry => Sys2Proof.Machine.execVectorUnmask entry s
  | .mapInstall => Sys2Proof.Machine.execMapInstall s
  | .drainWindowEnd => Sys2Proof.Machine.execDrainWindowEnd s
  -- security (chapter 19)
  | .lifecycleDeploy who v => Sys2Proof.Machine.execLifecycleDeploy who v s
  | .lifecycleReturn who v => Sys2Proof.Machine.execLifecycleReturn who v s
  | .returnFillsDone => Sys2Proof.Machine.execReturnFillsDone s
  | .getVersion via => Sys2Proof.Machine.execGetVersion via s
  | .getCapabilities via msg => Sys2Proof.Machine.execGetCapabilities via msg s
  | .negotiateAlgorithms via msg => Sys2Proof.Machine.execNegotiateAlgorithms via msg s
  | .getDigests via msg => Sys2Proof.Machine.execGetDigests via msg s
  | .getCertificate via slot off len => Sys2Proof.Machine.execGetCertificate via slot off len s
  | .challenge via msg => Sys2Proof.Machine.execChallenge via msg s
  | .getMeasurements via index signed msg => Sys2Proof.Machine.execGetMeasurements via index signed msg s
  | .keyExchange via ek msg => Sys2Proof.Machine.execKeyExchange via ek msg s
  | .finish via requesterPk proof => Sys2Proof.Machine.execFinish via requesterPk proof s
  | .spdmHeartbeat via => Sys2Proof.Machine.execSpdmHeartbeat via s
  | .keyUpdate via op => Sys2Proof.Machine.execKeyUpdate via op s
  | .endSession via => Sys2Proof.Machine.execEndSession via s
  | .chunkSend via seq last chunk => Sys2Proof.Machine.execChunkSend via seq last chunk s
  | .chunkGet via seq => Sys2Proof.Machine.execChunkGet via seq s
  | .getReport via a nonce => Sys2Proof.Machine.execGetReport via a nonce s
  | .provisionFabric via a gen key => Sys2Proof.Machine.execProvisionFabric via a gen key s
  | .roll via a => Sys2Proof.Machine.execRoll via a s
  | .retireOld via a => Sys2Proof.Machine.execRetireOld via a s
  | .signatureDone => Sys2Proof.Machine.execSignatureDone s
  | .spdmAnswerExpiry ep => Sys2Proof.Machine.execSpdmAnswerExpiry ep s
  | .tenantRemove who a => Sys2Proof.Machine.execTenantRemove who a s
  | .credProgram n => Sys2Proof.Machine.execCredProgram n s
  | .credRevoke n => Sys2Proof.Machine.execCredRevoke n s
  | .ifrHello lane nonce ek cred => Sys2Proof.Machine.execIfrHello lane nonce ek cred s
  | .ifrAuth session sig => Sys2Proof.Machine.execIfrAuth session sig s
  | .ifrAuthTimeout session => Sys2Proof.Machine.execIfrAuthTimeout session s
  | .ifrClose session => Sys2Proof.Machine.execIfrClose session s
  | .ifrSessionIdle session => Sys2Proof.Machine.execIfrSessionIdle session s
  | .ifrRegRead session seq off size => Sys2Proof.Machine.execIfrRegRead session seq off size s
  | .ifrRegWrite session seq off size val => Sys2Proof.Machine.execIfrRegWrite session seq off size val s
  | .ifrAlmanacRead session seq off len => Sys2Proof.Machine.execIfrAlmanacRead session seq off len s
  | .ifrFwReload session seq off chunk start => Sys2Proof.Machine.execIfrFwReload session seq off chunk start s
  | .ifrAllotRemove session seq a => Sys2Proof.Machine.execIfrAllotRemove session seq a s
  | .ifrCredAdd session seq slot pk role => Sys2Proof.Machine.execIfrCredAdd session seq slot pk role s
  | .ifrCredRevoke session seq slot => Sys2Proof.Machine.execIfrCredRevoke session seq slot s
  | .ifrLifecycle session seq target confirm => Sys2Proof.Machine.execIfrLifecycle session seq target confirm s
  | .ifrReport session seq a nonce => Sys2Proof.Machine.execIfrReport session seq a nonce s
  -- membership timers and commands (chapter 20)
  | .heartbeatWindow => Sys2Proof.Machine.execHeartbeatWindow s
  | .deadDeclaration n => Sys2Proof.Machine.execDeadDeclaration n s
  | .proposalPhaseExpiry => Sys2Proof.Machine.execProposalPhaseExpiry s
  | .decideDeadline => Sys2Proof.Machine.execDecideDeadline s
  | .found => Sys2Proof.Machine.execFound s
  | .join ep => Sys2Proof.Machine.execJoin ep s
  | .joinTimeout => Sys2Proof.Machine.execJoinTimeout s
  | .rejoin => Sys2Proof.Machine.execRejoin s
  | .sendMap => Sys2Proof.Machine.execSendMap s
  | .attach w => Sys2Proof.Machine.execAttach w s
  | .attachComplete w => Sys2Proof.Machine.execAttachComplete w s
  -- Almanac, weeding pass and calibration block (chapter 21)
  | .almanacEvent => Sys2Proof.Machine.execAlmanacEvent s
  | .repeatWindowEnd n => Sys2Proof.Machine.execRepeatWindowEnd n s
  | .checkpointTimer => Sys2Proof.Machine.execCheckpointTimer s
  | .histogramSample => Sys2Proof.Machine.execHistogramSample s
  | .erase who => Sys2Proof.Machine.execErase who s
  | .eraseDone => Sys2Proof.Machine.execEraseDone s
  | .flush => Sys2Proof.Machine.execFlush s
  | .histClear => Sys2Proof.Machine.execHistClear s
  | .almRdData who => Sys2Proof.Machine.execAlmRdData who s
  | .weedingPassStart => Sys2Proof.Machine.execWeedingPassStart s
  | .weedingUnitTest kind unit result => Sys2Proof.Machine.execWeedingUnitTest kind unit result s
  | .weedingStarve => Sys2Proof.Machine.execWeedingStarve s
  | .wdpDisable => Sys2Proof.Machine.execWdpDisable s
  | .calWrite who v => Sys2Proof.Machine.execCalWrite who v s
  -- management port and calendar time (chapter 22)
  | .mgtLaneLinkUp lane speed => Sys2Proof.Machine.execMgtLaneLinkUp lane speed s
  | .mgtSpeedTryExpiry lane => Sys2Proof.Machine.execMgtSpeedTryExpiry lane s
  | .mgtNeighbourQuery lane q => Sys2Proof.Machine.execMgtNeighbourQuery lane q s
  | .ptpMessage lane msg => Sys2Proof.Machine.execPtpMessage lane msg s
  | .ptpMasterLost => Sys2Proof.Machine.execPtpMasterLost s
  | .ptpHoldoverExpiry => Sys2Proof.Machine.execPtpHoldoverExpiry s
  -- the rows that close the table
  | .dieSyncRegained skewNs => Sys2Proof.Machine.execDieSyncRegained skewNs s
  | .vddAonRestored => Sys2Proof.Machine.execVddAonRestored s
  | .mgtLaneLinkLoss lane => Sys2Proof.Machine.execMgtLaneLinkLoss lane s
  | .tdiConfigLocked a => Sys2Proof.Machine.execTdiConfigLocked a s
  | .tdiRun a => Sys2Proof.Machine.execTdiRun a s
  | .localCopyArrival copy bytes => Sys2Proof.Machine.execLocalCopyArrival copy bytes s
  | .snapshotWindow => Sys2Proof.Machine.execSnapshotWindow s
  | .calibrationWriteDone => Sys2Proof.Machine.execCalibrationWriteDone s
  | .reloadDone => Sys2Proof.Machine.execReloadDone s

end Sys2Proof.Machine
end

