-- ==== Sys2Proof/Machine/Tick.lean ====
section
/-! DEFINITION. What a nanosecond without a command does: the time base counts (R37), bits fail (R64, R124, R146, R169),
bounds that have passed expire (R42), and the device's engines go on with the work that waited (R24, R25). -/

namespace Sys2Proof.Machine

/-! ## Bits that fail -/

/-- The flaws of lines or words after upsets: an error that cannot be corrected stays one. -/
def struck (flaws : Kv Bool) (hits : List (Nat × Bool)) : Kv Bool :=
  hits.foldl (fun m e => kvPut m e.1 (e.2 || kvGetD m e.1 false)) flaws

/-- Words of the program stores whose error cannot be corrected (R222). -/
def Dev.upsetCode (d : Dev) (us : List Config.Upset) : Dev :=
  us.foldl (fun d u => match u with
    | .code k => if k < 1048576 && (kvGet? d.store.code k).isSome then
        { d with store := { d.store with bad := setIns k d.store.bad } } else d
    | _ => d) d

/-- Upsets of pool lines in frames that are in use, of scratchpad words, and of the next codewords of lanes. Which bits fail,
and when, is in no rule: a free value. DESIGN CHOICE (log entry 80). -/
def Dev.upset (d : Dev) : Dev :=
  let us := Config.upsets d.free d.now
  let d := d.upsetCode us
  { d with
    pool := { d.pool with flaws := struck d.pool.flaws (us.filterMap fun u => match u with
      | .line k hard => if (kvGet? d.pool.used (k / 512)).isSome then some (k, hard) else none
      | _ => none) }
    banks := { d.banks with flaws := struck d.banks.flaws (us.filterMap fun u => match u with
      | .word w hard => some (w, hard)
      | _ => none) }
    laneNoise := us.foldl (fun m u => match u with
      | .symbols l n => if l < 192 then kvPut m l n else m
      | _ => m) d.laneNoise }

/-! ## Bounds and windows (R41, R42) -/

/-- A bound that has passed: a response latched at its very value may still come first. -/
def Dev.past (d : Dev) (t : Nat) : Bool := decide (t < d.now)

/-- The keys of the entries of a table that a test accepts. -/
def dueKeys {α : Type} (m : Kv α) (p : α → Bool) : List Nat := kvKeys (kvFilter m fun _ x => p x)

/-- Bounds of requests and snoops, of WARM holds and of rounds. -/
def Dev.expireWaits (d : Dev) : Dev :=
  let d1 := (dueKeys d.reqs fun r => (r.deadline.map d.past).getD false).foldl Dev.reqTimeout d
  let d2 := ((d1.coh.txns.flatMap fun e => e.2.snoops.filter fun s => d1.past s.deadline).map Snoop.tag).foldl Dev.snoopTimeout d1
  let d3 := (dueKeys d2.pool.holds d2.past).foldl Dev.warmExpires d2
  (kvKeys d3.eng.rounds).foldl (fun d g =>
    if (d.round? g).any fun r => d.past (r.openNs + 1000 * d.get Bar.RKS_GRP_ROUND_TIMEOUT_US g) then d.roundExpires g else d) d3

/-- Bounds of assembly and of run limits. -/
def Dev.expireUnits (d : Dev) : Dev :=
  (kvKeys d.units).foldl (fun d n =>
    if 256 ≤ n then d
    else
      let d1 := match (d.unit n).inv with
        | some i => if d.past i.deadline then d.assemblyTimeout n else d
        | none => d
      if d1.past (d1.unit n).limit then d1.limitExpires n else d1) d

/-- Bounds of ports, of the management lanes and of the clock. -/
def Dev.expireLinks (d : Dev) : Dev :=
  let d1 := (dueKeys d.ports fun x => d.past x.deadline).foldl Dev.bringupExpires d
  let d2 := [0, 1].foldl (fun d l => if d.past (d.mgt.tryNs.getD l 0 + 500000000) then d.speedExpires l else d) d1
  if d2.past d2.mgt.holdEnd then d2.holdoverExpires else d2

/-- Bounds of security sessions and mailboxes, and of the membership protocol. -/
def Dev.expireProtocols (d : Dev) : Dev :=
  let d1 := (dueKeys d.sec.mailbox fun m => d.past (m.since + 10000000000)).foldl Dev.answerExpires d
  let d2 := (dueKeys d1.sec.ifr fun x => d1.past x.deadline).foldl (fun d n => (d.ifrExpire n 1).ifrExpire n 2) d1
  let d3 := if d2.mbr.own.any fun p => d2.past (p.since + 1000 * d2.timer Bar.MBR_CFG_PHASE_US) then d2.phaseExpires else d2
  let d4 := if d3.mbr.decideEnd.any d3.past then d3.decideExpires else d3
  if d4.mbr.joining.any d4.past then d4.joinExpires else d4

/-- Windows and periods of the time base that have ended. -/
def Dev.endWindows (d : Dev) : Dev :=
  let d1 := if d.isMember then (List.range 1024).foldl Dev.checkSilent d.heartbeatWindow else d
  let d2 := (kvKeys d1.allot).foldl Dev.refillTokens d1
  let d3 := (kvKeys d2.power.holds).foldl Dev.releaseAlert d2
  let d4 := (if 0 < d3.get Bar.GEN_BOOT_STAGE then d3.ckptTimer.sampleTimer.snapshots else d3).passTimer.starveTimer
  (List.range d4.alm.wins.length).foldl (fun d i => d.winEnds (d4.alm.wins.length - 1 - i)) d4

/-- Every expiry that is due acts (R42). -/
def Dev.expire (d : Dev) : Dev := d.expireWaits.expireUnits.expireLinks.expireProtocols.endWindows

/-! ## The engines -/

/-- Mirror pushes that are whole and waited are applied (R450). -/
def Dev.applyPushes (d : Dev) : Dev := (kvKeys d.sess).foldl Dev.applyPush d

/-- Everything that waits on a handshake is tried once more. -/
def Dev.background (d : Dev) : Dev :=
  let d1 := d.burstsRun.marchesRun.settleCopies.pumpNmus
  let d2 := d1.resends.goOn.pumpAttaches.pumpReduce.pumpRakes.drainUnits
  d2.dropUnclaimed.pumpJoins.applyPushes.retryCreates.pumpResets.pumpWeeding.pump.retry

/-- One nanosecond passes while PWR_OK is asserted. -/
def Dev.tick (d : Dev) : Dev :=
  if d.power.pwrOk then
    let d1 : Dev := { d with now := d.now + 1 }
    if d1.runs then d1.upset.steerDie1.expire.background else d1
  else d

def State.tick (s : State) : State := s.onDev Dev.tick

end Sys2Proof.Machine
end

