-- ==== Sys2Proof/Safety.lean ====
section
/-! DEFINITION. The terms in which claims about the block are made: what it means that a command completes, that a unit
issues an instruction, which state a command leaves alone, and the order in which fuses change. -/

namespace Sys2Proof.Machine

/-! ## Commands -/

/-- The command completes: the package goes on with the same fuses and the same waiting commands, and its device after
the command is one that `P` holds of. -/
def Completes (c : Instr) (s : State) (P : Dev → Prop) : Prop :=
  ∃ d : Dev, exec c s = .next { s with dev := d } ∧ P d

/-- The package serves register commands: it runs and its start-up has ended in READY (R472, R476). -/
def State.isReady (s : State) : Prop := s.dev.ready = true

/-- The package runs: PWR_OK is asserted and it has not tripped (R475, R505). -/
def State.isRunning (s : State) : Prop := s.dev.runs = true

/-- A package that serves register accesses runs; this is what start-up leaves (R472, R476). -/
def State.isServing (s : State) : Prop := s.dev.serves = true

/-- No register but those at the listed BAR0 offsets differs between two devices. -/
def RegsBut (ks : List Nat) (d e : Dev) : Prop := ∀ o, o ∉ ks → kvGet? e.regs o = kvGet? d.regs o

/-- Two devices agree in everything that no BAR0 register holds. -/
def RestSame (d e : Dev) : Prop := { e with regs := d.regs } = d

/-- Two devices agree but for registers and the endpoint, whose TDI states a register write may move (R474). -/
def RestSameEp (d e : Dev) : Prop := { e with regs := d.regs, ep := d.ep } = d

/-- Pool memory, scratchpad and the poison of both read as before. -/
def MemorySame (d e : Dev) : Prop :=
  e.pool.mem = d.pool.mem ∧ e.pool.poison = d.pool.poison ∧ e.banks.mem = d.banks.mem ∧ e.banks.poison = d.banks.poison

/-- With room in the Almanac's input queue, one event of block `b` and code `c` entered it, stamped with the operating
time (R457, R458). -/
def Records (d e : Dev) (b c : Nat) : Prop :=
  d.alm.inq.length < 256 →
    ∃ x : AlmEvent, e.alm.inq = d.alm.inq ++ [x] ∧ x.block = b ∧ x.code = c ∧ x.opNs = d.opNow ∧ x.rep = false

/-! ## Instructions -/

/-- Unit `u` fetches the instruction `x` next: it fetches, its engines' queues are empty, the store word at its program
counter is sound and decodes to `x`, and the word after it lies in the program (R229, R235, R237, R251). -/
def Dev.issues (d : Dev) (u : UnitId) (x : Instr) : Prop :=
  d.runs = true ∧ d.fetches (unitKey u) = true ∧ (d.unit (unitKey u)).queues = [] ∧
    d.store.bad.contains (d.codeKey (unitKey u) (d.unit (unitKey u)).pc) = false ∧
    decodeInstr u (d.codeWord (unitKey u)) = x ∧
    (d.unit (unitKey u)).pc + 1 < d.codeLen (unitKey u)

/-- The device when the instruction has been fetched: FLTINFO would name this index (R237). -/
def Dev.fetched (d : Dev) (k : Nat) : Dev := d.modUnit k fun u => { u with lastPc := u.pc }

/-- The device when the instruction has had the effect `f` and the program counter has moved to the next one. -/
def Dev.advanced (d : Dev) (k : Nat) (f : Dev → Dev) : Dev :=
  (f (d.fetched k)).modUnit k fun u => { u with pc := (d.unit k).pc + 1 }

/-- The device when the instruction has branched to `t`. -/
def Dev.branchTo (d : Dev) (k : Nat) (f : Dev → Dev) (t : Nat) : Dev :=
  (f (d.fetched k)).modUnit k fun u => { u with pc := t }

/-- Whenever unit `u`, one that executes `x`, issues it in a device that `P` holds of, `exec` answers the next state in
which the instruction has had the effect `g` and the program counter has moved on: nothing else has changed. -/
def PerformsIf (u : UnitId) (a : Avail) (x : Instr) (P : Dev → Prop) (g : Dev → Dev) : Prop :=
  ∀ s : State, s.dev.issues u x → a.on (unitKey u) = true → P s.dev →
    exec x s = .next { s with dev := s.dev.advanced (unitKey u) g }

/-- The same for every device. -/
def Performs (u : UnitId) (a : Avail) (x : Instr) (g : Dev → Dev) : Prop := PerformsIf u a x (fun _ => True) g

/-- The program counter of unit `k` moves to the instruction after the one at `pc`, and the unit's engines go on. -/
def Dev.goesOn (d : Dev) (k pc : Nat) : Dev := (d.moveTo k pc (Int.ofNat pc + 1)).drain k

/-- Whenever unit `u`, one that executes `x`, issues it in a device that `P` holds of, `exec` answers the next state in
which the instruction has had the effect `g` and the unit goes on. -/
def TakesEffect (u : UnitId) (a : Avail) (x : Instr) (P : Dev → Prop) (g : Dev → Dev) : Prop :=
  ∀ s : State, s.dev.issues u x → a.on (unitKey u) = true → P s.dev →
    exec x s = .next { s with dev := (g (s.dev.fetched (unitKey u))).goesOn (unitKey u) (s.dev.unit (unitKey u)).pc }

/-- The same for an instruction that branches to `t`. -/
def BranchesIf (u : UnitId) (x : Instr) (P : Dev → Prop) (t : Dev → Nat) (g : Dev → Dev) : Prop :=
  ∀ s : State, s.dev.issues u x → P s.dev → t s.dev < s.dev.codeLen (unitKey u) →
    exec x s = .next { s with dev := s.dev.branchTo (unitKey u) g (t s.dev) }

/-- The bytes of a scratchpad access of unit `k` may be used at once: they lie inside the allotment, no row or region of
them is under test, and no bank of them is in cold frame (R156, R158, R162, R235). -/
def Dev.spadReady (d : Dev) (k a n : Nat) : Prop :=
  d.spadOk k a n = true ∧ d.spadTested k a n = false ∧ d.coldBanks k a n = []

/-! ## Frames -/

/-- A delivered frame passes the checks 1 to 6 of R75 and R385's part of check 7 as it stands: not damaged, in force,
not too old, of an allotment that is in use. -/
def Dev.passes (d : Dev) (port : TPort) (f : Frame) : Prop := d.recv port f = (some f, d.taken f)

/-- What becomes of a frame whose checks answer `r`: it has the effect `k` if they pass, else nothing follows them. -/
def afterChecks (r : Option Frame × Dev) (k : Dev → Frame → Dev) : Dev :=
  match r with
  | (some g, e) => k e g
  | (none, e) => e

/-- A delivered answer passes the checks of R511 as it stands. -/
def Dev.answers (d : Dev) (f : Frame) : Prop := d.recvAnswer f = (some f, d.taken f)

/-- Nothing waits for a tag: no copy, no push to a mirror, no frame of a reduction. -/
def Dev.nothingWaits (d : Dev) : Prop := d.copies = [] ∧ d.mbr.pushes = [] ∧ d.eng.sends = []

/-- No request is in progress, waits or is being combined at the homes, and no walk runs. -/
def Dev.homeIdle (d : Dev) : Prop :=
  d.coh.txns = [] ∧ d.coh.comb = [] ∧ d.coh.waiting = [] ∧ d.coh.walks = []

/-- The one line `ln` that an agent holds: the directory names endpoint `h` for it in STATE `st`, and the home snoops
`h`. -/
def Dev.heldBy (d : Dev) (ln st h : Nat) : Prop :=
  d.coh.dir = [(ln, ⟨st, some h, [], false, 0⟩)] ∧ d.agentOut h = false

/-- No page is in memory, moves or leaves, so no migration work is left. -/
def Dev.noPages (d : Dev) : Prop :=
  d.pool.pmap = [] ∧ d.pool.pages = [] ∧ d.pool.copies = [] ∧ d.pool.jobs = [] ∧ d.pool.leaving = []

/-- No migration work is left and no low-water demotion is due (R139). -/
def Dev.poolQuiet (d : Dev) : Prop :=
  d.pool.jobs = [] ∧ d.pool.leaving = [] ∧ d.pool.lowering = false ∧ d.get Bar.MEM_TIER_CFG_LOW_WATER ≤ d.t1Free

/-! ## Fuses -/

/-- A credential slot after: none becomes any, a slot keeps its key and role, and what is revoked stays revoked. -/
def credKept : Option Cred → Option Cred → Bool
  | none, _ => true
  | some _, none => false
  | some c, some e => c.pk == e.pk && c.role == e.role && (!c.revoked || e.revoked)

/-- Fuses only advance: the lifecycle goes forward (R403), the tamper count, which stops at 65,535, and the minimum SVN
never fall, a programmed credential slot
keeps its key and role, a revoked one stays revoked, and the identity, serial and addresses stay as they are. -/
def Fuses.leadsTo (z y : Fuses) : Prop :=
  z.lifecycle ≤ y.lifecycle ∧ min 65535 z.tamperCount ≤ y.tamperCount ∧ z.minSvn ≤ y.minSvn ∧
    (∀ i, credKept (kvGet? z.creds i) (kvGet? y.creds i) = true) ∧
    y.serial = z.serial ∧ y.macs = z.macs ∧ y.idSeed = z.idSeed

end Sys2Proof.Machine
end

