-- ==== Sys2Proof/Certificates/Slice0/Obligations.lean ====
section
/-! DEFINITION. The statements about the block, for the provers: one proposition each, with the rules of the manual that
it formalises. -/

section StatedOfTheBlock

open Sys2Proof Sys2Proof.Machine

/-- R249, R250, R246: every scalar arithmetic instruction, li and lih, when a unit issues it, writes s[RD] with the result
of its row and with its operands' poison, moves the program counter on, and changes nothing else; a write to s0 is
discarded by `ws` (stated in RegisterFilesReadBack). -/
def Obligations.ScalarArithmeticWritesRd : Prop :=
  ∀ (u : UnitId) (rd ra rb : BitVec 5) (imm : W32) (imm45 : BitVec 45),
    let k := unitKey u
    let bad (d : Dev) : Bool := d.sBad k ra || d.sBad k rb
    let writes (x : Instr) (f : W64 → W64 → W64) : Prop :=
      Performs u .all x fun d => d.ws k rd (f (d.rs k ra) (d.rs k rb + imm.signExtend 64)) (bad d)
    writes (.add u rd ra rb imm) (fun a b => a + b) ∧
    writes (.sub u rd ra rb imm) (fun a b => a - b) ∧
    writes (.mul u rd ra rb imm) (fun a b => a * b) ∧
    writes (.div u rd ra rb imm) (fun a b => BitVec.ofInt 64 (a.toInt.tdiv (if b = 0 then 1 else b.toInt))) ∧
    writes (.and u rd ra rb imm) (fun a b => a &&& b) ∧
    writes (.or u rd ra rb imm) (fun a b => a ||| b) ∧
    writes (.xor u rd ra rb imm) (fun a b => a ^^^ b) ∧
    writes (.sll u rd ra rb imm) (fun a b => a <<< (min 63 b.toNat)) ∧
    writes (.srl u rd ra rb imm) (fun a b => a >>> (min 63 b.toNat)) ∧
    writes (.sra u rd ra rb imm) (fun a b => a.sshiftRight (min 63 b.toNat)) ∧
    writes (.slt u rd ra rb imm) (fun a b => if a.toInt < b.toInt then 1 else 0) ∧
    writes (.sltu u rd ra rb imm) (fun a b => if a.toNat < b.toNat then 1 else 0) ∧
    Performs u .all (.li u rd imm45) (fun d => d.ws k rd (imm45.signExtend 64) false) ∧
    Performs u .all (.lih u rd imm45)
      (fun d => d.ws k rd ((imm45.extractLsb' 0 19) ++ ((d.rs k rd).extractLsb' 0 45)) (d.sBad k rd))

/-- R231, R232, R246: what a write of a scalar, vector, tile or predicate register does: the register reads the value
back with its poison bit, every other register of the four files reads as before, s0 and p0 discard the write, a poisoned
predicate is all-false, and PSTAT.POISON is set when and only when it was set or the value is poisoned. -/
def Obligations.RegisterFilesReadBack : Prop :=
  ∀ (v : UnitSt) (i j : Nat) (x : W64) (y : List W32) (p : BitVec 128) (bad : Bool),
    ((v.ws i x bad).rs j = if j = i ∧ i ≠ 0 then x else v.rs j) ∧
    ((v.ws i x bad).sBad j = if j = i ∧ i ≠ 0 then bad else v.sBad j) ∧
    (v.ws i x bad).rs 0 = 0 ∧
    (v.ws i x bad).v = v.v ∧ (v.ws i x bad).t = v.t ∧ (v.ws i x bad).p = v.p ∧ (v.ws i x bad).a = v.a ∧
    (v.ws i x bad).ch = v.ch ∧ (v.ws i x bad).flt = v.flt ∧ (v.ws i x bad).pc = v.pc ∧
    kvGetD (v.wv i y bad).v j zeroV = (if j = i then y else kvGetD v.v j zeroV) ∧
    (v.wv i y bad).vPoison.contains j = (if j = i then bad else v.vPoison.contains j) ∧
    (v.wv i y bad).s = v.s ∧ (v.wv i y bad).t = v.t ∧ (v.wv i y bad).p = v.p ∧ (v.wv i y bad).a = v.a ∧
    kvGetD (v.wt i y bad).t j zeroT = (if j = i % 8 then y else kvGetD v.t j zeroT) ∧
    (v.wt i y bad).tPoison.contains j = (if j = i % 8 then bad else v.tPoison.contains j) ∧
    (v.wt i y bad).s = v.s ∧ (v.wt i y bad).v = v.v ∧ (v.wt i y bad).p = v.p ∧ (v.wt i y bad).a = v.a ∧
    kvGetD (v.wp i p bad).p j 0 = (if j = i % 8 ∧ i % 8 ≠ 0 then (if bad then 0 else p) else kvGetD v.p j 0) ∧
    (v.wp i p bad).s = v.s ∧ (v.wp i p bad).v = v.v ∧ (v.wp i p bad).t = v.t ∧ (v.wp i p bad).a = v.a ∧
    (v.ws i x bad).pstat.testBit 55 = (v.pstat.testBit 55 || bad) ∧
    (v.wv i y bad).pstat.testBit 55 = (v.pstat.testBit 55 || bad) ∧
    (v.wt i y bad).pstat.testBit 55 = (v.pstat.testBit 55 || bad) ∧
    (v.wp i p bad).pstat.testBit 55 = (v.pstat.testBit 55 || bad) ∧
    (∀ b, b ≠ 55 → (v.ws i x bad).pstat.testBit b = v.pstat.testBit b)

/-- R251: branches, taken and untaken, and nop. A taken branch goes to OFF32 from its own index, jr to s[RA] + OFF32; bl
writes index + 1 to s[RA]; nothing else changes. Choices of the model in it: assumptions 41, 42. -/
def Obligations.BranchesMoveTheProgramCounter : Prop :=
  ∀ (u : UnitId) (ra rb : BitVec 5) (p cond : BitVec 3) (off : W32),
    let k := unitKey u
    let holds (d : Dev) : Bool :=
      let a := d.rs k ra
      let b := d.rs k rb
      if cond = 0 then true else if cond = 1 then a == b else if cond = 2 then a != b
      else if cond = 3 then decide (a.toInt < b.toInt) else if cond = 4 then decide (b.toInt ≤ a.toInt)
      else if cond = 5 then decide (a.toNat < b.toNat) else decide (b.toNat ≤ a.toNat)
    let target (d : Dev) : Nat := (Int.ofNat (d.unit k).pc + off.toInt).toNat
    let inside (d : Dev) : Prop := 0 ≤ Int.ofNat (d.unit k).pc + off.toInt
    BranchesIf u (.bCc u ra rb cond off) (fun d => holds d = true ∧ inside d) target id ∧
    PerformsIf u .all (.bCc u ra rb cond off) (fun d => holds d = false) id ∧
    BranchesIf u (.bpany u p off) (fun d => d.rp k p.toNat ≠ 0 ∧ inside d) target id ∧
    PerformsIf u .all (.bpany u p off) (fun d => d.rp k p.toNat = 0) id ∧
    BranchesIf u (.bl u ra off) inside target (fun d => d.ws k ra (BitVec.ofNat 64 ((d.unit k).pc + 1)) false) ∧
    BranchesIf u (.jr u ra off) (fun d => 0 ≤ (d.rs k ra).toInt + off.toInt)
      (fun d => ((d.rs k ra).toInt + off.toInt).toNat) id ∧
    Performs u .all (.nop u) id

/-- R237, R238, R242, R251: fault, and a word that is no instruction, end the program of a core with PROGRAM_FAULT: the
invocation goes to DRAINING with that final status, FLTINFO holds the fatal record when it held no fatal one, FLT is set,
the engines' queues are empty and the core fetches no more. On a Gardener the program halts.
Choices of the model in it: assumptions 41, 43. -/
def Obligations.FatalFaultEndsTheProgram : Prop :=
  ∀ (u : UnitId) (off : W32) (w : W64) (s : State),
    let k := unitKey u
    let ends (x : Instr) (cause status : Nat) : Prop :=
      s.dev.issues u x → (s.dev.unit k).flt.testBit 111 = false →
      Completes x s fun d =>
        d.fetches k = false ∧ (d.unit k).queues = [] ∧ (d.unit k).pstat.testBit 54 = true ∧
        (d.unit k).pc = (s.dev.unit k).pc ∧ (d.unit k).s = (s.dev.unit k).s ∧
        (d.unit k).flt = fltRecord cause status true 0 (s.dev.unit k).pc 0 ∧
        (k < 256 → (d.unit k).state = 3 ∧ (d.unit k).final = some Code.programFault ∧
          d.get Bar.CLU_STATUS_FAULTS (k / 16) =
            min (s.dev.get Bar.CLU_STATUS_FAULTS (k / 16) + 1)
              (2 ^ (Bar.CLU_STATUS_FAULTS.hi + 1 - Bar.CLU_STATUS_FAULTS.lo) - 1)) ∧
        (256 ≤ k → (d.unit k).halted = true)
    ends (.fault u off) Cause.explicit (off.toNat % 256) ∧ ends (.undefOp u w) Cause.undefOp 0

/-- R239, R252: end, once no engine has instructions queued, makes a core drain with the payload that it names (its
length clamped to 524,288), and halts a Gardener; the payload must lie inside the allotment.
Choices of the model in it: assumptions 41, 42, 43. -/
def Obligations.EndDrainsTheCore : Prop :=
  ∀ (u : UnitId) (ra rb : BitVec 5) (s : State),
    let k := unitKey u
    let a := spadAddr (s.dev.rs k ra)
    let n := min 524288 (s.dev.rs k rb).toNat
    s.dev.issues u (.endProg u ra rb) → (n = 0 ∨ s.dev.spadOk k a n = true) →
    exec (.endProg u ra rb) s = .next { s with dev := (s.dev.fetched k).modUnit k fun v =>
      if k < 256 then { v with state := 3, res := (a, n) } else { v with halted := true } }

/-- R253, R256, R232, R235: scalar loads, stores and bank atomics whose bytes lie inside the allotment, in banks that are
awake: a load zero-extends the bytes into s[RD] with their poison; a store writes the low bytes of s[RB], poisoned when
s[RB] is; an atomic stores the sum or the operand and answers the old value. The address is aligned down to the size. -/
def Obligations.ScalarScratchpadAccess : Prop :=
  ∀ (u : UnitId) (rd ra rb : BitVec 5) (sz : BitVec 2) (imm : W32),
    let k := unitKey u
    let at_ (d : Dev) (n : Nat) : Nat := alignDown (spadAddr (d.rs k ra + imm.signExtend 64)) n
    let n := 2 ^ sz.toNat
    let m := if sz = 3 then 8 else 4
    let ready (c : Nat) (d : Dev) : Prop := d.spadReady k (at_ d c) c
    let atomic (d : Dev) (c : Nat) (swap : Bool) (f : Nat → Nat → Nat) : Dev :=
      let r := d.loadSpad k (at_ d c) c
      (r.2.2.storeSpad k (at_ d c) (toLe c (f (leNat r.1) ((d.rs k rb).toNat % 2 ^ (8 * c))))
        (d.sBad k rb || (!swap && r.2.1))).ws k rd (BitVec.ofNat 64 (leNat r.1)) r.2.1
    PerformsIf u .all (.ld u rd ra sz imm) (ready n) (fun d =>
      (d.loadSpad k (at_ d n) n).2.2.ws k rd (BitVec.ofNat 64 (leNat (d.loadSpad k (at_ d n) n).1))
        (d.loadSpad k (at_ d n) n).2.1) ∧
    PerformsIf u .all (.st u ra rb sz imm) (ready n) (fun d =>
      d.storeSpad k (at_ d n) (toLe n (d.rs k rb).toNat) (d.sBad k rb)) ∧
    PerformsIf u .all (.badd u rd ra rb sz imm) (ready m) (fun d => atomic d m false fun old x => (old + x) % 2 ^ (8 * m)) ∧
    PerformsIf u .all (.bfadd u rd ra rb imm) (ready 4) (fun d => atomic d 4 false fun old x =>
      (Num.fadd (BitVec.ofNat 32 old) (BitVec.ofNat 32 x)).toNat) ∧
    PerformsIf u .all (.bswap u rd ra rb sz imm) (ready m) (fun d => atomic d m true fun _ x => x)

/-- R254, R255, R232: vector and tile scratchpad instructions whose bytes lie inside the allotment, in banks that are
awake: loads fill the register from the bytes, widening BF16, with their poison and zeros above; stores write its low
bytes, narrowing to BF16, poisoned when the register is; tzero clears a tile and its poison bit. -/
def Obligations.VectorAndTileScratchpadAccess : Prop :=
  ∀ (u : UnitId) (eng : BitVec 2) (vd va : BitVec 5) (n : BitVec 16) (td : BitVec 3),
    let k := unitKey u
    let m := if n = 0 ∨ 512 ≤ n.toNat then 512 else max 4 (n.toNat / 4 * 4)
    let at_ (d : Dev) (c : Nat) : Nat := alignDown (spadAddr (d.rs k va)) c
    let ready (al c : Nat) (d : Dev) : Prop := d.spadReady k (at_ d al) c
    let loads (d : Dev) (al c : Nat) : List Byte × Bool × Dev := d.loadSpad k (at_ d al) c
    PerformsIf u .cores (.vld u eng vd va n) (ready 64 m) (fun d =>
      (loads d 64 m).2.2.wv k vd (wordsOf (loads d 64 m).1 ++ List.replicate (128 - m / 4) 0) (loads d 64 m).2.1) ∧
    PerformsIf u .cores (.vst u eng vd va n) (ready 64 m) (fun d =>
      d.storeSpad k (at_ d 64) ((bytesOf (d.rv k vd)).take m) (d.vBad k vd)) ∧
    PerformsIf u .cores (.vldH u eng vd va) (ready 64 256) (fun d =>
      (loads d 64 256).2.2.wv k vd (ofHalves (loads d 64 256).1) (loads d 64 256).2.1) ∧
    PerformsIf u .cores (.vstH u eng vd va) (ready 64 256) (fun d =>
      d.storeSpad k (at_ d 64) (toHalves (d.rv k vd)) (d.vBad k vd)) ∧
    PerformsIf u .cores (.tld u td va) (fun d => ready 256 16384 d ∧ d.slotLoading k (at_ d 256) 16384 = false) (fun d =>
      (loads d 256 16384).2.2.wt k td.toNat (wordsOf (loads d 256 16384).1) (loads d 256 16384).2.1) ∧
    PerformsIf u .cores (.tst u td va) (ready 256 16384) (fun d =>
      d.storeSpad k (at_ d 256) (bytesOf (d.rt k td.toNat)) (d.tBad k td.toNat)) ∧
    PerformsIf u .cores (.tstH u td va) (ready 256 8192) (fun d =>
      d.storeSpad k (at_ d 256) (toHalves (d.rt k td.toNat)) (d.tBad k td.toNat)) ∧
    Performs u .cores (.tzero u td) (fun d => d.wt k td.toNat (List.replicate 4096 0) false)

/-- The frame of every scratchpad store (R146, R235): `storeSpad`, which st, vst, tst and the bank atomics use, leaves
every scratchpad byte outside the stored range, the poison of every word outside it, every row that has failed, the pool,
every register of every unit and every BAR0 register as they were; inside the range the bytes read as stored. A Gardener's
store goes to its own data memory and leaves every scratchpad byte alone. Choices of the model in it: assumption 7. -/
def Obligations.ScratchpadStoreFrame : Prop :=
  ∀ (d : Dev) (k a x w : Nat) (bs : List Byte) (bad : Bool),
    let e := d.storeSpad k a bs bad
    let p := spadPlace k a
    e.pool = d.pool ∧ e.regs = d.regs ∧
    (k < 256 →
      e.units = d.units ∧
      ((x < p ∨ p + bs.length ≤ x) → e.spadByte x = d.spadByte x) ∧
      ((8 * w + 8 ≤ p ∨ p + bs.length ≤ 8 * w) → e.banks.poison.contains w = d.banks.poison.contains w) ∧
      (d.rowFailed x = true → memRead e.banks.mem x = memRead d.banks.mem x) ∧
      (∀ i, i < bs.length → d.rowFailed (p + i) = false → e.spadByte (p + i) = bs.getD i 0)) ∧
    (256 ≤ k → e.banks = d.banks ∧ (e.unit k).s = (d.unit k).s ∧
      (∀ i, i < bs.length → kvGetD (e.unit k).mem (a + i) 0 = bs.getD i 0) ∧
      ((x < a ∨ a + bs.length ≤ x) → kvGetD (e.unit k).mem x 0 = kvGetD (d.unit k).mem x 0))

/-- R156, R158, R162, R235: a scratchpad access of any instruction outside the allotment faults with SPAD_ACCESS, its engine
and its address and performs nothing; a scalar one that meets a bank in cold frame wakes the bank and waits: the program
counter stays and nothing is stored; one that meets a row or a region under test waits.
Choices of the model in it: assumption 30. -/
def Obligations.ScratchpadAccessFaultsOrWaits : Prop :=
  ∀ (u : UnitId) (rd ra rb : BitVec 5) (sz eng : BitVec 2) (imm : W32) (n : BitVec 16) (td : BitVec 3) (s : State),
    let k := unitKey u
    let size := 2 ^ sz.toNat
    let m := if sz = 3 then 8 else 4
    let v := if n = 0 ∨ 512 ≤ n.toNat then 512 else max 4 (n.toNat / 4 * 4)
    let vx := if eng.toNat < 2 then 2 else eng.toNat
    let scalar (c : Nat) : Nat := alignDown (spadAddr (s.dev.rs k ra + imm.signExtend 64)) c
    let vector (c : Nat) : Nat := alignDown (spadAddr (s.dev.rs k ra)) c
    let cold := s.dev.coldBanks k (scalar size) size
    let faults (x : Instr) (engine a c : Nat) : Prop :=
      s.dev.issues u x → s.dev.spadOk k a c = false → (s.dev.unit k).flt.testBit 111 = false →
        Completes x s fun d =>
          d.banks = s.dev.banks ∧ d.pool = s.dev.pool ∧ (d.unit k).s = (s.dev.unit k).s ∧
            (d.unit k).v = (s.dev.unit k).v ∧ (d.unit k).t = (s.dev.unit k).t ∧ d.fetches k = false ∧
            (d.unit k).flt = fltRecord Cause.spadAccess 0 true engine (s.dev.unit k).pc a
    let waits (x : Instr) : Prop :=
      s.dev.issues u x → s.dev.spadOk k (scalar size) size = true → s.dev.spadTested k (scalar size) size = false →
        cold ≠ [] → Completes x s fun d =>
          d.banks.mem = s.dev.banks.mem ∧ (d.unit k).s = (s.dev.unit k).s ∧ (d.unit k).pc = (s.dev.unit k).pc ∧
            d.fetches k = true ∧ ∀ b ∈ cold, (d.bank b).waking = true
    let tests (x : Instr) : Prop :=
      s.dev.issues u x → s.dev.spadOk k (scalar size) size = true → s.dev.spadTested k (scalar size) size = true →
        exec x s = .next { s with dev := s.dev.fetched k }
    faults (.ld u rd ra sz imm) 0 (scalar size) size ∧ faults (.st u ra rb sz imm) 0 (scalar size) size ∧
    faults (.badd u rd ra rb sz imm) 0 (scalar m) m ∧ faults (.bfadd u rd ra rb imm) 0 (scalar 4) 4 ∧
    faults (.bswap u rd ra rb sz imm) 0 (scalar m) m ∧
    (k < 256 →
      faults (.vld u eng rd ra n) vx (vector 64) v ∧ faults (.vst u eng rd ra n) vx (vector 64) v ∧
      faults (.vldH u eng rd ra) vx (vector 64) 256 ∧ faults (.vstH u eng rd ra) vx (vector 64) 256 ∧
      faults (.tld u td ra) 1 (vector 256) 16384 ∧ faults (.tst u td ra) 1 (vector 256) 16384 ∧
      faults (.tstH u td ra) 1 (vector 256) 8192) ∧
    waits (.ld u rd ra sz imm) ∧ waits (.st u ra rb sz imm) ∧
    tests (.ld u rd ra sz imm) ∧ tests (.st u ra rb sz imm)

/-- R257: vector instructions. `mergeLanes act new old` takes the new value in the active lanes and the old one in the
others; an instruction marked P writes v[VD] so, vsel, vins and vtrow write every lane, vmov.s writes s[VD], and vcmp and
the predicate instructions write p[VD]. Nothing else changes. -/
def Obligations.VectorInstructionsWriteActiveLanes : Prop :=
  ∀ (u : UnitId) (eng : BitVec 2) (vd va vb vc : BitVec 5) (pred : BitVec 3) (pneg : Bool) (fn : BitVec 6)
      (lane row : BitVec 16),
    let k := unitKey u
    let act (d : Dev) : BitVec 128 := if pneg then ~~~ d.rp k pred.toNat else d.rp k pred.toNat
    let wp (d : Dev) (x : List W32) (bad : Bool) : Dev :=
      d.wv k vd (mergeLanes (act d) x (d.rv k vd)) (bad || (act d != BitVec.allOnes 128 && d.vBad k vd))
    let two (x : Instr) (f : W32 → W32 → W32) : Prop :=
      Performs u .cores x fun d => wp d (((d.rv k va).zip (d.rv k vb)).map fun p => f p.1 p.2) (d.vBad k va || d.vBad k vb)
    two (.vadd u eng vd va vb pred pneg) Num.fadd ∧ two (.vsub u eng vd va vb pred pneg) Num.fsub ∧
    two (.vmul u eng vd va vb pred pneg) Num.fmul ∧ two (.vmax u eng vd va vb pred pneg) Num.fmax ∧
    two (.vmin u eng vd va vb pred pneg) Num.fmin ∧
    Performs u .cores (.vfma u eng vd va vb vc pred pneg) (fun d =>
      wp d ((((d.rv k va).zip (d.rv k vb)).zip (d.rv k vc)).map fun p => Num.ffma p.1.1 p.1.2 p.2)
        (d.vBad k va || d.vBad k vb || d.vBad k vc)) ∧
    Performs u .cores (.vbcast u eng vd va pred pneg) (fun d =>
      wp d (List.replicate 128 ((d.rs k va).truncate 32)) (d.sBad k va)) ∧
    Performs u .cores (.vsel u eng vd va vb pred pneg) (fun d =>
      d.wv k vd (mergeLanes (act d) (d.rv k va) (d.rv k vb)) (d.vBad k va || d.vBad k vb)) ∧
    Performs u .cores (.vcmpCc u eng vd va vb pred pneg fn) (fun d =>
      d.wp k vd.toNat (predOf (((d.rv k va).zip (d.rv k vb)).map fun p => Num.fcmp (min 5 fn.toNat) p.1 p.2) &&& act d)
        (d.vBad k va || d.vBad k vb)) ∧
    Performs u .cores (.vmovS u eng vd va lane) (fun d =>
      d.ws k vd (((d.rv k va).getD (min 127 lane.toNat) 0).zeroExtend 64) (d.vBad k va)) ∧
    Performs u .cores (.vins u eng vd va lane) (fun d =>
      d.wv k vd ((d.rv k vd).set (min 127 lane.toNat) ((d.rs k va).truncate 32)) (d.vBad k vd || d.sBad k va)) ∧
    Performs u .cores (.vtrow u eng vd va vb row) (fun d =>
      let r := min 63 row.toNat
      d.wv k vd (((d.rt k va.toNat).drop (64 * r)).take 64 ++ ((d.rt k vb.toNat).drop (64 * r)).take 64)
        (d.tBad k va.toNat || d.tBad k vb.toNat)) ∧
    Performs u .cores (.pand u eng vd va vb) (fun d => d.wp k vd.toNat (d.rp k va.toNat &&& d.rp k vb.toNat) false) ∧
    Performs u .cores (.por u eng vd va vb) (fun d => d.wp k vd.toNat (d.rp k va.toNat ||| d.rp k vb.toNat) false) ∧
    Performs u .cores (.pnot u eng vd va) (fun d => d.wp k vd.toNat (~~~ d.rp k va.toNat) false)

/-- What `mergeLanes` does, lane by lane (R257): of two vectors of 128 lanes it makes one of 128 lanes, whose lane i is
the new one where bit i of the active lanes is 1 and the old one where it is 0. -/
def Obligations.InactiveLanesKeepTheirValue : Prop :=
  ∀ (act : BitVec 128) (new old : List W32) (i : Nat), new.length = 128 → old.length = 128 → i < 128 →
    (mergeLanes act new old).length = 128 ∧
    (mergeLanes act new old).getD i 0 = if act.getLsbD i then new.getD i 0 else old.getD i 0

/-- R258: vector special instructions. A reduction runs its fixed tree over all 128 lanes, an inactive lane entering as
−∞ for vredmax and as +0 for vredsum and vredamax, and writes the result to every lane.
Choices of the model in it: assumption 45. -/
def Obligations.ReductionsFillEveryLane : Prop :=
  ∀ (u : UnitId) (eng : BitVec 2) (vd va : BitVec 5) (pred : BitVec 3) (pneg : Bool),
    let k := unitKey u
    let act (d : Dev) : BitVec 128 := if pneg then ~~~ d.rp k pred.toNat else d.rp k pred.toNat
    let lanewise (x : Instr) (f : W32 → W32) : Prop := Performs u .cores x fun d =>
      d.wv k vd (mergeLanes (act d) ((d.rv k va).map f) (d.rv k vd))
        (d.vBad k va || (act d != BitVec.allOnes 128 && d.vBad k vd))
    let reduces (x : Instr) (g : W32 → W32) (inactive : W32) (tree : List W32 → W32) : Prop := Performs u .cores x fun d =>
      d.wv k vd (List.replicate 128 (tree (mergeLanes (act d) ((d.rv k va).map g) (List.replicate 128 inactive))))
        (d.vBad k va)
    lanewise (.vexp u eng vd va pred pneg) Num.fexp ∧ lanewise (.vrcp u eng vd va pred pneg) Num.frcp ∧
    reduces (.vredmax u eng vd va pred pneg) (fun x => x) 0xFF800000 Num.treeMax ∧
    reduces (.vredsum u eng vd va pred pneg) (fun x => x) 0 Num.treeSum ∧
    reduces (.vredamax u eng vd va pred pneg) (fun x => x &&& 0x7FFFFFFF) 0 Num.treeMax

/-- R260, R261, R262: tile scaling and addition, quantise and dequantise, and the attention helpers. -/
def Obligations.TileQuantiseAndAttention : Prop :=
  ∀ (u : UnitId) (eng : BitVec 2) (vd va sb sc : BitVec 5) (td : BitVec 3) (pred : BitVec 3) (pneg : Bool) (fn : BitVec 6),
    let k := unitKey u
    let act (d : Dev) : BitVec 128 := if pneg then ~~~ d.rp k pred.toNat else d.rp k pred.toNat
    let f := min 6 fn.toNat
    let wp (d : Dev) (x : List W32) (bad : Bool) : Dev :=
      d.wv k vd (mergeLanes (act d) x (d.rv k vd)) (bad || (act d != BitVec.allOnes 128 && d.vBad k vd))
    Performs u .cores (.tscale u td va) (fun d =>
      d.wt k td.toNat ((d.rt k td.toNat).map fun x => Num.fmul x ((d.rs k va).truncate 32))
        (d.tBad k td.toNat || d.sBad k va)) ∧
    Performs u .cores (.tadd u td va) (fun d =>
      d.wt k td.toNat (((d.rt k td.toNat).zip (d.rt k va.toNat)).map fun p => Num.fadd p.1 p.2)
        (d.tBad k td.toNat || d.tBad k va.toNat)) ∧
    Performs u .cores (.vq u eng vd va fn) (fun d =>
      (d.wv k vd (packedLanes (Num.quantRow f (d.rv k va)).1) (d.vBad k va)).countQuant k (Num.quantRow f (d.rv k va)).2) ∧
    Performs u .cores (.vdq u eng vd va fn) (fun d =>
      d.wv k vd (Num.dequantRow f 128 (packedByte (d.rv k va))) (d.vBad k va)) ∧
    Performs u .cores (.vqerr u eng vd va fn) (fun d =>
      let y := Num.dequantRow f 128 (packedByte (packedLanes (Num.quantRow f (d.rv k va)).1))
      d.wv k vd (((d.rv k va).zip y).map fun p =>
        let e := Num.fsub p.1 p.2
        if e = Num.canon then e else e &&& 0x7FFFFFFF) (d.vBad k va)) ∧
    PerformsIf u .cores (.abias u eng vd va sb sc pred pneg)
      (fun d =>
        let a := alignDown (spadAddr (d.rs k sc)) 16
        d.spadReady k a 16 ∧ d.spadReady k a (16 + 4 * (biasHeader (d.spadAt k a)).2.2.2.2))
      (fun d =>
        let a := alignDown (spadAddr (d.rs k sc)) 16
        let r := d.loadSpad k a (16 + 4 * (biasHeader (d.spadAt k a)).2.2.2.2)
        let pos := (d.rs k sb).toNat
        let out := (d.rv k va).zipIdx.map fun e => biasLane (d.spadAt k a) (pos / 2 ^ 32) (pos % 2 ^ 32) e.2 e.1
        r.2.2.wv k vd (mergeLanes (act d) out (r.2.2.rv k vd))
          (d.vBad k va || d.sBad k sb || r.2.1 || (act d != BitVec.allOnes 128 && r.2.2.vBad k vd))) ∧
    Performs u .cores (.astat u eng vd va sb pred pneg) (fun d =>
      let r := astatOp (act d) (d.rv k va) (d.rv k sb)
      let bad := d.vBad k va || d.vBad k sb
      (d.wv k vd r.1 bad).wv k sb (r.2.take 3 ++ ((d.wv k vd r.1 bad).rv k sb).drop 3) bad) ∧
    Performs u .cores (.aprune u eng vd va sb pred pneg) (fun d =>
      let g : W32 := (d.rs k sb).truncate 32
      wp d (((d.rv k vd).zip (d.rv k va)).map fun p => Num.fadd p.1 (Num.fmul p.2 g))
        (d.vBad k va || d.vBad k vd || d.sBad k sb))

/-- R259: mma. K is 32 × (KBLK + 1), M is s[SC] clamped to 1-64, MODE is clamped to 5; the first M rows of t[TD] take the
product, added to them when ACC is 1, and rows M to 63 stay as they are. B lies in scratchpad unless XB is 1 and MODE is 0;
then it comes from the expander stream: K is a multiple of 64, at least 64 and at most 64 times the blocks left, and B reads
as zeros with no block left. The blocks are those that `takeBlocks` answers (stated in ExpanderStreamFeedsTheMx); a discarded
one adds nothing and poisons the tile. Choices of the model in it: assumptions 45, 46. -/
def Obligations.MmaMultipliesTiles : Prop :=
  ∀ (u : UnitId) (td : BitVec 3) (sa sb sc : BitVec 5) (mode : BitVec 4) (kblk : BitVec 6) (acc xb trb : Bool),
    let k := unitKey u
    let kk := 32 * (kblk.toNat + 1)
    let f := modeFormats mode
    let m (d : Dev) : Nat := clampTo 1 64 (d.rs k sc).toNat
    let a (d : Dev) : Nat := spadAddr (d.rs k sa)
    let b (d : Dev) : Nat := spadAddr (d.rs k sb)
    let ra := Num.rowBytes f.1 kk
    let rb := if trb then Num.rowBytes f.2 64 else Num.rowBytes f.2 kk
    let nb := (if trb then kk else 64) * rb
    let x : Instr := .mma u td sa sb sc mode kblk acc xb trb
    let k0 := max 64 (kk / 64 * 64)
    let left (d : Dev) : Nat := (d.stream k).left + (d.stream k).bufs.length
    let ks (d : Dev) : Nat := if left d = 0 then k0 else min k0 (64 * left d)
    let ready (d : Dev) (c : Nat) : Prop := d.spadReady k (a d) (2 * m d * c) ∧ d.slotLoading k (a d) (2 * m d * c) = false
    let streamA (d : Dev) (c : Nat) : Nat → Nat → Num.Fp := fun r y => Num.rowElem 7 c (d.spadAt k (a d + 2 * r * c)) y
    let operandBad (d : Dev) (c : Nat) : Bool :=
      (d.loadSpad k (a d) (2 * m d * c)).2.1 || ((acc || m d != 64) && d.tBad k td.toNat)
    ((xb && mode == 0) = false →
      PerformsIf u .cores x
        (fun d => d.spadReady k (a d) (m d * ra) ∧ d.spadReady k (b d) nb ∧
          d.slotLoading k (a d) (m d * ra) = false ∧ d.slotLoading k (b d) nb = false)
        (fun d =>
          let elemA := fun r y => Num.rowElem f.1 kk (d.spadAt k (a d + r * ra)) y
          let elemB := fun y c =>
            if trb then Num.rowElem f.2 64 (d.spadAt k (b d + y * rb)) c
            else Num.rowElem f.2 kk (d.spadAt k (b d + c * rb)) y
          (((d.loadSpad k (a d) (m d * ra)).2.2).loadSpad k (b d) nb).2.2.wt k td.toNat
            (mmaTile (d.rt k td.toNat) (m d) kk (if f.2 = 5 then 16 else 32) acc (fun _ => false) elemA elemB)
            ((d.loadSpad k (a d) (m d * ra)).2.1 || (d.loadSpad k (b d) nb).2.1 ||
              ((acc || m d != 64) && d.tBad k td.toNat)))) ∧
    ((xb && mode == 0) = true →
      PerformsIf u .cores x (fun d => ready d k0 ∧ left d = 0)
        (fun d => (d.loadSpad k (a d) (2 * m d * k0)).2.2.wt k td.toNat
          (mmaTile (d.rt k td.toNat) (m d) k0 32 acc (fun _ => false) (streamA d k0) fun _ _ => Num.Fp.fin false 0 0)
          (operandBad d k0)) ∧
      (∀ (s : State) (bs : List (Option (List Byte))) (e : Dev),
        let d := s.dev.fetched k
        let n := ks d / 64
        let block (i : Nat) : Option (List Byte) := bs.getD i none
        let tile := mmaTile (d.rt k td.toNat) (m d) (ks d) 32 acc (fun g => (block (g / 2)).isNone) (streamA d (ks d))
          fun y c => match block (y / 64) with
            | some raw => Num.ofW (Num.ofBf16 (leNat ((raw.drop (128 * (y % 64) + 2 * c)).take 2)))
            | none => Num.Fp.fin false 0 0
        let bad := (d.loadSpad k (a d) (2 * m d * ks d)).2.1 || bs.any Option.isNone ||
          ((acc || m d != 64) && d.tBad k td.toNat)
        s.dev.issues u x → k < 256 → left d ≠ 0 → ready d (ks d) →
        d.blocksHeld k (n - (d.stream k).bufs.length) (d.stream k).next = false → d.takeBlocks k n [] = .inl (bs, e) →
        let w : UnitSt := { e.unit k with
          t := kvPut (e.unit k).t (td.toNat % 8) tile
          tPoison := if bad then setIns (td.toNat % 8) (e.unit k).tPoison else setDel (td.toNat % 8) (e.unit k).tPoison
          pstat := if operandBad d (ks d) then setBit (e.unit k).pstat 55 else (e.unit k).pstat }
        exec x s = .next { s with dev := ((e.loadSpad k (a d) (2 * m d * ks d)).2.2.setUnit k w).goesOn k (d.unit k).pc })) ∧
    (∀ (old : List W32) (mm g : Nat) (skip : Nat → Bool) (p q : Nat → Nat → Num.Fp) (i : Nat), i < 4096 → 64 * mm ≤ i →
      (mmaTile old mm kk g acc skip p q).getD i 0 = old.getD i 0)

/-- R259, R272, R349, R350: xcfg sets the stream, with its block count clamped, xstat reads the blocks consumed and left. The MX
takes its blocks from the two buffers first and decodes one itself when they are empty; a block outside the allotment answers its
address. An mma whose blocks all lie decoded in the buffers takes them, BLOCKS consumed goes up by their number, and a discarded
one poisons the tile and adds nothing. Choices of the model in it: assumption 46. -/
def Obligations.ExpanderStreamFeedsTheMx : Prop :=
  ∀ (u : UnitId) (td : BitVec 3) (sa sb sc : BitVec 5) (kblk : BitVec 6) (acc trb : Bool),
    let k := unitKey u
    let m (d : Dev) : Nat := clampTo 1 64 (d.rs k sc).toNat
    let a (d : Dev) : Nat := spadAddr (d.rs k sa)
    let left (d : Dev) : Nat := (d.stream k).left + (d.stream k).bufs.length
    let ks (d : Dev) : Nat := min (max 64 (32 * (kblk.toNat + 1) / 64 * 64)) (64 * left d)
    let ready (d : Dev) : Prop :=
      d.spadReady k (a d) (2 * m d * ks d) ∧ d.slotLoading k (a d) (2 * m d * ks d) = false
    (∀ s : State, s.dev.issues u (.mma u td sa sb sc 0 kblk acc true trb) → k < 256 → ready s.dev →
      ks s.dev / 64 ≤ (s.dev.stream k).bufs.length → left s.dev ≠ 0 →
      Completes (.mma u td sa sb sc 0 kblk acc true trb) s fun d =>
        let n := ks s.dev / 64
        let blocks := (s.dev.stream k).bufs.take n
        d.stream k = { s.dev.stream k with
          bufs := (s.dev.stream k).bufs.drop n, consumed := (s.dev.stream k).consumed + n } ∧
        (d.unit k).pc = (s.dev.unit k).pc + 1 ∧ (d.unit k).s = (s.dev.unit k).s ∧
        (blocks.contains none = true → d.tBad k td.toNat = true) ∧
        ((∀ b ∈ blocks, b = none) → acc = true →
          ∀ i, i < 4096 → laneAt (d.rt k td.toNat) i = laneAt (s.dev.rt k td.toNat) i)) ∧
    (∀ (d : Dev) (n : Nat), n ≤ (d.stream k).bufs.length → 0 < n →
      d.takeBlocks k n [] = .inl ((d.stream k).bufs.take n, d.setStream k { d.stream k with
        bufs := (d.stream k).bufs.drop n, consumed := (d.stream k).consumed + n })) ∧
    (∀ (d : Dev) (n : Nat), (d.stream k).bufs = [] → (d.decodeNext k).stream k ≠ d.stream k →
      d.takeBlocks k (n + 1) [] = (d.decodeNext k).takeBlocks k (n + 1) []) ∧
    (∀ (d : Dev) (n : Nat), (d.stream k).bufs = [] → (d.decodeNext k).stream k = d.stream k →
      d.takeBlocks k (n + 1) [] = .inr (d.stream k).next) ∧
    Performs u .cores (.xcfg u sa sb) (fun d => d.setStream k
      { next := spadAddr (d.rs k sa) / 16 * 16, left := clampTo 1 65535 (d.rs k sb).toNat, consumed := 0, bufs := [] }) ∧
    Performs u .cores (.xstat u sa) (fun d => d.ws k sa
      (BitVec.ofNat 64 ((d.stream k).consumed * 2 ^ 32 + ((d.stream k).left + (d.stream k).bufs.length))) false)

/-- R349, R351, R352: a block is decoded ahead of the MX into one of two buffers: the stream moves past it by its size, a
sound block counts as coded or raw, and one that fails its checks leaves an empty buffer and its status in an XSTAT that was
0; a poisoned one leaves an empty buffer and PSTAT.POISON. Nothing happens while both buffers are full, no block is left, the
block lies outside the allotment or its bytes are not ready to be read. Choices of the model in it: assumption 46. -/
def Obligations.BlocksDecodeAheadOfTheMx : Prop :=
  ∀ (core : Nat) (s : State),
    let d := s.dev
    let x := d.stream core
    let n := d.blockSize core x.next
    let sound := d.coldBanks core x.next n = [] ∧ d.banks.flaws = []
    s.isRunning → core < 256 →
    (2 ≤ x.bufs.length ∨ x.left = 0 ∨ d.spadOk core x.next 16 = false ∨ d.spadOk core x.next n = false ∨
        d.blocksHeld core 1 x.next = true →
      exec (.expanderBlockDecoded core) s = .next s) ∧
    (x.bufs.length < 2 → x.left ≠ 0 → d.spadOk core x.next 16 = true → d.spadOk core x.next n = true →
      d.blocksHeld core 1 x.next = false → sound → d.spadPoisoned (spadPlace core x.next) n = true →
      Completes (.expanderBlockDecoded core) s fun e =>
        e.stream core = { x with next := x.next + n, left := x.left - 1, bufs := x.bufs ++ [none] } ∧
        (e.unit core).pstat.testBit 55 = true ∧ e.pool = d.pool ∧ e.banks = d.banks) ∧
    (x.bufs.length < 2 → x.left ≠ 0 → d.spadOk core x.next 16 = true → d.spadOk core x.next n = true →
      d.blocksHeld core 1 x.next = false → sound → d.spadPoisoned (spadPlace core x.next) n = false →
      Completes (.expanderBlockDecoded core) s fun e =>
        (∀ raw, Exc16.decode (d.spadAt core x.next) = .ok raw →
          e.stream core = { x with next := x.next + n, left := x.left - 1, bufs := x.bufs ++ [some raw] } ∧
          e.units = d.units) ∧
        (∀ st, Exc16.decode (d.spadAt core x.next) = .fail st →
          e.stream core = { x with next := x.next + n, left := x.left - 1, bufs := x.bufs ++ [none] } ∧
          (slice (d.unit core).pstat 63 56 = 0 → (e.unit core).pstat = splice (d.unit core).pstat 63 56 st) ∧
          (slice (d.unit core).pstat 63 56 ≠ 0 → (e.unit core).pstat = (d.unit core).pstat)) ∧
        e.pool = d.pool ∧ e.banks = d.banks)

/-- R233, R234, R267, R268: token channels and arrival counters. A put of 1-255 tokens adds them when the count stays at
most 255, a take takes them when they are there and no take of another engine comes first, and otherwise the instruction
waits: the program counter moves on only past an engine's queue. wait ends with OK once the counter has reached its goal and with PUSHED when CFAIL is set; aset
writes the counter, clamped, and clears CFAIL; aget reads it. -/
def Obligations.TokensAndCounters : Prop :=
  ∀ (u : UnitId) (eng : BitVec 2) (ch rd rb : BitVec 5) (imm : W32),
    let k := unitKey u
    let b (d : Dev) : Nat := (d.rs k rb + imm.signExtend 64).toNat
    let n (d : Dev) : Nat := clampTo 1 255 (b d)
    let goal (d : Dev) : Nat := min (2 ^ 48 - 1) (b d)
    let failed (d : Dev) : Bool := (d.unit k).pstat.testBit (32 + ch.toNat % 16)
    let count (d : Dev) : Nat := kvGetD (d.unit k).ch (ch.toNat % 16) 0
    let arrived (d : Dev) : Nat := kvGetD (d.unit k).a (ch.toNat % 16) 0
    let setCh (d : Dev) (x : Nat) : Dev := d.modUnit k fun v => { v with ch := kvPut v.ch (ch.toNat % 16) x }
    let first (d : Dev) : Prop := (d.unit k).outranked (ch.toNat % 16) (tokEng u eng) (count d) = false
    let waits (x : Instr) (P : Dev → Prop) (g : Dev → Dev) : Prop := ∀ s : State, s.dev.issues u x → P s.dev →
      (tokEng u eng = 0 → exec x s = .next { s with dev := g (s.dev.fetched k) }) ∧
      (tokEng u eng ≠ 0 → Completes x s fun e => (e.unit k).pc = (s.dev.unit k).pc + 1 ∧
        (e.unit k).queues = [(tokEng u eng, [(0, (s.dev.unit k).pc, x)])])
    PerformsIf u .all (.put u eng ch rb imm) (fun d => count d + n d ≤ 255) (fun d => setCh d (count d + n d)) ∧
    PerformsIf u .all (.take u eng ch rb imm) (fun d => n d ≤ count d ∧ first d) (fun d =>
      (setCh d (count d - n d)).modUnit k fun v => v.takeEnds (ch.toNat % 16) (tokEng u eng)) ∧
    waits (.put u eng ch rb imm) (fun d => 255 < count d + n d) id ∧
    waits (.take u eng ch rb imm) (fun d => count d < n d ∨ ¬ first d)
      (fun d => d.modUnit k fun v => v.takeWaits (ch.toNat % 16) (tokEng u eng) (n d)) ∧
    PerformsIf u .all (.wait u eng rd ch rb imm) (fun d => failed d = true)
      (fun d => d.ws k rd (BitVec.ofNat 64 Code.pushed) (d.sBad k rb)) ∧
    PerformsIf u .all (.wait u eng rd ch rb imm) (fun d => failed d = false ∧ goal d ≤ arrived d)
      (fun d => d.ws k rd 0 (d.sBad k rb)) ∧
    waits (.wait u eng rd ch rb imm) (fun d => failed d = false ∧ arrived d < goal d) id ∧
    Performs u .all (.aset u ch rb imm) (fun d => d.modUnit k fun v => { v with
      a := kvPut v.a (ch.toNat % 16) (goal d), pstat := clearBit v.pstat (32 + ch.toNat % 16) }) ∧
    Performs u .all (.aget u rd ch) (fun d => d.ws k rd (BitVec.ofNat 64 (arrived d)) false)

/-- R237, R242, R273: special registers: rdsctx reads a word of SCTX with its number clamped to 7, of which a Gardener
has only GARDENER; rdpstat reads PSTAT; wrpstat clears what is written with 1 of POISON and CFAIL and stores only 0 into
XSTAT; rdflt reads FLTINFO into a pair and clears it with PSTAT.FLT; rdtime reads the time base; rdwrate the wave rate. -/
def Obligations.SpecialRegistersReadAndWrite : Prop :=
  ∀ (u : UnitId) (rd rb : BitVec 5) (imm : W32),
    let k := unitKey u
    let b (d : Dev) : Nat := (d.rs k rb + imm.signExtend 64).toNat
    let pair : BitVec 5 := if rd = 31 then 30 else rd
    Performs u .all (.rdsctx u rd rb imm) (fun d =>
      let n := min 7 (b d)
      d.ws k rd (BitVec.ofNat 64 (if k < 256 then (d.unit k).sctx.getD n 0 else if n = 1 then 1 else 0)) (d.sBad k rb)) ∧
    Performs u .all (.rdpstat u rd) (fun d => d.ws k rd (BitVec.ofNat 64 (d.unit k).pstat) false) ∧
    Performs u .all (.wrpstat u rb imm) (fun d =>
      d.modUnit k fun v => { v with pstat := pstatWrite v.pstat (b d) }) ∧
    Performs u .all (.rdflt u rd) (fun d =>
      ((d.ws k pair (BitVec.ofNat 64 ((d.unit k).flt / 2 ^ 64)) false).ws k (pair + 1)
        (BitVec.ofNat 64 (d.unit k).flt) false).modUnit k fun v => { v with flt := 0, pstat := clearBit v.pstat 54 }) ∧
    Performs u .all (.rdtime u rd) (fun d =>
      d.ws k rd (BitVec.ofNat 64 (if unitDie k = 0 then d.now else d.tim.die1)) false) ∧
    Performs u .all (.rdwrate u rd) (fun d => d.ws k rd
      (BitVec.ofNat 64 (d.get Bar.TIM_WRATE_PKG_SEQ % 65536 * 2 ^ 32 +
        (if k < 256 then d.get Bar.TIM_WRATE_CLU_RATE (k / 16) else d.get Bar.TIM_WRATE_PKG_MIN) % 65536)) false) ∧
    (∀ (p x i : Nat), (pstatWrite p x).testBit i =
      if 56 ≤ i ∧ i < 64 then p.testBit i && decide (slice x 63 56 ≠ 0)
      else if i = 55 ∨ (32 ≤ i ∧ i < 48) then p.testBit i && !x.testBit i
      else p.testBit i)

/-- R86, R263: a copy instruction whose ranges are allowed, and whose pool range lies in one 4 KiB piece that this package
homes, enters the copy engine as one copy that names the issuing invocation, its counter and its ranges; it goes through
the stack network from then on (LocalCopyArrivalLands). A pull from another package leaves as one READ with FLAGS.COPY. Whatever
the ranges and wherever they lie, the copy is split at each 4 KiB of its pool addresses, the engine takes it and starts what it
can, and the unit goes on; a cpout with FN bit 0 pushes to the multicast group of its immediate. Choices of the model in it: assumptions 31, 32. -/
def Obligations.CopyInstructionsEnterTheEngine : Prop :=
  ∀ (u : UnitId) (ctr : BitVec 4) (sa sb sc : BitVec 5) (cls : BitVec 3) (fn : BitVec 6) (imm : BitVec 16) (s : State),
    let d := s.dev
    let k := unitKey u
    let len := clampTo 1 16777216 (d.rs k sc).toNat
    let spad (r : BitVec 5) : Nat := (d.rs k r).toNat % 2 ^ 25
    let pool (r : BitVec 5) : Nat := (d.rs k r).toNat % 2 ^ 56
    let al := d.unitAllot k
    let copy (kind src dst : Nat) (todo : List (Nat × Nat)) : Copy := {
      core := k, gen := (d.unit k).gen, ctr := ctr.toNat, pc := (d.unit k).pc, kind := kind, allot := al, src := src
      dst := dst, len := len, cls := min 4 cls.toNat, mcast := none, todo := todo, ready := [], resent := []
      acked := [], ended := false }
    let parts (bases : List Nat) : List (Nat × Nat) := splitParts bases (len / 2048 + 3) 0 len
    let takes (x : Instr) (c : Copy) : Prop := s.dev.issues u x → exec x s = .next { s with
      dev := ((({ d.fetched k with nextCopy := d.nextCopy + 1 }).putCopy d.nextCopy c).pumpCopy d.nextCopy).goesOn k
        (d.unit k).pc }
    let enters (x : Instr) (c : Copy) : Prop :=
      Completes x s fun e =>
        kvGet? e.copies d.nextCopy = some c ∧ e.nextCopy = d.nextCopy + 1 ∧
        e.unit k = { (d.fetched k).unit k with pc := (d.unit k).pc + 1 } ∧
        e.banks = d.banks ∧ e.pool = d.pool ∧ e.reqs = d.reqs ∧ e.outbox = d.outbox ∧ e.regs = d.regs
    (d.spadOk k (spad sa) len = true → d.poolOk al (pool sb) len = true →
      takes (.cpin u ctr sa sb sc cls) (copy 0 (pool sb) (spad sa) (parts [pool sb]))) ∧
    (d.spadOk k (spad sb) len = true → d.poolOk al (pool sa) len = true →
      takes (.cpout u ctr sa sb sc cls fn imm) { copy 1 (spad sb) (pool sa) (parts [pool sa]) with
        mcast := if fn.toNat % 2 = 1 then some (imm.toNat % 4096) else none }) ∧
    (d.poolOk al (pool sa) len = true → d.poolOk al (pool sb) len = true →
      takes (.cppp u ctr sa sb sc cls) (copy 2 (pool sb) (pool sa) (parts [pool sb, pool sa]))) ∧
    (s.dev.issues u (.cpin u ctr sa sb sc cls) → d.spadOk k (spad sa) len = true → d.poolOk al (pool sb) len = true →
      pool sb % 4096 + len ≤ 4096 → d.homed (pool sb) = .here →
      enters (.cpin u ctr sa sb sc cls) (copy 0 (pool sb) (spad sa) [(0, len)])) ∧
    (s.dev.issues u (.cpout u ctr sa sb sc cls fn imm) → fn.toNat % 2 = 0 → d.spadOk k (spad sb) len = true →
      d.poolOk al (pool sa) len = true → pool sa % 4096 + len ≤ 4096 → d.homed (pool sa) = .here →
      enters (.cpout u ctr sa sb sc cls fn imm) (copy 1 (spad sb) (pool sa) [(0, len)])) ∧
    (s.dev.issues u (.cppp u ctr sa sb sc cls) → d.poolOk al (pool sa) len = true → d.poolOk al (pool sb) len = true →
      pool sa % 4096 + len ≤ 4096 → pool sb % 4096 + len ≤ 4096 → d.homed (pool sb) = .here →
      enters (.cppp u ctr sa sb sc cls) (copy 2 (pool sb) (pool sa) [(0, len)])) ∧
    (∀ ep t, s.dev.issues u (.cpin u ctr sa sb sc cls) → d.spadOk k (spad sa) len = true →
      d.poolOk al (pool sb) len = true → pool sb % 4096 + len ≤ 4096 → d.homed (pool sb) = .via ep false →
      cls.toNat < 4 → d.heldBack k (d.unit k).gen ep = false → d.freeTag (unitTagRange k) [] = some t →
      Completes (.cpin u ctr sa sb sc cls) s fun e =>
        kvGet? e.copies d.nextCopy = some (copy 0 (pool sb) (spad sa) []) ∧
        (∃ r, kvGet? e.reqs t = some r ∧ r.f.type = Ty.read ∧ r.f.flags = 32 ∧ r.f.dstEp = ep ∧ r.f.tag = t ∧
          r.f.allot = al ∧ r.f.w5 = pool sb / 2 ^ 32 % 2 ^ 24 ∧ r.f.w6 = pool sb % 2 ^ 32 ∧
          r.f.w7 = (copy 0 (pool sb) (spad sa) []).ref * 65536 + cls.toNat * 8192 + len ∧
          r.cont = .chunk d.nextCopy [(0, len)] ∧ r.deadline = none) ∧
        (e.unit k).pc = (d.unit k).pc + 1 ∧ e.banks = d.banks ∧ e.pool = d.pool)

/-- R86, R148, R233: a piece of a copy that lies whole in this package, is readable and not poisoned, lands when the stack
network delivers it, its counter goes up by as many bytes, up to 2^48 − 1, and the copy, whose last piece this was, is over: a
pull's bytes are in scratchpad, a push's and a pool copy's go to their place in the pool. A piece that must wait, or a copy that
is no more, leaves the copies as they are. Choices of the model in it: assumptions 31, 77. -/
def Obligations.LocalCopyArrivalLands : Prop :=
  ∀ (id m n : Nat) (c : Copy) (b : BankId) (s : State),
    let d := s.dev
    let at_ := spadPlace c.core c.dst
    let x : Copy := { c with todo := [] }
    let src := d.copySource c 0 n
    let pushed := src.2.2.readyWrite c.dst n
    let read := d.readyRead c.src n
    let got := (read.2.touch (pageOf c.src)).putCopy id x
    let stored := got.readyWrite c.dst n
    let landed (e : Dev) : Prop := kvGet? e.copies id = none ∧ (e.unit c.core).s = (d.unit c.core).s ∧
      kvGetD (e.unit c.core).a (c.ctr % 16) 0 = min (kvGetD (d.unit c.core).a (c.ctr % 16) 0 + n) (2 ^ 48 - 1)
    s.isRunning → (kvGet? d.copies id = none → exec (.localCopyArrival id m) s = .next s) ∧
    (kvGet? d.copies id = some c → c.todo = [(0, n)] → c.ready = [] → c.mcast = none → c.ended = false → d.reqs = [] → 0 < n →
      n ≤ m → d.holds c.core c.gen = true →
      (c.kind = 1 → c.core < 256 → d.homed c.dst = .here → d.spadTested c.core c.src n = false →
        d.mayWriteHere c.allot c.dst n = true → src.2.2 = d → pushed.1 = 0 →
        Completes (.localCopyArrival id m) s fun e => landed e ∧
          e.pool = ((pushed.2.touch (pageOf c.dst)).writePool c.dst src.1 src.2.1).2.pool) ∧
      (c.kind = 2 → c.core < 256 → d.homed c.src = .here → d.homed c.dst = .here → d.mayReadHere c.allot c.src n = true →
        read = (true, d) → d.rangePoisoned c.src n = false → d.mayWriteHere c.allot c.dst n = true → stored.1 = 0 →
        Completes (.localCopyArrival id m) s fun e => landed e ∧
          e.pool = ((stored.2.touch (pageOf c.dst)).writePool c.dst (got.poolBytes c.src n) false).2.pool) ∧
      (c.kind = 0 → d.homed c.src = .here → d.mayReadHere c.allot c.src n = true → read.1 = false →
        exec (.localCopyArrival id m) s = .next { s with dev := read.2 })) ∧
    (kvGet? d.copies id = some c → c.kind = 0 → c.core < 256 → c.todo = [(0, n)] → c.ready = [] →
    c.mcast = none → c.ended = false → d.reqs = [] → 0 < n → n ≤ m → d.holds c.core c.gen = true →
    d.homed c.src = .here → d.mayReadHere c.allot c.src n = true → d.readyRead c.src n = (true, d) →
    d.rangePoisoned c.src n = false → banksOf at_ n = [b] → d.mayUse c.allot b = true → d.bankCold b = false →
    d.spadTested c.core c.dst n = false → bankStart b ≤ at_ → at_ + n ≤ bankStart b + bankSize b →
    Completes (.localCopyArrival id m) s fun e =>
      kvGet? e.copies id = none ∧
      kvGetD (e.unit c.core).a (c.ctr % 16) 0 = min (kvGetD (d.unit c.core).a (c.ctr % 16) 0 + n) (2 ^ 48 - 1) ∧
      (e.unit c.core).s = (d.unit c.core).s ∧ e.pool.mem = d.pool.mem ∧
      (∀ x, x < at_ ∨ at_ + n ≤ x → memRead e.banks.mem x = memRead d.banks.mem x) ∧
      (∀ i, i < n → d.rowFailed (at_ + i) = false → memRead e.banks.mem (at_ + i) = (d.poolBytes c.src n).getD i 0))

/-- R264, R265, R266: patom sends its ATOMIC to the home of the pool address, whichever package that is, and the counter
waits for the answer; where no package homes it, the error value lands at once with a TIMEOUT record; nmu hands its descriptor,
with the invocation's allotment in it, to the dispatcher; wacq takes a layer
of a window and answers its slot's address; wrel gives an acquire back.
Choices of the model in it: assumptions 29, 32. -/
def Obligations.AtomicNmuAndWindowInstructions : Prop :=
  ∀ (u : UnitId) (ctr : BitVec 4) (sa sb sc : BitVec 5) (fn : BitVec 6) (win : BitVec 16),
    let k := unitKey u
    let op := min 10 (fn.toNat % 16)
    let size := if op = 10 then 0 else min 1 (fn.toNat / 16)
    let n := 4 * 2 ^ size
    let cr : BitVec 5 := if op = 2 ∧ sc = 31 then 30 else sc
    let spad (d : Dev) : Nat := (d.rs k sa).toNat % 2 ^ 25 / n * n
    let pool (d : Dev) : Nat := (d.rs k sb).toNat % 2 ^ 56 / n * n
    let home (d : Dev) : Option Nat := match d.homed (pool d) with
      | .here => some d.myEp
      | .via ep _ => some ep
      | .nowhere => none
    let bad (d : Dev) : Bool := d.sBad k cr || (op == 2 && d.sBad k (cr + 1))
    let arg (d : Dev) : List Byte :=
      toLe n (d.rs k cr).toNat ++ (if op = 2 then toLe n (d.rs k (cr + 1)).toNat else [])
    let sent (d : Dev) : Option Dev :=
      d.issueUnit k (d.unit k).gen (d.newFrame Ty.atomic 4 (d.unitAllot k) ((home d).getD 0) 0 0 (if bad d then 1 else 0)
        (op * 2 ^ 28 + size * 2 ^ 26 + pool d / 2 ^ 32 % 2 ^ 24) (pool d % 2 ^ 32) 0 (arg d))
        (.patom k (d.unit k).gen ctr.toNat (spad d) n (d.unit k).pc)
    let da (d : Dev) : Nat := (d.rs k sa).toNat % 2 ^ 25 / 32 * 32
    let ra (d : Dev) : Nat := (d.rs k sb).toNat % 2 ^ 25 / 32 * 32
    let words (d : Dev) : List Nat := nmuDesc (d.loadSpad k (da d) 32).1 (d.unitAllot k)
    let got (d : Dev) : Dev := (d.loadSpad k (da d) 32).2.2
    let layer (d : Dev) (x : Window) : Nat := min (x.layers - 1) (d.rs k sb).toNat
    let w := win.toNat % 64
    PerformsIf u .all (.patom u ctr sa sb sc fn)
      (fun d => d.spadOk k (spad d) n = true ∧ d.poolOk (d.unitAllot k) (pool d) n = true ∧ (home d).isSome = true ∧
        (sent d).isSome = true)
      (fun d => (sent d).getD d) ∧
    TakesEffect u .all (.patom u ctr sa sb sc fn)
      (fun d => d.spadOk k (spad d) n = true ∧ d.poolOk (d.unitAllot k) (pool d) n = true ∧ home d = none)
      (fun d => (d.fabricErr k (d.unit k).gen 4 (d.unit k).pc Code.timeout (pool d)).landAtom k (d.unit k).gen ctr.toNat (spad d)
        n (errBytes n) true) ∧
    TakesEffect u .all (.nmu u ctr sa sb)
      (fun d => d.spadReady k (da d) 32 ∧ d.spadOk k (ra d) 32 = true ∧ d.nmuFull (16 + k) = false ∧
        (got d).inObjects (d.unitAllot k) (nmuDst (words d))
          (if nmuOp (words d) = 5 then nmuSize (words d) else 128 * (got d).nmuLines (words d)) = true ∧
        (nmuReads (words d) = true →
          (got d).inObjects (d.unitAllot k) (nmuSrc (words d)) (128 * (got d).nmuLines (words d)) = true))
      (fun d => (got d).nmuIssue (16 + k) (ra d) ctr.toNat (d.unit k).gen (words d)) ∧
    (∀ (s : State), s.dev.issues u (.nmu u ctr sa sb) → s.dev.spadReady k (da s.dev) 32 →
      s.dev.spadOk k (ra s.dev) 32 = true → s.dev.nmuFull (16 + k) = false →
      (got s.dev).nmuRefused (16 + k) (words s.dev) = none → nmuWrites (words s.dev) = false →
      1 ≤ nmuOp (words s.dev) ∧ nmuOp (words s.dev) ≤ 5 →
      Completes (.nmu u ctr sa sb) s fun e =>
        kvGet? e.nmus.cmds s.dev.nmus.next =
          some ((got s.dev).nmuCmd (16 + k) (ra s.dev) ctr.toNat (s.dev.unit k).gen (words s.dev)) ∧
        e.nmus.next = s.dev.nmus.next + 1 ∧ (e.unit k).pc = (s.dev.unit k).pc + 1 ∧
        (e.unit k).a = (s.dev.unit k).a ∧ e.pool = s.dev.pool ∧ e.banks.mem = s.dev.banks.mem) ∧
    PerformsIf u .cores (.wacq u sa sb win)
      (fun d => ∃ x y, d.programWindow k w = some x ∧ x.acquire (layer d x) = some y)
      (fun d => match d.programWindow k w with
        | none => d
        | some x => match x.acquire (layer d x) with
          | none => d
          | some (slot, y) => ((d.putWin w y).modUnit k fun v => { v with wins := v.wins ++ [(w, layer d x)] }).ws k sa
              (BitVec.ofNat 64 (2 ^ 24 + y.place slot)) (d.sBad k sb)) ∧
    PerformsIf u .cores (.wrel u sb win)
      (fun d => ∃ x, d.programWindow k w = some x ∧ (d.unit k).wins.contains (w, layer d x) = true)
      (fun d => match d.programWindow k w with
        | none => d
        | some x => (d.putWin w (x.release (layer d x))).modUnit k fun v => { v with wins := v.wins.erase (w, layer d x) }) ∧
    PerformsIf u .cores (.wrel u sb win)
      (fun d => ∃ x, d.programWindow k w = some x ∧ (d.unit k).wins.contains (w, layer d x) = false) id

/-- R236, R265, R266: a program's access to pool memory that its allotment does not hold, and a window instruction on a window it
may not use, fault with POOL_ACCESS and the address or the window's number, and do nothing else to memory.
Choices of the model in it: assumptions 32, 41. -/
def Obligations.PoolAccessFaults : Prop :=
  ∀ (u : UnitId) (ctr : BitVec 4) (sa sb sc : BitVec 5) (cls : BitVec 3) (fn : BitVec 6) (imm win : BitVec 16) (s : State),
    let d := s.dev
    let k := unitKey u
    let len := clampTo 1 16777216 (d.rs k sc).toNat
    let faults (x : Instr) (engine addr : Nat) : Prop :=
      (d.unit k).flt.testBit 111 = false →
      Completes x s fun e =>
        e.fetches k = false ∧ (e.unit k).flt = fltRecord Cause.poolAccess 0 true engine (d.unit k).pc addr ∧
        e.pool = d.pool ∧ e.banks = d.banks ∧ (e.unit k).s = (d.unit k).s
    (d.issues u (.cpin u ctr sa sb sc cls) → d.spadOk k ((d.rs k sa).toNat % 2 ^ 25) len = true →
      d.poolOk (d.unitAllot k) ((d.rs k sb).toNat % 2 ^ 56) len = false →
      faults (.cpin u ctr sa sb sc cls) 4 ((d.rs k sb).toNat % 2 ^ 56)) ∧
    (d.issues u (.cpout u ctr sa sb sc cls fn imm) → d.spadOk k ((d.rs k sb).toNat % 2 ^ 25) len = true →
      d.poolOk (d.unitAllot k) ((d.rs k sa).toNat % 2 ^ 56) len = false →
      faults (.cpout u ctr sa sb sc cls fn imm) 4 ((d.rs k sa).toNat % 2 ^ 56)) ∧
    (d.issues u (.cppp u ctr sa sb sc cls) → d.poolOk (d.unitAllot k) ((d.rs k sa).toNat % 2 ^ 56) len = true →
      d.poolOk (d.unitAllot k) ((d.rs k sb).toNat % 2 ^ 56) len = false →
      faults (.cppp u ctr sa sb sc cls) 4 ((d.rs k sb).toNat % 2 ^ 56)) ∧
    (d.issues u (.wacq u sa sb win) → k < 256 → d.programWindow k (win.toNat % 64) = none →
      faults (.wacq u sa sb win) 4 (win.toNat % 64)) ∧
    (d.issues u (.wrel u sb win) → k < 256 → d.programWindow k (win.toNat % 64) = none →
      faults (.wrel u sb win) 4 (win.toNat % 64))

/-- R269, R360: rake, sieve and rpart hand their descriptor, read from scratchpad, to their cluster's engine: it goes to
the end of the engine's queue with the invocation, its counter and the instruction's index; the program goes on. A queue of 32
makes the program wait. (For rpart: whatever its queue holds, the engine takes what it can at once; and behind a descriptor of
the same invocation that the engine has not finished it waits, R34.)
Choices of the model in it: assumptions 32, 51, 52. -/
def Obligations.EngineInstructionsQueueDescriptors : Prop :=
  ∀ (u : UnitId) (ctr : BitVec 4) (sa : BitVec 5) (grp : BitVec 16) (s : State),
    let d := s.dev
    let k := unitKey u
    let a := (d.rs k sa).toNat % 2 ^ 25 / 32 * 32
    let desc (n : Nat) (extra : List Nat) : Desc := {
      core := k, gen := (d.unit k).gen, ctr := ctr.toNat, pc := (d.unit k).pc, allot := d.unitAllot k
      words := leWords (d.loadSpad k a n).1 ++ extra, row := 0, got := [], phase := 0, status := 0 }
    let open_ := ((d.rparts (k / 16)).filter fun x => x.phase != 2).length
    let read := ((d.fetched k).loadSpad k a 32).2.2
    let goesOn (x : Instr) (P : Dev → Prop) : Prop :=
      Completes x s fun e => P e ∧ e.unit k = { (d.fetched k).unit k with pc := (d.unit k).pc + 1 } ∧
        e.banks.mem = d.banks.mem ∧ e.pool = d.pool
    k < 256 →
    (d.issues u (.rake u ctr sa) → d.spadReady k a 32 → (d.rakes (k / 16)).length < 32 →
      goesOn (.rake u ctr sa) fun e =>
        e.rakes (k / 16) = d.rakes (k / 16) ++ [desc 32 []] ∧ e.eng.sieve = d.eng.sieve ∧ e.eng.parts = d.eng.parts) ∧
    (d.issues u (.sieve u ctr sa) → d.spadReady k a 96 → (d.sieves (k / 16)).length < 32 →
      goesOn (.sieve u ctr sa) fun e =>
        e.sieves (k / 16) = d.sieves (k / 16) ++ [desc 96 []] ∧ e.eng.rake = d.eng.rake ∧ e.eng.parts = d.eng.parts) ∧
    (∀ y, d.issues u (.rpart u ctr sa grp) → d.spadReady k a 32 → d.eng.parts = [(k / 16, [y])] → y.phase = 1 →
      y.core = k → y.gen = (d.unit k).gen → d.eng.sends = [] →
      goesOn (.rpart u ctr sa grp) fun e =>
        e.rparts (k / 16) = [y, desc 32 [grp.toNat % 4096]] ∧ e.eng.rake = d.eng.rake ∧ e.eng.sieve = d.eng.sieve) ∧
    (d.issues u (.rpart u ctr sa grp) → d.spadReady k a 32 → open_ < 32 →
      exec (.rpart u ctr sa grp) s = .next { s with
        dev := ((read.setRparts (k / 16) (read.rparts (k / 16) ++ [desc 32 [grp.toNat % 4096]])).pumpReduce).goesOn k
          (d.unit k).pc }) ∧
    (d.issues u (.sieve u ctr sa) → d.spadReady k a 96 → 32 ≤ (d.sieves (k / 16)).length →
      exec (.sieve u ctr sa) s = .next { s with dev := d.fetched k }) ∧
    (d.issues u (.rpart u ctr sa grp) → d.spadReady k a 32 → 32 ≤ open_ →
      exec (.rpart u ctr sa grp) s = .next { s with dev := d.fetched k }) ∧
    (d.issues u (.rake u ctr sa) → d.spadReady k a 32 → 32 ≤ (d.rakes (k / 16)).length →
      exec (.rake u ctr sa) s = .next { s with dev := d.fetched k })

/-- R270: in an invocation without a session a session instruction does nothing but write 0 to its scalar destinations,
advance its counter by 8 and set the status NO_SESSION, where none is set.
Choices of the model in it: assumption 48. -/
def Obligations.SessionInstructionsWithoutSession : Prop :=
  ∀ (u : UnitId) (ctr : BitVec 4) (sa sb sc : BitVec 5) (n : BitVec 16) (s : State),
    let k := unitKey u
    let d := s.dev
    let counts (x : Instr) : Prop := d.issues u x → k < 256 → (d.unit k).session = none →
      Completes x s fun e =>
        kvGetD (e.unit k).a (ctr.toNat % 16) 0 = min (kvGetD (d.unit k).a (ctr.toNat % 16) 0 + 8) (2 ^ 48 - 1) ∧
        (e.unit k).sesStatus = some ((d.unit k).sesStatus.getD Code.noSession) ∧ (e.unit k).s = (d.unit k).s ∧
        (e.unit k).pc = (d.unit k).pc + 1 ∧ e.sess = d.sess ∧ e.pool = d.pool ∧ e.banks = d.banks
    let clears (x : Instr) (P : UnitSt → Prop) : Prop := d.issues u x → k < 256 → (d.unit k).session = none →
      Completes x s fun e =>
        P (e.unit k) ∧ (e.unit k).sesStatus = some ((d.unit k).sesStatus.getD Code.noSession) ∧
        (e.unit k).pc = (d.unit k).pc + 1 ∧ e.sess = d.sess ∧ e.pool = d.pool ∧ e.banks = d.banks
    counts (.sappend u ctr sa sb) ∧ counts (.sprune u ctr sa) ∧
    clears (.sinfo u sa n) (fun v => v.rs sa.toNat = 0) ∧
    clears (.sblk u sa sb sc) (fun v => v.rs (pairReg sa).toNat = 0 ∧ v.rs (pairReg sa + 1).toNat = 0)

/-- R270, R328, R330, R338: session instructions with a session. sinfo reads a word of the entry; sblk answers the address
and the descriptor word of a block; sprune queues its record, cleaned, and advances its counter by 8; sappend, when the heap
has room, the rows are ready to be written and the queue of records has room for those that it fills, opens the step's tokens and advances its counter by 8.
Choices of the model in it: assumptions 47, 48. -/
def Obligations.SessionInstructionsWithSession : Prop :=
  ∀ (u : UnitId) (ctr : BitVec 4) (sa sb sc : BitVec 5) (n : BitVec 16) (id : Nat) (sx : Sess) (s : State),
    let k := unitKey u
    let d := s.dev.fetched k
    let x := (d.rs k sc).toNat
    let ans := d.sblkAnswer id (min (d.rs k sb).toNat (d.sesLayers id - 1)) (min (x / 65536 % 256) (d.sesKvh id - 1))
      (x % 65536)
    let answers (d e : Dev) : Dev :=
      (e.ws k (pairReg sa) (BitVec.ofNat 64 ans.1) (d.sBad k sb || d.sBad k sc)).ws k (pairReg sa + 1)
        (BitVec.ofNat 64 ans.2) (d.sBad k sb || d.sBad k sc)
    let counted (e : Dev) : Prop :=
      kvGetD (e.unit k).a (ctr.toNat % 16) 0 = min (kvGetD (d.unit k).a (ctr.toNat % 16) 0 + 8) (2 ^ 48 - 1) ∧
      (e.unit k).pc = (d.unit k).pc + 1
    let pa := (d.rs k sa).toNat % 2 ^ 25 / 4 * 4
    let hd := (d.loadSpad k pa 16).1
    let ne := min 2048 (leNat ((hd.drop 4).take 2))
    let nd := min 1024 (leNat ((hd.drop 6).take 2))
    let body := (d.loadSpad k pa (16 + 2 * (ne + nd))).1
    let queued : PruneRec := {
      step := leNat (hd.take 4), kind := 0, layer := 0
      evict := d.cleanEvicts id (Sys2Proof.Machine.halves (body.drop 16) ne)
      demote := ((Sys2Proof.Machine.halves (body.drop (16 + 2 * ne)) nd).filter fun i => i < d.sesCapHb id).foldl
        (fun l i => setIns i l) [] }
    let y := (d.rs k sb).toNat
    let l := min (y % 256) (d.sesLayers id - 1)
    let h0 := min (y / 256 % 256) (d.sesKvh id - 1)
    let heads := min (y / 65536 % 256 + 1) (d.sesKvh id - h0)
    let o := d.openTokens id (y / 2 ^ 24 % 16 + 1)
    let rows := o.1 * heads * 4 * d.sesD id
    let ra := (d.rs k sa).toNat % 2 ^ 25 / 2 * 2
    let ld := o.2.loadSpad k ra rows
    k < 256 → d.unitSession k = some id → d.sesn id = some sx → sx.words.length = 8 →
    Performs u .cores (.sinfo u sa n) (fun e => match e.unitSession k with
      | none => (e.noSession k).ws k sa 0 false
      | some i => e.ws k sa (BitVec.ofNat 64 (e.sesWord i (min 7 n.toNat))) false) ∧
    (s.dev.issues u (.sblk u sa sb sc) →
      exec (.sblk u sa sb sc) s = .next { s with dev := s.dev.advanced k (answers d) }) ∧
    (s.dev.issues u (.sprune u ctr sa) → d.spadReady k pa 16 → d.spadReady k pa (16 + 2 * (ne + nd)) →
      sx.prunes.length < 256 →
      Completes (.sprune u ctr sa) s fun e =>
        counted e ∧ e.sesn id = some { sx with prunes := sx.prunes ++ [queued] } ∧ e.pool = d.pool ∧
        e.banks.mem = d.banks.mem) ∧
    (∀ w, s.dev.issues u (.sappend u ctr sa sb) → d.spadReady k ra rows →
      (sx.prunes.length < 256 ∨ ld.2.2.filledBlocks w.1 id l h0 heads = []) → SesW.appendRows (ld.2.2, []) id l h0 ld.2.1 (rowOrder o.1 heads) ld.1 = some w →
      (d.rangesReady w.2).1 = 0 →
      Completes (.sappend u ctr sa sb) s fun e =>
        counted e ∧ e.ses id Ses.T_OPEN = o.1 % 32 ∧
        (d.ses id Ses.T_OPEN = 0 → e.ses id Ses.POSITIONS = (d.ses id Ses.BASE + o.1) % 65536) ∧
        (d.ses id Ses.T_OPEN ≠ 0 → e.ses id Ses.POSITIONS = d.ses id Ses.POSITIONS) ∧
        e.ses id Ses.STEP = d.ses id Ses.STEP ∧ e.ses id Ses.BASE = d.ses id Ses.BASE)

/-- R211, R212, R213, R271: a region instruction issues its command on the region that s[SB] names, with the place of its
answer, and the program goes on. With a region that no publish holds: ropen of a region of its allotment with a
current version counts one more open of the current slot; rclose one less of a slot, here one that stays current; both
advance the counter by 8 for their answer. rpub marks the region as publishing while the session of its prefix, or an NMU
command on its working object, still has to end, and the program goes on.
Choices of the model in it: assumptions 39, 43. -/
def Obligations.RegionInstructionsIssueCommands : Prop :=
  ∀ (u : UnitId) (ctr : BitVec 4) (sa sb sc : BitVec 5) (fn : BitVec 6) (s : State),
    let d := s.dev
    let k := unitKey u
    let a := (d.rs k sa).toNat % 2 ^ 25 / 8 * 8
    let r := (d.rs k sb).toNat % 4096
    let slot := (d.rs k sc).toNat % 16
    let cur := d.get Bar.VER_REGION_CUR_SLOT r
    let al := d.unitAllot k
    let counted (e : Dev) : Prop :=
      kvGetD (e.unit k).a (ctr.toNat % 16) 0 = min (kvGetD (d.unit k).a (ctr.toNat % 16) 0 + 8) (2 ^ 48 - 1) ∧
      (e.unit k).pc = (d.unit k).pc + 1 ∧ (e.unit k).s = (d.unit k).s
    let who : Caller := ⟨16 + k, al, (d.unit k).gen, ctr.toNat, a⟩
    let issues (x : Instr) (op : RegionOp) : Prop := d.issues u x → d.spadOk k a 8 = true →
      exec x s = .next { s with dev := ((d.fetched k).regionOp op).goesOn k (d.unit k).pc }
    (issues (.ropen u ctr sa sb) ⟨3, r, 0, none, who⟩ ∧ issues (.rclose u ctr sa sb sc) ⟨4, r, slot, none, who⟩ ∧
      issues (.rpub u ctr sa sb sc fn)
        ⟨5, r, 0, if fn.toNat % 2 = 1 then some ((d.rs k sc).toNat % 2 ^ 32) else none, who⟩) ∧
    (k < 256 → d.spadOk k a 8 = true → kvGet? d.ver.pubs r = none → d.altState al = 1 → d.regionValid r = true →
    d.get Bar.VER_REGION_ALLOT r = al → d.get Bar.VER_REGION_CUR_VERSION r ≠ 0 →
    (d.issues u (.ropen u ctr sa sb) → d.get Bar.VER_SLOT_OPENS r cur < 16777215 →
      Completes (.ropen u ctr sa sb) s fun e =>
        counted e ∧ e.get Bar.VER_SLOT_OPENS r cur = d.get Bar.VER_SLOT_OPENS r cur + 1 ∧
        e.get Bar.VER_REGION_CUR_VERSION r = d.get Bar.VER_REGION_CUR_VERSION r ∧ e.pool = d.pool) ∧
    (d.issues u (.rclose u ctr sa sb sc) → slot = cur → 0 < d.get Bar.VER_SLOT_OPENS r slot →
      Completes (.rclose u ctr sa sb sc) s fun e =>
        counted e ∧ e.get Bar.VER_SLOT_OPENS r slot = d.get Bar.VER_SLOT_OPENS r slot - 1 ∧
        e.get Bar.VER_SLOT_STATE r slot = d.get Bar.VER_SLOT_STATE r slot ∧ e.pool = d.pool) ∧
    (d.issues u (.rpub u ctr sa sb sc fn) → fn.toNat % 2 = 0 →
      (∃ i, i < 16 ∧ d.get Bar.VER_SLOT_STATE r i = 0) → d.drained r = false →
      Completes (.rpub u ctr sa sb sc fn) s fun e =>
        (e.unit k).pc = (d.unit k).pc + 1 ∧ (e.unit k).a = (d.unit k).a ∧
        e.get Bar.VER_REGION_PUBLISHING r = 1 ∧ kvGet? e.ver.pubs r = some (who, false) ∧
        e.get Bar.VER_REGION_CUR_VERSION r = d.get Bar.VER_REGION_CUR_VERSION r ∧ e.pool = d.pool ∧ e.banks = d.banks))

/-- R274: rgrd and rgwr on a Gardener are BAR0 accesses of that Gardener's: a read of the wave monitor's control register
answers it and writes of it are clamped (R29); the program goes on. An offset that names no register reads 0 and ignores
writes. Whatever register its address names, rgrd writes what a read by that Gardener answers to s[RD] and rgwr is a write by
that Gardener, of 8 bytes for an SZ of 3 and else of 4. Choices of the model in it: assumptions 43, 44. -/
def Obligations.RegisterBlockInstructions : Prop :=
  ∀ (die : Nat) (rd ra rb : BitVec 5) (sz : BitVec 2) (imm : W32) (s : State),
    let u := UnitId.gardener die
    let d := s.dev
    let k := unitKey u
    let off := (d.rs k ra + imm.signExtend 64).toNat % 2 ^ 28
    let v := (d.rs k rb).toNat
    let n := if sz = 3 then 8 else 4
    let read := (d.fetched k).barRead s.fuses (.gardener (die % 2)) (off / n * n) n
    let wrote := { s with dev := d.fetched k }.barWrite (.gardener (die % 2)) (off / n * n) n (v % 2 ^ (8 * n))
    (d.issues u (.rgrd u rd ra sz imm) → exec (.rgrd u rd ra sz imm) s = .next { s with
      dev := (read.2.ws k rd (BitVec.ofNat 64 read.1) false).goesOn k (d.unit k).pc }) ∧
    (d.issues u (.rgwr u ra rb sz imm) → exec (.rgwr u ra rb sz imm) s = .next (wrote.onDev fun e =>
      e.goesOn k (d.unit k).pc)) ∧
    (kvGet? d.pieces.snap (1 + die % 2) = none →
    (d.issues u (.rgrd u rd ra 2 imm) → off = Bar.TIM_WMON_CTL.base →
      Completes (.rgrd u rd ra 2 imm) s fun e =>
        (e.unit k).rs rd.toNat = (if rd = 0 then 0 else BitVec.ofNat 64 (d.word Bar.TIM_WMON_CTL % 2 ^ 32)) ∧
        (e.unit k).pc = (d.unit k).pc + 1 ∧ e.regs = d.regs) ∧
    (d.issues u (.rgrd u rd ra 2 imm) → off = 0x100 →
      Completes (.rgrd u rd ra 2 imm) s fun e =>
        (e.unit k).rs rd.toNat = 0 ∧ (e.unit k).pc = (d.unit k).pc + 1) ∧
    (d.issues u (.rgwr u ra rb 2 imm) → off = Bar.TIM_WMON_CTL.base →
      Completes (.rgwr u ra rb 2 imm) s fun e =>
        e.get Bar.TIM_WMON_CTL_WINDOW_US = clampTo 1 1000 (v % 1024) ∧
        e.get Bar.TIM_WMON_CTL_ENABLE = v / 1024 % 2 ∧
        (e.unit k).pc = (d.unit k).pc + 1 ∧ (e.unit k).s = (d.unit k).s ∧
        RegsBut [Bar.TIM_WMON_CTL.key 0 0] d e))

/-- R37, R475, R476: the steps of start-up, one after the other. POWER_ON starts the time base at 0 and changes nothing
else; POWER_OFF empties everything but the fuses, the flash, of which a write under way may be cut, and what the Cloche holds; TIME_BASE_LOCK runs steps 2 to 4: the key slots
are emptied, allotment 0 takes a memory slot, ID_READY is set, the image is loaded or FAIL names the check that refused
it, and the march begins; START_UP_MARCH_DONE sets DONE of its cluster with the number of failing rows; the end of the
fills clears the pool and makes the stage READY with an image and RECOVERY without one.
Choices of the model in it: assumptions 8, 18, 85. -/
def Obligations.StartUpRunsItsSteps : Prop :=
  ∀ (s : State) (c : Nat) (rows : List (Nat × Nat)) (coreRows : List (Nat × Nat × Nat)) (lost : List (Nat × Nat)),
    let d := s.dev
    let image := checkImage (d.flashBytes 0 0x100000) s.fuses.minSvn
    (d.power.pwrOk = false →
      exec .powerOn s = .next { s with dev := { d with now := 0, power := { d.power with pwrOk := true } } }) ∧
    (d.power.pwrOk = true → exec .powerOn s = .next s) ∧
    Completes .powerOff s (fun e =>
      e.now = 0 ∧ e.power.pwrOk = false ∧ e.regs = [] ∧ e.flash = d.tornFlash.flash ∧
      (d.almRuns = false → e.flash = d.flash) ∧ e.banks.cloche = d.clocheNow ∧
      e.pool.mem = [] ∧ e.banks.mem = [] ∧ e.units = [] ∧ e.sec.idKey = false) ∧
    (s.isRunning → d.flag Bar.TIM_STATUS_LOCK = false → d.get Bar.GEN_BOOT_STAGE = 0 → d.power.refclkLost = false →
      Completes .timeBaseLock s fun e =>
        e.flag Bar.TIM_STATUS_LOCK = true ∧ e.get Bar.GEN_BOOT_STAGE = 3 ∧ e.flag Bar.SEC_STATUS_ID_READY = true ∧
        e.boot.serial = s.fuses.serial ∧ e.sec.idKey = true ∧ e.sec.fabKeys = [] ∧ e.sec.mslots = [(0, (1, 0))] ∧
        e.now = d.now ∧ e.pool = d.pool ∧
        (∀ n, image = .inl n → e.get Bar.GEN_BOOT_FAIL = n ∧ e.boot.loaded = d.boot.loaded) ∧
        (∀ x, image = .inr x → e.boot.loaded = true ∧ (e.unit 256).pc = 0 ∧ (e.unit 256).halted = true)) ∧
    (s.isRunning → c < 16 → d.get Bar.GEN_BOOT_STAGE = 3 → d.flag Bar.CLU_MARCH_STATUS_DONE c = false →
      Completes (.startUpMarchDone c rows coreRows) s fun e =>
        e.flag Bar.CLU_MARCH_STATUS_DONE c = true ∧ e.flag Bar.CLU_MARCH_STATUS_BUSY c = false ∧
        e.get Bar.CLU_MARCH_STATUS_ROWS_FAILED c = min 255 (rows.length + coreRows.length) ∧
        (coreRows = [] → ∀ b r, rows = [(b, r)] → b < 64 →
          (d.get Bar.CLU_BANK_SPARES_LEFT c b ≠ 0 →
            e.get Bar.CLU_BANK_SPARES_LEFT c b = d.get Bar.CLU_BANK_SPARES_LEFT c b - 1 ∧
            e.bankState (.cluster c b) = d.bankState (.cluster c b)) ∧
          (d.get Bar.CLU_BANK_SPARES_LEFT c b = 0 → e.bankState (.cluster c b) = 3))) ∧
    (s.isRunning → d.get Bar.GEN_BOOT_STAGE = 3 → (∀ n, n < 16 → d.flag Bar.CLU_MARCH_STATUS_DONE n = true) →
      Completes (.startUpMemoryDone lost) s fun e =>
        e.pool.mem = [] ∧ e.pool.poison = [] ∧ 4 ≤ e.get Bar.GEN_BOOT_STAGE ∧
        e.get Bar.GEN_BOOT_READY_NS = e.now % 2 ^ 48 ∧
        (lost = [] → e.get Bar.GEN_BOOT_STAGE = (if d.boot.loaded then 4 else 5) ∧
          (e.unit 256).halted = (if d.boot.loaded then false else true) ∧
          (e.unit 257).halted = (if d.boot.loaded then false else true)))

/-- R394, R474, R475: a reset changes what its row names. With no TDI away from CONFIG_UNLOCKED an endpoint reset empties
the endpoint's tables and ends the SPDM sessions of the DOE mailbox, and a PF0 reset does so for PF0's entries alone; pool,
banks, units and sessions keep everything. A function-level reset of VF a, and a TDI that leaves CONFIG_LOCKED, RUN or
ERROR, reset allotment a with the function-level reset recorded, here while a core still ends an invocation of it. With TDIs away from
CONFIG_UNLOCKED each of them leaves its state first, under a reset of its allotment (`Dev.unlockAll`, `Dev.resetAllot`).
Choices of the model in it: assumptions 17, 53. -/
def Obligations.ResetDomains : Prop :=
  ∀ (s : State) (a k : Nat) (u : UnitSt) (i : Inv),
    let d := s.dev
    let keeps (e : Dev) : Prop :=
      e.pool = d.pool ∧ e.banks = d.banks ∧ e.units = d.units ∧ e.sess = d.sess ∧ e.mbr = d.mbr ∧ e.now = d.now ∧
      RegsBut [Bar.SEC_STATUS.base] d e
    let doe (e : Dev) : Prop :=
      e.ep.vfEnable = false ∧ e.ep.tdi = [] ∧ (∀ n x, kvGet? e.sec.spdm n = some x → x.via ≠ 0) ∧
      kvGet? e.sec.chunks 0 = none
    let resets (e : Dev) : Prop :=
      e.altState a = 2 ∧ (e.allotSt a).flr = true ∧ (e.allotSt a).cause = 1 ∧ e.units = d.units ∧ e.banks = d.banks ∧
      e.pool = d.pool ∧ e.copies = d.copies.filter (fun c => c.2.allot != a)
    (s.isRunning →
      exec .endpointReset s = .next { s with
        dev := { d.unlockAll.resetDoe with ep := { Dev.reset.ep with tdi := [] } } } ∧
      exec .pf0Flr s = .next { s with dev := { d.unlockAll.resetDoe with ep := { d.unlockAll.resetDoe.ep with
        table := d.unlockAll.resetDoe.ep.table.filter (fun x => 256 ≤ x.1)
        pend := d.unlockAll.resetDoe.ep.pend.filter (256 ≤ ·), vfEnable := false } } } ∧
      exec (.vfFlr a) s = .next { s with dev := d.resetAllot a 1 } ∧
      (kvGetD d.ep.tdi a 0 ≠ 0 → exec (.tdiUnlock a) s = .next { s with
        dev := ({ d with ep := { d.ep with tdi := kvDel d.ep.tdi a } }).resetAllot a 1 }) ∧
      (kvGetD d.ep.tdi a 0 = 0 → exec (.tdiUnlock a) s = .next s) ∧
      (a = 0 ∨ 256 ≤ a ∨ kvGetD d.ep.tdi a 0 ≠ 0 → exec (.tdiConfigLocked a) s = .next s) ∧
      (kvGetD d.ep.tdi a 0 ≠ 1 → exec (.tdiRun a) s = .next s)) ∧
    (s.isRunning → d.ep.tdi = [] →
      Completes .endpointReset s (fun e => doe e ∧ e.ep.table = [] ∧ e.ep.pend = [] ∧ e.ep.pf0En = false ∧ keeps e) ∧
      Completes .pf0Flr s (fun e => doe e ∧ e.ep.table = d.ep.table.filter (fun x => 256 ≤ x.1) ∧
        e.ep.pend = d.ep.pend.filter (256 ≤ ·) ∧ keeps e)) ∧
    (s.isRunning → 1 ≤ a → a < 256 → d.altState a = 1 → d.validGroups = [] → d.units = [(k, u)] → k < 256 →
      u.state = 3 → u.final.isSome = true → u.inv = some i → i.allot = a →
      Completes (.vfFlr a) s (fun e => resets e ∧ e.ep = d.ep) ∧
      (kvGetD d.ep.tdi a 0 ≠ 0 → Completes (.tdiUnlock a) s fun e => resets e ∧ kvGetD e.ep.tdi a 0 = 0)) ∧
    (s.isRunning → 1 ≤ a → a < 256 → kvGetD d.ep.tdi a 0 = 0 →
      exec (.tdiConfigLocked a) s = .next { s with dev := { d with ep := { d.ep with tdi := kvPut d.ep.tdi a 1 } } }) ∧
    (s.isRunning → kvGetD d.ep.tdi a 0 = 1 →
      exec (.tdiRun a) s = .next { s with dev := { d with ep := { d.ep with tdi := kvPut d.ep.tdi a 2 } } })

/-- R478, R479, R480: RELOAD stores the settings of its write and checks the source that they name: a source that fails
leaves the running firmware alone with status ACCESS, an accepted one waits; its end loads the image into both Gardeners,
which start at instruction 0. COMMIT_SVN raises the fused MIN_SVN to the running image's, never lowers it, and changes
nothing else; it does nothing in RECOVERY and for a Gardener. A write without the RELOAD bit, or while a reload is in progress,
stores the settings and does no more; a VF's write does nothing. -/
def Obligations.FirmwareReload : Prop :=
  ∀ (s : State) (who : Requester) (v : Nat) (src : List Byte) (persist : Bool),
    let d := s.dev
    let len := clampTo 29928 1048575 (slice v 19 0)
    let named := if v.testBit 29 then (List.range len).map fun i => kvGetD d.boot.staging i 0 else d.flashBytes 0 0x100000
    (d.serves = true → writesAsPf0 who = true → v.testBit 31 = true → d.flag Bar.GEN_FW_STATUS_DONE = true →
      Completes (.reload who v) s fun e =>
        e.get Bar.GEN_FW_CTL_LEN = len ∧ e.flag Bar.GEN_FW_CTL_SOURCE = v.testBit 29 ∧
        e.flag Bar.GEN_FW_CTL_PERSIST = v.testBit 28 ∧ e.units = d.units ∧ e.pool = d.pool ∧
        match checkImage named s.fuses.minSvn with
        | .inl n => e.get Bar.GEN_FW_STATUS_STATUS = Code.access ∧ e.get Bar.GEN_BOOT_FAIL = n ∧ e.boot = d.boot ∧
            e.flash = d.flash ∧ e.flag Bar.GEN_FW_STATUS_DONE = true
        | .inr _ => e.flag Bar.GEN_FW_STATUS_DONE = false ∧ e.get Bar.GEN_BOOT_FAIL = 0 ∧
            e.boot.reload = some (named, v.testBit 29 && v.testBit 28)) ∧
    (d.serves = true → writesAsPf0 who = true → v.testBit 31 = false ∨ d.flag Bar.GEN_FW_STATUS_DONE = false →
      exec (.reload who v) s = .next { s with dev := ((d.set Bar.GEN_FW_CTL_SOURCE (slice v 29 29)).set
        Bar.GEN_FW_CTL_PERSIST (slice v 28 28)).set Bar.GEN_FW_CTL_LEN len }) ∧
    (d.serves = false ∨ writesAsPf0 who = false → exec (.reload who v) s = .next s) ∧
    (s.isRunning → d.boot.reload = none → exec .reloadDone s = .next s) ∧
    (s.isRunning → d.boot.reload = some (src, persist) →
      Completes .reloadDone s fun e =>
        match checkImage src s.fuses.minSvn with
        | .inl _ => e = d
        | .inr x =>
          e.boot.reload = none ∧ e.boot.loaded = true ∧ e.get Bar.GEN_BOOT_STAGE = 4 ∧
          e.get Bar.GEN_FW_STATUS_STATUS = Code.ok ∧ e.flag Bar.GEN_FW_STATUS_DONE = true ∧
          e.get Bar.GEN_FW_STATUS_SVN = x.svn % 65536 ∧ (e.unit 256).pc = 0 ∧ (e.unit 256).halted = false ∧
          (e.unit 257).pc = 0 ∧ (e.unit 257).halted = false ∧ (e.unit 256).mem = bytesMap x.dmem ∧ e.pool = d.pool ∧
          e.banks = d.banks ∧ e.sess = d.sess ∧ (persist = false → e.flash = d.flash)) ∧
    (s.isReady → d.ownerOrPf0 who = true →
      exec (.commitSvn who) s = .next { s with
        fuses := { s.fuses with minSvn := max s.fuses.minSvn (d.get Bar.GEN_FW_STATUS_SVN) }
        dev := d.set Bar.GEN_FW_STATUS_MIN_SVN (max s.fuses.minSvn (d.get Bar.GEN_FW_STATUS_SVN)) }) ∧
    (∀ die, exec (.commitSvn (.gardener die)) s = .next s) ∧
    (d.get Bar.GEN_BOOT_STAGE = 5 → exec (.commitSvn who) s = .next s)

/-- R7, R37, R486, R487, R488, R489, R495: accesses to BAR0 from PF0. A write of TIM_WMON_CTL stores its fields clamped, a
write to an offset that names no register is ignored, a read of TIM_WRATE_CLU returns the register and resets LOWEST, a
32-bit read of the lower half of TIM_NOW latches the upper half in TIM_NOW_HI_SHADOW, and a write of GEN_INT clears the bits
written with 1 and, from PF0 or Iferic, acknowledges the holds of their blocks on ALERT_N. An access of any requester, offset and
size is the one that `State.barWrite` and `Dev.barRead` do; what is read leaves the package, and a VF's write to GEN_INT does
nothing.
Choices of the model in it: assumptions 9, 11, 12, 14. -/
def Obligations.RegisterAccessesReadAndWrite : Prop :=
  ∀ (s : State) (who : Requester) (v c b : Nat) (h : AlertHold),
    let d := s.dev
    let reads (off size : Nat) : Nat × Dev := d.barRead s.fuses who off size
    let shows (off size : Nat) : Dev := (reads off size).2.emit (.readData who off size (reads off size).1)
    let same (e : Dev) : Prop := e.pool = d.pool ∧ e.banks = d.banks ∧ e.units = d.units ∧ e.sess = d.sess
    (∀ off size, d.serves = true →
      exec (.registerWrite who off size v) s = .next (s.barWrite who off size v) ∧
      exec (.rcRead who off size) s = .next { s with dev := shows off size } ∧
      exec (.timNowRead who) s = .next { s with dev := shows 0x100000 4 }) ∧
    (∀ off size, size < 4 → exec (.registerWrite who off size v) s = .next s) ∧
    (s.isReady →
      Completes (.registerWrite .pf0 0x100018 4 v) s (fun e =>
        e.get Bar.TIM_WMON_CTL_WINDOW_US = clampTo 1 1000 (slice v 9 0) ∧
        e.flag Bar.TIM_WMON_CTL_ENABLE = v.testBit 10 ∧ RegsBut [0x100018] d e ∧ same e) ∧
      exec (.registerWrite .pf0 0x100 4 v) s = .next { s with dev := d.dropSnap .pf0 }) ∧
    (s.isReady → c < 16 →
      Completes (.rcRead .pf0 (0x100100 + 8 * c) 8) s fun e =>
        e.out = d.out ++ [.readData .pf0 (0x100100 + 8 * c) 8 (d.word Bar.TIM_WRATE_CLU c % 2 ^ 64)] ∧
        e.get Bar.TIM_WRATE_CLU_LOWEST c = 65535 ∧
        e.get Bar.TIM_WRATE_CLU_RATE c = d.get Bar.TIM_WRATE_CLU_RATE c ∧ RegsBut [0x100100 + 8 * c] d e ∧ same e) ∧
    (s.isReady → (∀ a, who ≠ .vf a) →
      Completes (.timNowRead who) s fun e =>
        e.out = d.out ++ [.readData who 0x100000 4 (d.now % 2 ^ 32)] ∧
        e.get Bar.TIM_NOW_HI_SHADOW_NS_HI = d.now / 2 ^ 32 % 2 ^ 32 ∧ RegsBut [0x100008] d e ∧ same e) ∧
    (∀ a, d.serves = true → exec (.genIntWrite (.vf a) v) s = .next { s with dev := d.dropSnap (.vf a) }) ∧
    (∀ die, d.serves = true →
      Completes (.genIntWrite (.gardener die) v) s fun e =>
        (∀ n, n < 20 → (e.get Bar.GEN_INT_PEND).testBit n = ((d.get Bar.GEN_INT_PEND).testBit n && !v.testBit n)) ∧
        RegsBut [0x10] d e ∧ same e ∧ e.out = d.out ∧ e.power = d.power) ∧
    (d.serves = true → asPf0 who = true →
      Completes (.genIntWrite who v) s fun e =>
        (∀ n, n < 20 → (e.get Bar.GEN_INT_PEND).testBit n = ((d.get Bar.GEN_INT_PEND).testBit n && !v.testBit n)) ∧
        RegsBut [0x10] d e ∧ same e ∧ e.out = d.out ∧
        (b < 20 → kvGet? d.power.holds b = some h →
          kvGet? e.power.holds b =
            if v.testBit b then (if h.since + 1000000 ≤ d.now then none else some { h with acked := true })
            else some h))

/-- R495, R506: a hold on ALERT_N ends once PF0 has acknowledged its block and 1 ms has passed since the event, and not
before; nothing else changes. -/
def Obligations.AlertHoldEndsWhenDue : Prop :=
  ∀ (s : State) (b : Nat) (h : AlertHold),
    let d := s.dev
    s.isRunning → kvGet? d.power.holds b = some h →
      (h.acked = true → h.since + 1000000 ≤ d.now →
        exec (.alertHoldExpiry b) s = .next { s with dev := { d with power := { d.power with
          holds := kvDel d.power.holds b } } }) ∧
      (h.acked = false ∨ d.now < h.since + 1000000 → exec (.alertHoldExpiry b) s = .next s)

/-- R29, R31, R39, R41, R157, R165, R498, R505: what the monitors report. The end of a measuring window that is due writes
every cluster's rate, the package values and SEQ, and the next window follows it; a measured offset of die 1 moves DIE_SYNC, with
a record when it is lost; a sample of a supply monitor writes its site, TJ_MAX, and the limits that it crosses: HOT, the thermal
throttle, the thermal trip, the voltage range and the Cloche's range; VDD_RET below its range loses the contents of the banks in
cold frame and no other; VDD_AON out of its range wipes the Cloche, and its return starts it blank. Choices of the model in it:
assumptions 19, 20, 70. -/
def Obligations.MonitorsActOnWhatTheyMeasure : Prop :=
  ∀ (s : State) (rates : List Nat) (n site mv : Nat) (temp : Int),
    let d := s.dev
    let rs := (List.range 16).map fun c => min (rates.getD c 0) 65535
    let wiped (e : Dev) : Prop := e.banks.cloche = .blank ∧ e.sec.idKey = false ∧ e.sec.spdm = [] ∧ e.sec.ifr = []
    let moved (e : Dev) : Prop := d.tim.die1 ≤ e.tim.die1 ∧ e.tim.winStart = d.tim.winStart ∧
      { e with regs := d.regs, tim := d.tim, free := d.free } = d
    (s.isRunning → d.flag Bar.TIM_WMON_CTL_ENABLE = true → d.winEnd ≤ d.now →
      Completes (.measuringWindowEnd rates) s fun e =>
        (∀ c, c < 16 → e.get Bar.TIM_WRATE_CLU_RATE c = rs.getD c 0 ∧
          e.get Bar.TIM_WRATE_CLU_LOWEST c = min (d.get Bar.TIM_WRATE_CLU_LOWEST c) (rs.getD c 0)) ∧
        e.get Bar.TIM_WRATE_PKG_MIN = listMin rs ∧ e.get Bar.TIM_WRATE_PKG_MEAN = rs.sum / 16 ∧
        e.get Bar.TIM_WRATE_PKG_MAX = listMax rs ∧
        e.get Bar.TIM_WRATE_PKG_SEQ = (d.get Bar.TIM_WRATE_PKG_SEQ + 1) % 65536 ∧ e.tim.winStart = d.winEnd ∧
        e.flag Bar.TIM_STATUS_WRATE_LOW = (d.flag Bar.TIM_STATUS_WRATE_LOW ||
          decide (d.get Bar.TIM_WRATE_ALERT_THRESHOLD ≠ 0 ∧ listMin rs < d.get Bar.TIM_WRATE_ALERT_THRESHOLD))) ∧
    (s.isRunning → d.flag Bar.TIM_WMON_CTL_ENABLE = false ∨ d.now < d.winEnd →
      exec (.measuringWindowEnd rates) s = .next s) ∧
    (s.isRunning → ∀ x, x = .dieSyncLost n ∨ x = .dieSyncRegained n →
      (8 < n → d.flag Bar.TIM_STATUS_DIE_SYNC = true → Completes x s fun e =>
        e.flag Bar.TIM_STATUS_DIE_SYNC = false ∧ e.get Bar.TIM_STATUS_DIE_SKEW_NS = min n 65535 ∧
        d.tim.die1 ≤ e.tim.die1 ∧ Records d e Blk.tim 0x02) ∧
      (8 < n → d.flag Bar.TIM_STATUS_DIE_SYNC = false → Completes x s fun e =>
        e.flag Bar.TIM_STATUS_DIE_SYNC = false ∧ e.get Bar.TIM_STATUS_DIE_SKEW_NS = min n 65535 ∧
        RegsBut [Bar.TIM_STATUS.base] d e ∧ moved e) ∧
      (n ≤ 8 → Completes x s fun e =>
        e.flag Bar.TIM_STATUS_DIE_SYNC = true ∧ e.get Bar.TIM_STATUS_DIE_SKEW_NS = n ∧
        RegsBut [Bar.TIM_STATUS.base] d e ∧ moved e)) ∧
    (s.isRunning → site < 64 → -32768 ≤ temp → temp < 32768 →
      Completes (.supplyMonitorSample site mv temp) s fun e =>
        e.get Bar.PWR_VMON_MV site = min mv 65535 ∧ sext16 (e.get Bar.PWR_VMON_TEMP site) = temp ∧
        (∀ i, i < 64 → i ≠ site → e.get Bar.PWR_VMON_TEMP i = d.get Bar.PWR_VMON_TEMP i) ∧
        (∀ i, i < 64 → sext16 (e.get Bar.PWR_VMON_TEMP i) ≤ e.tjMax) ∧
        (∃ i, i < 64 ∧ sext16 (e.get Bar.PWR_VMON_TEMP i) = e.tjMax) ∧
        e.flag Bar.PWR_STATUS_HOT =
          (d.flag Bar.PWR_STATUS_HOT || decide (Int.ofNat (16 * d.get Bar.PWR_THERM_HOT_C) ≤ e.tjMax)) ∧
        e.power.mxThermal = (if 1760 ≤ e.tjMax then true else if e.tjMax < 1680 then false else d.power.mxThermal) ∧
        e.power.tripped = decide (1920 ≤ e.tjMax) ∧
        (32 ≤ site ∨ -640 ≤ temp ∧ temp ≤ 2000 → e.banks.cloche = d.banks.cloche ∧ e.sec = d.sec) ∧
        (site < 32 → temp < -640 ∨ 2000 < temp → e.banks.clocheOut = site :: d.banks.clocheOut.filter (· != site) ∧
          (d.banks.clocheOut = [] → wiped e)) ∧
        e.power.sitesOut = (if siteInRange site mv then d.power.sitesOut.filter (· != site)
          else if d.power.sitesOut.contains site then d.power.sitesOut else d.power.sitesOut ++ [site])) ∧
    (s.isRunning →
      Completes .vddRetLoss s fun e =>
        (∀ b, b ∈ allBanks → d.bankCold b = true → e.bankLost b = true ∧ (e.bank b).gone = true) ∧
        (∀ b, b ∈ allBanks → d.bankCold b = false → e.bank b = d.bank b ∧ e.bankLost b = d.bankLost b) ∧
        (∀ b, b ∈ allBanks → e.bankCold b = d.bankCold b) ∧
        e.banks.mem = d.banks.mem ∧ e.pool = d.pool ∧ e.units = d.units) ∧
    (d.power.aonOut = false → Completes .vddAonOutOfRange s fun e =>
      e.power.aonOut = true ∧ e.pool = d.pool ∧ wiped e ∧
      e.get Bar.SEC_STATUS_LAST_WIPE = 3 ∧ e.get Bar.SEC_STATUS_WIPES = min 255 (d.get Bar.SEC_STATUS_WIPES + 1)) ∧
    (d.power.aonOut = true → exec .vddAonOutOfRange s = .next s ∧
      Completes .vddAonRestored s fun e => e.power.aonOut = false ∧ e.pool = d.pool ∧ wiped e) ∧
    (d.power.aonOut = false → exec .vddAonRestored s = .next s)

/-- R422, R427, R428, R500, R501, R502, R503, R504: power, setpoint, reference clock, tamper and the tenants' snapshots.
The power sample sets PKG_W, PEAK_W and the MX throttle after eight samples above 1,450 W, ends it at 1,400 W; the setpoint
follows the adaptive table and the regulator is asked for steps of at most 10 mV; REFCLK's loss clears LOCK, retrains the ports
in use, takes down the CXL links and resets the endpoint; TAMPER_N raises the fused count and empties every key slot; a snapshot is taken for each tenant at a window.
Choices of the model in it: assumptions 16, 19, 20, 27. -/
def Obligations.PowerClockAndTamper : Prop :=
  ∀ (s : State) (rails : List (Nat × Nat)) (k : Nat),
    let d := s.dev
    let rs := (List.range 8).map fun r =>
      (min (rails.getD r (0, 0)).1 65535, min (rails.getD r (0, 0)).2 (2 ^ 32 - 1))
    let w := min (packageWatts rs) 65535
    let above := if 1450 < w then d.power.overdraw + 1 else 0
    let table := d.boot.avsTable
    let pick := match d.power.avsEntry with
      | none => avsPick table d.tjMax
      | some x => if x < avsPick table (d.tjMax - 32) then avsPick table (d.tjMax - 32)
          else if avsPick table (d.tjMax + 32) < x then avsPick table (d.tjMax + 32) else x
    let goal := d.avsGoal
    let asked := if d.power.requested < goal then min goal (d.power.requested + 10)
      else max goal (d.power.requested - 10)
    let period := 1000000 * max 1 (d.get Bar.SEC_COARSE_PERIOD_MS)
    let stopped := (({ d with power := { d.power with refclkLost := true } }).set Bar.TIM_STATUS_REFCLK_OK 0).set
      Bar.TIM_STATUS_LOCK 0
    let retrained := ((List.range 192).filter stopped.isLeader).foldl (fun e p =>
      if e.portState p = 5 then (e.setDegrading p).startRetrain p
      else if e.portState p = 7 then e.startRetrain p else e) stopped
    let downed := (List.range 8).foldl Dev.cxlFails retrained
    (s.isRunning →
      Completes (.powerSample rails) s fun e =>
        (∀ r, r < 8 → e.get Bar.PWR_RAIL_MV r = (rs.getD r (0, 0)).1 ∧ e.get Bar.PWR_RAIL_MA r = (rs.getD r (0, 0)).2) ∧
        e.get Bar.PWR_STATUS_PKG_W = w ∧ e.get Bar.PWR_STATUS_PEAK_W = max (d.get Bar.PWR_STATUS_PEAK_W) w ∧
        e.power.overdraw = above ∧
        e.power.mxPower = (if 8 ≤ above then true else if w ≤ 1400 then false else d.power.mxPower)) ∧
    (s.isRunning → d.flag Bar.PWR_AVS_MODE = false → table ≠ [] →
      Completes .avsUpdate s fun e =>
        e.power.avsEntry = some pick ∧ e.power.tableMv = clampTo 600 900 (table.getD pick (0, 750)).2 ∧
        e.get Bar.PWR_AVS_TARGET_MV = min e.avsGoal d.power.requested % 1024 ∧
        RegsBut [Bar.PWR_AVS.base] d e ∧ e.out = d.out) ∧
    (s.isRunning → d.power.requested ≠ goal →
      Completes .avsStep s fun e =>
        e.power.requested = asked ∧ e.out = d.out ++ [.avsRequest asked] ∧
        e.get Bar.PWR_AVS_TARGET_MV = min goal asked % 1024 ∧ RegsBut [Bar.PWR_AVS.base] d e) ∧
    (s.isRunning → d.flag Bar.PWR_AVS_MODE = true ∨ table = [] → exec .avsUpdate s = .next s) ∧
    (s.isRunning → d.power.requested = goal → Completes .avsStep s fun e =>
      e.power = d.power ∧ e.out = d.out ∧ e.get Bar.PWR_AVS_TARGET_MV = goal % 1024 ∧ RegsBut [Bar.PWR_AVS.base] d e) ∧
    (s.isRunning → d.power.refclkLost = false → exec .refclkLoss s = .next { s with
      dev := downed.endpointReset.alm1 Blk.pwr 0x06 0 0 0 (downed.word Bar.TIM_STATUS) }) ∧
    (s.isRunning → d.power.refclkLost = true → exec .refclkLoss s = .next s) ∧
    (s.isRunning → d.power.refclkLost = false → exec .refclkReturn s = .next s) ∧
    (s.isRunning → d.power.refclkLost = false → d.ep.tdi = [] →
      (∀ p, p < 192 → d.portState p ≠ 5 ∧ d.portState p ≠ 7) →
      (∀ l, l < 8 → d.get Bar.MEM_CXL_STATUS_STATE l = 0) →
      Completes .refclkLoss s fun e =>
        e.power.refclkLost = true ∧ e.flag Bar.TIM_STATUS_LOCK = false ∧ e.flag Bar.TIM_STATUS_REFCLK_OK = false ∧
        e.alertDriven = true ∧ e.ep.table = [] ∧ e.ep.pend = [] ∧ e.pool = d.pool ∧ Records d e Blk.pwr 0x06) ∧
    (s.isRunning → d.power.refclkLost = true →
      Completes .refclkReturn s fun e =>
        e.power.refclkLost = false ∧ e.flag Bar.TIM_STATUS_LOCK = true ∧ e.flag Bar.TIM_STATUS_REFCLK_OK = true ∧
        e.pool = d.pool ∧ e.ep = d.ep ∧ Records d e Blk.pwr 0x06) ∧
    (s.isRunning →
      ∃ e, exec .tamperAssert s = .next { s with
          fuses := { s.fuses with tamperCount := min 65535 (s.fuses.tamperCount + 1) }, dev := e } ∧
        e.flag Bar.SEC_STATUS_TAMPERED = true ∧ e.banks.cloche = .blank ∧ e.sec.idKey = false ∧ e.sec.spdm = [] ∧
        e.sec.ifr = [] ∧ e.sec.chunks = [] ∧ (∀ i, i < 512 → kvGet? e.sec.fabKeys i = none) ∧
        (∀ a, 1 ≤ a → a < 256 → e.flag Bar.SEC_ALT_REMOVED a = true) ∧ e.alertDriven = true) ∧
    (d.runs = false →
      ∃ e, exec .tamperAssert s = .next { s with
          fuses := { s.fuses with tamperCount := min 65535 (s.fuses.tamperCount + 1) }, dev := e } ∧
        e.banks.cloche = .blank ∧ e.sec.idKey = false ∧ e.sec.spdm = [] ∧ e.sec.ifr = [] ∧ e.pool = d.pool ∧
        (d.power.pwrOk = true → e.flag Bar.SEC_STATUS_TAMPERED = true)) ∧
    (s.isRunning → d.now < d.sec.coarseNs → exec .snapshotWindow s = .next s) ∧
    (s.isRunning → d.sec.coarseNs ≤ d.now →
      Completes .snapshotWindow s fun e =>
        (1 ≤ k → k < 256 → kvGet? e.sec.coarse k = some (d.coarseOf k (d.sec.coarseN + 1))) ∧
        e.sec.coarseN = d.sec.coarseN + 1 ∧ e.sec.coarseNs = (d.now / period + 1) * period ∧
        { e with sec := d.sec } = d)

/-- R481, R482, R483, R484: the management lanes and calendar time. A lane that tries a speed takes its link at that speed
and alternates 10GBASE-R and 1000BASE-X every 500 ms; a lost link starts again at 10GBASE-R; a query for an address of the
lane is answered. An announcement takes over as master, a measurement sets the calendar time and makes it valid after
eight in range, a lost master leaves HOLDOVER, and its end makes the calendar time invalid. What does not fit the state of the
lane, its domain or its master changes nothing.
Choices of the model in it: assumption 21. -/
def Obligations.ManagementLanesAndCalendarTime : Prop :=
  ∀ (s : State) (lane sp dom ds master ns : Nat) (off : Int) (q : NeighbourQuery),
    let d := s.dev
    let linked : Prop := lane < 2 ∧ d.flag Bar.MGT_LANE_LINK lane = true
    let tuned : Prop := linked ∧ d.flag Bar.MGT_PTP_ENABLE = true ∧ dom = d.get Bar.MGT_PTP_DOMAIN
    let bound := Int.ofNat (d.get Bar.MGT_PTP_VALID_NS)
    let run := if Int.ofNat off.natAbs ≤ bound then d.mgt.run + 1 else 0
    (s.isRunning → d.laneTries lane = true → sp = (if d.mgt.tryTen.getD lane true then 2 else 1) →
      Completes (.mgtLaneLinkUp lane sp) s fun e =>
        e.flag Bar.MGT_LANE_LINK lane = true ∧ e.get Bar.MGT_LANE_SPEED lane = sp ∧
        RegsBut [Bar.MGT_LANE.key lane 0] d e ∧ RestSame d e) ∧
    (s.isRunning → d.laneTries lane = false → exec (.mgtLaneLinkUp lane sp) s = .next s) ∧
    (s.isRunning → ¬ linked → exec (.mgtLaneLinkLoss lane) s = .next s ∧ exec (.mgtNeighbourQuery lane q) s = .next s ∧
      ∀ m, exec (.ptpMessage lane m) s = .next s) ∧
    (s.isRunning → d.laneTries lane = false ∨ d.now < d.mgt.tryNs.getD lane 0 + 500000000 →
      exec (.mgtSpeedTryExpiry lane) s = .next s) ∧
    (s.isRunning → d.queryMine lane q = false → exec (.mgtNeighbourQuery lane q) s = .next s) ∧
    (s.isRunning → tuned → ∀ m b, d.mgt.master = some (m, b) →
      (m = master → exec (.ptpMessage lane (.announce dom ds master)) s = .next { s with dev := { d with mgt := { d.mgt with
        master := some (m, ds) } } }) ∧
      (m ≠ master → ds < b → Completes (.ptpMessage lane (.announce dom ds master)) s fun e =>
        e.mgt.master = some (master, ds) ∧ e.mgt.run = 0 ∧ e.get Bar.MGT_PTP_STATUS_STATE = 1 ∧
        RegsBut [Bar.MGT_PTP_STATUS.base] d e) ∧
      (m ≠ master → b ≤ ds → exec (.ptpMessage lane (.announce dom ds master)) s = .next s) ∧
      (m ≠ master → exec (.ptpMessage lane (.measurement dom master off ns)) s = .next s)) ∧
    (s.isRunning → d.mgt.master = none → exec .ptpMasterLost s = .next s) ∧
    (s.isRunning → d.get Bar.MGT_PTP_STATUS_STATE = 2 ∨ d.mgt.holdEnd = 0 ∨ d.now < d.mgt.holdEnd →
      exec .ptpHoldoverExpiry s = .next s) ∧
    (s.isRunning → linked →
      Completes (.mgtLaneLinkLoss lane) s fun e =>
        e.flag Bar.MGT_LANE_LINK lane = false ∧ e.get Bar.MGT_LANE_SPEED lane = 0 ∧
        e.mgt.tryTen = d.mgt.tryTen.set lane true ∧ RegsBut [Bar.MGT_LANE.key lane 0] d e ∧ e.ep = d.ep) ∧
    (s.isRunning → d.laneTries lane = true → d.mgt.tryNs.getD lane 0 + 500000000 ≤ d.now →
      exec (.mgtSpeedTryExpiry lane) s = .next { s with dev := { d with mgt := { d.mgt with
        tryTen := d.mgt.tryTen.set lane (!d.mgt.tryTen.getD lane true), tryNs := d.mgt.tryNs.set lane d.now } } }) ∧
    (s.isRunning → linked → d.queryMine lane q = true →
      exec (.mgtNeighbourQuery lane q) s = .next { s with dev := { d with out := d.out ++ [.mgtAnswer lane q] } }) ∧
    (s.isRunning → tuned → d.mgt.master = none →
      Completes (.ptpMessage lane (.announce dom ds master)) s fun e =>
        e.mgt.master = some (master, ds) ∧ e.mgt.run = 0 ∧ e.get Bar.MGT_PTP_STATUS_STATE = 1 ∧
        e.flag Bar.MGT_PTP_STATUS_VALID = d.flag Bar.MGT_PTP_STATUS_VALID ∧ RegsBut [Bar.MGT_PTP_STATUS.base] d e) ∧
    (s.isRunning → tuned → d.mgt.master = some (master, ds) →
      Completes (.ptpMessage lane (.measurement dom master off ns)) s fun e =>
        e.mgt.calOff = Int.ofNat ns - Int.ofNat d.now ∧ e.calNow = ns ∧ e.mgt.run = run ∧
        e.get Bar.MGT_PTP_STATUS_STATE = 2 ∧
        e.get Bar.MGT_PTP_STATUS_OFFSET_NS = (max (-2147483648) (min 2147483647 off) % 2 ^ 32).toNat ∧
        e.flag Bar.MGT_PTP_STATUS_VALID = (if 8 ≤ run then true else if 8 * bound < Int.ofNat off.natAbs then false
          else d.flag Bar.MGT_PTP_STATUS_VALID) ∧ RegsBut [Bar.MGT_PTP_STATUS.base] d e) ∧
    (s.isRunning → d.mgt.master = some (master, ds) →
      Completes .ptpMasterLost s fun e =>
        e.mgt.master = none ∧ e.get Bar.MGT_PTP_STATUS_STATE = 3 ∧
        e.mgt.holdEnd = d.now + 1000000000 * min 3600 (d.get Bar.MGT_PTP_HOLDOVER_S) ∧ e.mgt.calOff = d.mgt.calOff ∧
        RegsBut [Bar.MGT_PTP_STATUS.base] d e) ∧
    (s.isRunning → d.get Bar.MGT_PTP_STATUS_STATE ≠ 2 → d.mgt.holdEnd ≠ 0 → d.mgt.holdEnd ≤ d.now →
      Completes .ptpHoldoverExpiry s fun e =>
        e.flag Bar.MGT_PTP_STATUS_VALID = false ∧ e.mgt.holdEnd = 0 ∧ RegsBut [Bar.MGT_PTP_STATUS.base] d e)

/-- R384, R394, R395, R405, R415: ENABLE of a tenant. A DISABLED one takes the lowest free memory slot, unless it has one, and
becomes ACTIVE, outside RETURNED; without a free slot it stays DISABLED; an ACTIVE one is DISABLED at once, a RESETTING one keeps
its state until its reset ends. A reset of an ACTIVE tenant makes it RESETTING and drops its copies,
here while a core still ends its invocation; once nothing of it is left its end makes it ACTIVE, or DISABLED with ENABLE 0
or after a removal, refills its tokens and queues one RESET_DONE record with SEQ 0 and the cause.
Choices of the model in it: assumption 53. -/
def Obligations.AllotmentsStartAndReset : Prop :=
  ∀ (s : State) (a n k : Nat) (u : UnitSt) (i : Inv),
    let d := s.dev
    let x := d.allotSt a
    let off : Bool := x.removal || !d.flag Bar.ALT_CFG_ENABLE a
    1 ≤ a → a < 256 →
    (s.isReady → s.fuses.lifecycle ≠ 3 → d.altState a = 0 → d.activeMslot a = none → kvFree d.sec.mslots 512 = some n →
      Completes (.altEnable a) s fun e =>
        e.altState a = 1 ∧ e.flag Bar.ALT_CFG_ENABLE a = true ∧ e.flag Bar.SEC_ALT_REMOVED a = false ∧
        e.activeMslot a = some n ∧
        RegsBut [Bar.ALT_CFG.key a 0, Bar.SEC_ALT.key a 0, Bar.SEC_STATUS.base] d e ∧ e.pool = d.pool) ∧
    (s.isReady → s.fuses.lifecycle ≠ 3 → d.altState a = 0 → d.activeMslot a = some n →
      Completes (.altEnable a) s fun e =>
        e.altState a = 1 ∧ e.flag Bar.ALT_CFG_ENABLE a = true ∧ e.flag Bar.SEC_ALT_REMOVED a = false ∧
        e.activeMslot a = some n ∧ RegsBut [Bar.ALT_CFG.key a 0, Bar.SEC_ALT.key a 0] d e ∧ e.pool = d.pool) ∧
    (s.isReady → s.fuses.lifecycle ≠ 3 → d.altState a = 0 → d.activeMslot a = none → kvFree d.sec.mslots 512 = none →
      Completes (.altEnable a) s fun e => e.regs = d.regs ∧ RestSameEp d e) ∧
    (s.isReady → s.fuses.lifecycle ≠ 3 → d.altState a ≠ 0 →
      Completes (.altEnable a) s fun e =>
        e.altState a = d.altState a ∧ e.flag Bar.ALT_CFG_ENABLE a = true ∧ RegsBut [Bar.ALT_CFG.key a 0] d e ∧
        RestSameEp d e) ∧
    (s.isReady → s.fuses.lifecycle = 3 → exec (.altEnable a) s = .next s) ∧
    (s.isReady → d.altState a ≠ 1 →
      Completes (.altDisable a) s fun e =>
        e.altState a = d.altState a ∧ e.flag Bar.ALT_CFG_ENABLE a = false ∧ RegsBut [Bar.ALT_CFG.key a 0] d e ∧
        RestSameEp d e) ∧
    (s.isReady → exec (.allotmentResetStart a) s = .next { s with dev := d.tdiGuard (d.resetAllot a 0) }) ∧
    (s.isReady → d.altState a = 0 → exec (.allotmentResetStart a) s = .next s) ∧
    (s.isRunning → exec (.allotmentResetEnd a) s = .next { s with dev := d.resetEnd a }) ∧
    (s.isRunning → d.altState a ≠ 2 ∨ d.servedByCore a = true ∧ (d.allotSt a).handed = false →
      exec (.allotmentResetEnd a) s = .next s) ∧
    (s.isReady → d.altState a = 1 →
      Completes (.altDisable a) s fun e =>
        e.altState a = 0 ∧ e.flag Bar.ALT_CFG_ENABLE a = false ∧ RegsBut [Bar.ALT_CFG.key a 0] d e ∧ RestSameEp d e) ∧
    (s.isReady → d.altState a = 1 → d.validGroups = [] → d.units = [(k, u)] → k < 256 → u.state = 3 →
      u.final.isSome = true → u.inv = some i → i.allot = a →
      Completes (.allotmentResetStart a) s fun e =>
        e.altState a = 2 ∧ (e.allotSt a).cause = 0 ∧ e.units = d.units ∧ e.banks = d.banks ∧ e.pool = d.pool ∧
        e.copies = d.copies.filter (fun c => c.2.allot != a) ∧ RegsBut [Bar.ALT_CFG.key a 0] d e) ∧
    (s.isRunning → d.altState a = 2 → d.units = [] → d.nmus.cmds = [] → d.ver.waiting = [] → d.regionsOf a = [] →
      d.sessionsOf a = [] → d.trl = [] → d.banksLeft a = [] → (∀ j, j < 64 → d.flag Bar.EXP_EGR_VALID j = false) →
      d.get Bar.ALT_CFG_NMODE a = 0 →
      Completes (.allotmentResetEnd a) s fun e =>
        e.altState a = (if off then 0 else 1) ∧
        (e.allotSt a).notes = [{ code := 1, rep := 0, seq := 0, arg := x.cause, timeNs := d.now, signalled := false
                                 framed := false }] ∧
        (e.allotSt a).tokens = d.get Bar.ALT_CFG_N_BURST a ∧ (e.allotSt a).removal = false ∧
        e.get Bar.ALT_STATUS_RESETS a = min (d.get Bar.ALT_STATUS_RESETS a + 1) 255 ∧
        e.ep.pend = d.ep.pend.filter (fun v => entryFn v != a) ∧ e.units = [] ∧ e.pool = d.pool ∧ e.banks = d.banks)

/-- R386, R388, R389, R390, R391, R392: a record that meets a queue with room is queued with the next SEQ, the time and
REPEAT 0; at 64 records an equal one is merged and any other is lost and counted; a pop answers and removes the oldest
record; a millisecond of the time base that has begun refills the tokens up to N_BURST, and once only; a vector that is unmasked
while pending sends one message.
Choices of the model in it: assumption 62. -/
def Obligations.NotificationsQueueAndSignal : Prop :=
  ∀ (s : State) (a code arg v : Nat) (n : Note) (rest : List Note),
    let d := s.dev
    let x := d.allotSt a
    let ms := d.now / 1000000
    let filled := d.setAllot a { x with
      tokenMs := ms
      tokens := min (d.get Bar.ALT_CFG_N_BURST a) (x.tokens + d.get Bar.ALT_CFG_N_RATE a * (ms - x.tokenMs)) }
    let fresh : Note := { code := code, rep := 0, seq := x.seq, arg := arg, timeNs := d.now, signalled := false
                          framed := false }
    (a < 256 → d.altState a ≠ 2 → d.get Bar.ALT_CFG_NMODE a = 0 →
      (x.notes.length < 64 →
        ((d.notify a code arg).allotSt a).notes = x.notes ++ [fresh] ∧
        ((d.notify a code arg).allotSt a).seq = (x.seq + 1) % 65536) ∧
      (64 ≤ x.notes.length → (∀ m, m ∈ x.notes → m.code ≠ code ∨ m.arg ≠ arg) →
        (d.notify a code arg).allot = d.allot ∧
        (d.notify a code arg).get Bar.ALT_STATUS_N_LOST a = min (d.get Bar.ALT_STATUS_N_LOST a + 1) 65535) ∧
      (64 ≤ x.notes.length → (∃ m, m ∈ x.notes ∧ m.code = code ∧ m.arg = arg) →
        ((d.notify a code arg).allotSt a).notes.length = x.notes.length ∧
        (d.notify a code arg).get Bar.ALT_STATUS_N_MERGED a = min (d.get Bar.ALT_STATUS_N_MERGED a + 1) 255)) ∧
    (s.isReady → a < 256 → x.notes = n :: rest →
      Completes (.notifyPop a) s fun e =>
        (e.allotSt a).notes = rest ∧ (e.allotSt a).seq = x.seq ∧ (e.allotSt a).tokens = x.tokens ∧
        e.out = d.out ++ [.readData (if a = 0 then .pf0 else .vf a) (Bar.ALT_NPOP.key a 0) 16 n.word] ∧
        e.regs = d.regs) ∧
    (s.isReady → a < 256 → x.notes = [] → Completes (.notifyPop a) s fun e =>
      e.out = d.out ++ [.readData (if a = 0 then .pf0 else .vf a) (Bar.ALT_NPOP.key a 0) 16 0] ∧ { e with out := d.out } = d) ∧
    (s.isRunning → a < 256 → x.tokenMs < ms →
      exec (.notifyTokenRefill a) s = .next { s with dev := filled.signalNotes a } ∧
      (d.get Bar.ALT_CFG_NMODE a = 0 → filled.signalNotes a = filled)) ∧
    (s.isRunning → ms ≤ x.tokenMs → exec (.notifyTokenRefill a) s = .next s) ∧
    (s.isRunning → v < 2048 → d.ep.pend.contains v = false ∨ d.msixOn (entryFn v) = false ∨ d.msixFnMask (entryFn v) = true →
      exec (.vectorUnmask v) s = .next { s with dev := { d with ep := { d.ep with
        table := kvPut d.ep.table v { d.msixEntry v with mask := false } } } }) ∧
    (s.isRunning → v < 2048 → d.ep.pend.contains v = true → d.msixOn (entryFn v) = true →
      d.msixFnMask (entryFn v) = false →
      Completes (.vectorUnmask v) s fun e =>
        e.out = d.out ++ [.msix v] ∧ e.ep.pend = d.ep.pend.filter (· != v) ∧ (e.msixEntry v).mask = false ∧
        (e.msixEntry v).addr = (d.msixEntry v).addr ∧ e.regs = d.regs)

/-- R74, R78, R400, R448: the composition map. INSTALL makes NEXT the current epoch, or CURRENT + 1 when NEXT is not newer,
and opens the drain window, which is over 500 µs later; every ACTIVE allotment is notified, and requests that wait for the map
are resent. SEND_MAP installs and sends a MAP record with the new epoch to
every other IN member. A member that takes a MAP record from an IN member sets NEXT to its epoch and installs it; the record of
any other sender is dropped. Choices of the model in it: assumption 61. -/
def Obligations.MapInstallsOpenADrainWindow : Prop :=
  ∀ (s : State) (i : Nat) (f : Frame),
    let d := s.dev
    let told := if newer (f.w6 % 2 ^ 32) d.mapEpoch then f.w6 % 2 ^ 32 else (d.mapEpoch + 1) % 2 ^ 32
    let good : Prop :=
      s.isRunning ∧ f.type = Ty.epoch ∧ f.w5 >>> 28 % 16 = 8 ∧ d.inTurn f = true ∧ f.badTail = false ∧
      f.payload.length = f.len ∧ f.len ≤ 4096 ∧ d.isFenced = false ∧ f.mbrEpoch = d.mbrEpoch
    let next := if newer (d.get Bar.ALT_MAP_NEXT) d.mapEpoch then d.get Bar.ALT_MAP_NEXT else (d.mapEpoch + 1) % 2 ^ 32
    let installs (e : Dev) : Prop := e.mapEpoch = next ∧ e.get Bar.ALT_MAP_INSTALL_NS = d.now % 2 ^ 64 ∧
      (0 < d.now → d.now < 2 ^ 64 → e.draining = true)
    let installed := (((d.set Bar.ALT_MAP_NEXT next).set Bar.ALT_MAP_CURRENT next).set Bar.ALT_MAP_INSTALL_NS d.now).notifyAll
      0x06 next
    (s.isReady → exec .mapInstall s = .next { s with dev := d.tdiGuard installed.resends }) ∧
    (s.isReady → exec .sendMap s = .next { s with dev := d.tdiGuard ((List.range 1024).foldl (fun e i =>
      if e.memIsIn i && e.memEp i != e.myEp then e.sendEpoch (e.memEp i) 0x8 0 0 e.mapEpoch 0 [] else e)
      installed.resends) }) ∧
    (s.isReady → d.reqs = [] → Completes .mapInstall s installs) ∧
    (s.isReady → d.reqs = [] →
      Completes .sendMap s fun e => installs e ∧
        (d.isFenced = false → i < 1024 → d.memIsIn i = true → d.memEp i ≠ d.myEp →
          ∃ f, (TPort.memSide 0, f) ∈ e.outbox ∧ f.type = Ty.epoch ∧ f.dstEp = d.memEp i ∧ f.w5 = 8 * 2 ^ 28 ∧
            f.w6 = next ∧ f.mapEpoch = next)) ∧
    (good → d.isMember = true → d.memberIn f.srcEp = true → d.reqs = [] →
      Completes (.map f) s fun e =>
        e.mapEpoch = told ∧ e.get Bar.ALT_MAP_INSTALL_NS = d.now % 2 ^ 64 ∧
        (0 < d.now → d.now < 2 ^ 64 → e.draining = true)) ∧
    (good → d.isMember = false ∨ d.memberIn f.srcEp = false → exec (.map f) s = .next { s with dev := d.taken f }) ∧
    (f.type ≠ Ty.epoch ∨ f.w5 >>> 28 % 16 ≠ 8 ∨ d.inTurn f = false → exec (.map f) s = .next s) ∧
    (s.isRunning → exec .drainWindowEnd s = .next s ∧
      (d.get Bar.ALT_MAP_INSTALL_NS + 500000 ≤ d.now → d.draining = false))

/-- R45 to R55, R62: a port comes up step by step. ENABLE takes a DISABLED leader to DETECT; training frames on enough
lanes take it to TRAIN; training marks every lane good or bad; the agreed lane map gives its width and takes it to MEASURE,
and too few good lanes fail the attempt, the third in a row for good; the round trip gives its length and takes it to EXCHANGE, where the capability
block is sent; the partner's block takes it to ACTIVE with its credit advertised, or to HOLD with the reason; ACCEPT admits
a port held for SELF or PARTNER_CHANGED. A retrain takes the same steps and stays in RETRAIN; a step that is not the port's next
changes nothing. Choices of the model in it: assumption 22. -/
def Obligations.PortsComeUpStepByStep : Prop :=
  ∀ (s : State) (p n width : Nat) (lanes : List LaneResult) (blocks : List (List Nat)),
    let d := s.dev
    let good := (List.range (d.layoutWidth p)).filter fun i => d.flag Bar.LNK_LANE_STATUS_GOOD (p + i) && n.testBit i
    let at_ (x : Nat) : Prop := d.portState p = x ∨ d.portState p = 6
    let next (x : Nat) : Nat := if d.portState p = x then x + 1 else 6
    let agreed := agreedWidth (d.layoutWidth p) width good.length (d.minLanes p)
    let active (e : Dev) : Prop := e.portState p = 5 ∧ e.get Bar.LNK_PORT_STATUS_HOLD_REASON p = 0 ∧ (e.port p).step = 0 ∧
      ∀ c, c < 8 → kvGet? (e.trel (portDie (.fabric p))).advert (qCode (.fabric p) c) =
        some (d.creditPerLane p c * d.upLanes p)
    p < 192 →
    (s.isReady → d.isLeader p = true → d.portState p = 0 →
      Completes (.portEnable p) s fun e =>
        e.portState p = 1 ∧ e.flag Bar.LNK_PORT_CFG_ENABLE p = true ∧ (e.port p).attempts = 0 ∧ (e.port p).step = 0 ∧
        e.out = d.out ++ [.trainingFrames p] ∧
        RegsBut [Bar.LNK_PORT_CFG.key p 0, Bar.LNK_PORT_STATUS.key p 0] d e ∧ e.trl = d.trl) ∧
    (s.isReady → d.isLeader p = false ∨ d.portState p ≠ 0 →
      Completes (.portEnable p) s fun e =>
        e.flag Bar.LNK_PORT_CFG_ENABLE p = true ∧ RegsBut [Bar.LNK_PORT_CFG.key p 0] d e ∧ RestSame d e) ∧
    (s.isRunning → d.portState p ≠ 1 ∨ n < d.minLanes p → exec (.trainingFramesDetected p n) s = .next s) ∧
    (s.isRunning → d.portState p ≠ 2 ∧ d.portState p ≠ 6 ∨ (d.port p).step ≠ 2 →
      exec (.laneTrainingDone p lanes) s = .next s) ∧
    (s.isRunning → d.portState p ≠ 2 ∧ d.portState p ≠ 6 ∨ (d.port p).step ≠ 3 →
      exec (.laneMapAgreed p n width) s = .next s) ∧
    (s.isRunning → d.portState p ≠ 3 ∧ d.portState p ≠ 6 ∨ (d.port p).step ≠ 4 → exec (.measureDone p n) s = .next s) ∧
    (s.isRunning → d.portState p ≠ 4 ∧ d.portState p ≠ 6 ∨ (d.port p).step ≠ 5 →
      exec (.capabilityReceived p blocks) s = .next s) ∧
    (s.isReady → d.portState p ≠ 7 ∨
        d.get Bar.LNK_PORT_STATUS_HOLD_REASON p ≠ 4 ∧ d.get Bar.LNK_PORT_STATUS_HOLD_REASON p ≠ 5 →
      exec (.portAccept p) s = .next s) ∧
    (s.isRunning → d.portState p = 1 → d.minLanes p ≤ n →
      Completes (.trainingFramesDetected p n) s fun e =>
        e.portState p = 2 ∧ (e.port p).step = 2 ∧ (e.port p).deadline = d.now + 50000000 ∧
        RegsBut [Bar.LNK_PORT_STATUS.key p 0] d e) ∧
    (s.isRunning → at_ 2 → (d.port p).step = 2 →
      Completes (.laneTrainingDone p lanes) s fun e =>
        e.portState p = d.portState p ∧ (e.port p).step = 3 ∧ (e.port p).skews = lanes.map LaneResult.skewUi ∧
        ∀ i, i < d.layoutWidth p → ∀ r, lanes[i]? = some r →
          e.flag Bar.LNK_LANE_STATUS_GOOD (p + i) = (r.trained && decide (r.skewUi ≤ 192)) ∧
          e.get Bar.LNK_LANE_STATUS_LOSS (p + i) = min r.loss 511) ∧
    (s.isRunning → at_ 2 → (d.port p).step = 3 →
      Completes (.laneMapAgreed p n width) s fun e =>
        (∀ c, agreed = some c → e.portState p = next 2 ∧ e.upLanes p = 2 ^ c ∧ (e.port p).step = 4 ∧
          (e.port p).deadline = d.now + 1000000 ∧
          e.get Bar.LNK_PORT_STATUS_LANE_MAP p = (good.take (2 ^ c)).foldl (fun m i => m + 2 ^ i) 0 % 256) ∧
        (agreed = none → (d.port p).attempts < 2 →
          e.portState p = 1 ∧ (e.port p).attempts = (d.port p).attempts + 1) ∧
        (agreed = none → 2 ≤ (d.port p).attempts → e = d.failPort p)) ∧
    (s.isRunning → at_ 3 → (d.port p).step = 4 →
      Completes (.measureDone p n) s fun e =>
        e.portState p = next 3 ∧ (e.port p).step = 5 ∧ e.get Bar.LNK_PORT_MEAS_RTT_UI p = min n 65535 ∧
        e.get Bar.LNK_PORT_MEAS_LENGTH_DM p = lengthDm (min n 65535) (d.ownLatency p)
          (d.get Bar.LNK_PORT_PARTNER_WORD p 3 % 65536) (d.get Bar.LNK_PORT_CFG_PROP_PS_PER_M p) ∧
        e.out = d.out ++ [.capability p (d.capability p)]) ∧
    (s.isRunning → at_ 4 → (d.port p).step = 5 →
      Completes (.capabilityReceived p blocks) s fun e =>
        e.get Bar.LNK_PORT_STATUS_PARTNER_EP p = (blocks.headD []).getD 0 0 % 65536 ∧
        (d.holdReason p blocks = 0 → active e) ∧
        (d.holdReason p blocks ≠ 0 →
          e.portState p = 7 ∧ e.get Bar.LNK_PORT_STATUS_HOLD_REASON p = d.holdReason p blocks ∧ e.trl = d.trl ∧
          Records d e Blk.lnk 0x02)) ∧
    (s.isReady → d.portState p = 7 →
      d.get Bar.LNK_PORT_STATUS_HOLD_REASON p = 4 ∨ d.get Bar.LNK_PORT_STATUS_HOLD_REASON p = 5 →
      Completes (.portAccept p) s active)

/-- R41, R49, R58, R59, R60, R61, R63: how a port fails and retrains. A step that times out fails the attempt, and the third in a
row takes the port to FAILED, with a record and ALERT_N; RETRAIN and a lost signal start a retrain with a bound of 2 ms, unless
it is the fourth within 1 s; a lane whose count in the present window has reached its bound sets DEGRADING, once in the window,
and retrains under AUTO_RETRAIN; clearing ENABLE takes the port to DISABLED; an uncorrectable codeword is counted at its lane and
marks its frame. Choices of the model in it: assumptions 22, 68, 69. -/
def Obligations.PortsFailAndRetrain : Prop :=
  ∀ (s : State) (p lane : Nat) (cause : DegradeCause) (h : Held),
    let d := s.dev
    let recent := (d.port p).retrains.filter fun t => d.now < t + 1000000000
    let bounded := (d.port p).step = 2 ∨ (d.port p).step = 4 ∨ (d.port p).step = 5
    let inBringUp := 2 ≤ d.portState p ∧ d.portState p ≤ 6 ∧ d.portState p ≠ 5
    let quiet := (d.trel (portDie (.fabric p))).held = []
    let carries := (d.portState p = 5 ∨ d.portState p = 7) ∧ d.laneMapped lane = true
    let w := d.laneWin lane
    let reached := match cause with
      | .uncorr => d.get Bar.LNK_DEGRADE_CTL_UNCORR_MAX ≤ w.uncorr
      | .near => d.get Bar.LNK_DEGRADE_CTL_NEAR_MAX ≤ w.near
    let retrains (e : Dev) : Prop :=
      e.portState p = 6 ∧ (e.port p).step = 2 ∧ (e.port p).fast = true ∧ (e.port p).deadline = d.now + 2000000 ∧
      (e.port p).retrains = recent ++ [d.now] ∧ OutEvent.trainingFrames p ∈ e.out
    p < 192 → lane < 192 →
    (s.isRunning → bounded → (d.port p).deadline ≤ d.now → inBringUp →
      Completes (.bringupStepTimeout p) s fun e =>
        (d.portState p = 6 → (d.port p).fast = true → e.portState p = 1 ∧ (e.port p).attempts = (d.port p).attempts) ∧
        (d.portState p ≠ 6 ∨ (d.port p).fast = false → (d.port p).attempts < 2 →
          e.portState p = 1 ∧ (e.port p).attempts = (d.port p).attempts + 1) ∧
        (d.portState p ≠ 6 ∨ (d.port p).fast = false → 2 ≤ (d.port p).attempts → e = d.failPort p ∧
          (quiet → e.portState p = 8 ∧ (kvGet? e.power.holds Blk.lnk).isSome = true ∧ Records d e Blk.lnk 0x03))) ∧
    (s.isRunning → ¬ bounded ∨ d.now < (d.port p).deadline ∨ ¬ inBringUp → exec (.bringupStepTimeout p) s = .next s) ∧
    (s.isReady → d.portState p = 5 ∨ d.portState p = 7 →
      exec (.portRetrain p) s = .next { s with dev := d.tdiGuard (d.startRetrain p) } ∧
      (recent.length < 3 → quiet → Completes (.portRetrain p) s retrains)) ∧
    (s.isReady → d.portState p = 8 → quiet →
      Completes (.portRetrain p) s fun e => e.portState p = 6 ∧ (e.port p).retrains = [d.now]) ∧
    (s.isReady → d.portState p ≠ 5 → d.portState p ≠ 7 → d.portState p ≠ 8 → exec (.portRetrain p) s = .next s) ∧
    (s.isRunning → d.portOfLane lane = p → carries →
      exec (.lossOfSignal lane) s = .next { s with dev := (d.setDegrading p).startRetrain p } ∧
      (recent.length < 3 → quiet → Completes (.lossOfSignal lane) s fun e =>
        retrains e ∧ e.flag Bar.LNK_PORT_STATUS_DEGRADING p = true)) ∧
    (s.isRunning → d.portOfLane lane = p → ¬ carries →
      exec (.lossOfSignal lane) s = .next s ∧ exec (.laneDegrading lane cause) s = .next s) ∧
    (s.isRunning → d.portOfLane lane = p → carries → reached → w.acted = false →
      Completes (.laneDegrading lane cause) s fun e =>
        (d.flag Bar.LNK_PORT_CFG_AUTO_RETRAIN p = true →
          e = ((d.setLaneWin lane { w with acted := true }).setDegrading p).startRetrain p) ∧
        (d.flag Bar.LNK_PORT_CFG_AUTO_RETRAIN p = true → recent.length < 3 → quiet → retrains e) ∧
        (d.flag Bar.LNK_PORT_CFG_AUTO_RETRAIN p = false → e.flag Bar.LNK_PORT_STATUS_DEGRADING p = true ∧
          e.portState p = d.portState p ∧ e.trl = d.trl ∧ (e.laneWin lane).acted = true)) ∧
    (s.isRunning → ¬ reached ∨ w.acted = true → exec (.laneDegrading lane cause) s = .next s) ∧
    (s.isReady → d.isLeader p = true → quiet →
      Completes (.portDisable p) s fun e =>
        e.portState p = 0 ∧ e.flag Bar.LNK_PORT_CFG_ENABLE p = false ∧ (e.port p).step = 0 ∧ e.pool = d.pool) ∧
    (s.isReady → exec (.portDisable p) s = .next { s with dev := d.tdiGuard (d.portDisable p) }) ∧
    (s.isReady → d.isLeader p = false →
      Completes (.portDisable p) s fun e =>
        e.flag Bar.LNK_PORT_CFG_ENABLE p = false ∧ RegsBut [Bar.LNK_PORT_CFG.key p 0] d e ∧ RestSame d e) ∧
    (s.isRunning →
      Completes (.uncorrectableCodeword lane none) s fun e =>
        e.get Bar.LNK_LANE_ERR_UNCORR lane = min (d.get Bar.LNK_LANE_ERR_UNCORR lane + 1) 65535 ∧
        e.laneWins = kvPut d.laneWins lane { w with uncorr := w.uncorr + 1 } ∧
        RegsBut [Bar.LNK_LANE_ERR.key lane 0] d e ∧ { e with regs := d.regs, laneWins := d.laneWins } = d) ∧
    (s.isRunning → (d.trel (portDie (.fabric lane))).held = [h] → h.ingress = .fabric (d.portOfLane lane) → h.bad = false →
      h.f.len ≠ 0 →
      Completes (.uncorrectableCodeword lane (some h.id)) s fun e =>
        e.get Bar.LNK_LANE_ERR_UNCORR lane = min (d.get Bar.LNK_LANE_ERR_UNCORR lane + 1) 65535 ∧
        (e.trel (portDie (.fabric lane))).held = [{ h with bad := true }] ∧ e.inbox = d.inbox ∧ e.out = d.out)

/-- R17, R34, R57, R99 to R103, R110, R111, R114, R510: frames and credits at a Trellis. A well-formed frame that has a route
and finds cells joins the tail of its queues and takes its cells and its credit; a frame that waits at an internal port is
admitted in its turn; a tail completes its frame, marked bad when it is damaged or of the wrong length; the scheduler sends the
head of the queue it chose and frees its cells; the partner's credit and the cells lost on the way are accounted for; a cell that
fails takes a spare, or leaves the buffer. Choices of the model in it: assumptions 23, 24, 64, 66. -/
def Obligations.TrellisCarriesFrames : Prop :=
  ∀ (s : State) (l die cls n c : Nat) (f : Frame) (payload : List Byte) (damaged : Bool) (ps : List TPort) (h : Held),
    let d := s.dev
    let port := TPort.fabric l
    let t := d.trel (portDie port)
    let q := qCode port f.cls
    let k := Frame.cells f
    let g : Frame := { f with payload := [], badTail := false }
    let full (x : TPort) : Bool := 4 ≤ f.cls && decide (512 < k +
      heldCells (d.trel (portDie x)).held fun y => y.ingress == x && y.f.cls == f.cls)
    let wrong := damaged || payload.length != h.f.len
    (s.isRunning → d.isLeader l = true → d.laneNoise = [] → d.portState l = 5 → k ≤ kvGetD t.advert q 0 → malformed f = false →
      (f.len = 0 → f.payload = []) → f.mbrEpoch = d.mbrEpoch → d.route port g = .to ps false none → ps ≠ [] → f.cls < 8 →
      (f.cls < 4 → d.altCells (portDie port) f.allot false + k ≤ d.get Bar.QOS_ALT_SHARE_EV_SHARE (portDie port) f.allot) →
      f.allot < 256 → d.get Bar.QOS_POLICE_RATE (portDie port) f.allot = 0 → k ≤ d.get Bar.TRL_CELLS_FREE (portDie port) →
      Completes (.frameAdmission port f) s fun e =>
        (e.trel (portDie port)).held = t.held ++ [{
          id := t.nextId, f := g, ingress := port, origin := port, cells := k, targets := ps, started := [], sent := false
          complete := f.len == 0, bad := false, credited := true, note := none, repl := false, loc := none, waits := false
          link := none }] ∧
        kvGetD (e.trel (portDie port)).advert q 0 = kvGetD t.advert q 0 - k ∧
        e.get Bar.TRL_CELLS_FREE (portDie port) = d.get Bar.TRL_CELLS_FREE (portDie port) - k ∧
        e.out = d.out ∧ e.inbox = d.inbox) ∧
    (s.isRunning → d.isLeader l = false → exec (.frameAdmission port f) s = .next s) ∧
    (s.isRunning → d.isLeader l = true → d.laneNoise = [] → d.portState l ≠ 5 →
      exec (.frameAdmission port f) s = .next { s with dev := d.bump Bar.LNK_MFP_DROP_MALFORMED 1 }) ∧
    (s.isRunning → d.isLeader l = true →
      exec (.frameAdmission port f) s = .next { s with dev := (d.meetNoise l).fabricArrival l f }) ∧
    (s.isRunning → ∀ x, x = TPort.memSide die ∨ x = TPort.cluster die → d.nextOut x f ≠ some f ∨ full x = true →
      exec (.frameAdmission x f) s = .next s) ∧
    (s.isRunning → d.nextOut (.memSide die) f = some f → full (.memSide die) = false →
      exec (.frameAdmission (.memSide die) f) s = .next { s with dev :=
        ({ d with outbox := d.outbox.erase (.memSide die, f) }.startBound f).admitHeader (.memSide die) f true }) ∧
    (s.isRunning → d.nextOut (.cluster die) f = some f → full (.cluster die) = false →
      exec (.frameAdmission (.cluster die) f) s = .next { s with dev :=
        let r := d.shapeOrigin (portDie (.cluster die)) f
        if r.1 then ({ r.2 with outbox := r.2.outbox.erase (.cluster die, f) }.startBound f).admitHeader (.cluster die) f true
        else d }) ∧
    (s.isRunning → die < 2 → exec (.frameAdmission (.bridge die) f) s = .next { s with dev := d.bridgeArrival die f }) ∧
    (s.isRunning → (d.trel die).held = [h] → h.complete = false → h.started = [] → h.targets ≠ [] → h.waits = false →
      h.link = none → h.f.len ≠ 0 → h.bad = false →
      Completes (.frameTailArrival die h.id payload damaged) s fun e =>
        (e.trel die).held = [{ h with f := { h.f with payload := payload }, complete := true, bad := wrong }] ∧
        e.out = d.out ∧ e.inbox = d.inbox ∧ (wrong = false → e.regs = d.regs) ∧
        (wrong = true → die < 2 →
          e.get Bar.TRL_BAD_TAIL_MARKED die = min (d.get Bar.TRL_BAD_TAIL_MARKED die + 1) (2 ^ 32 - 1))) ∧
    (s.isRunning → exec (.frameTailArrival die h.id payload damaged) s =
      .next { s with dev := d.tailArrives die h.id payload damaged }) ∧
    (s.isRunning → ∀ x, (d.canSend x = false ∨ d.chooseClass x = none → exec (.egressSend x) s = .next s) ∧
      (∀ v, d.canSend x = true → d.chooseClass x = some (c, v) →
        queueHead ((d.setTrel (portDie x) v).trel (portDie x)) x c = some h →
        exec (.egressSend x) s = .next { s with dev := (d.setTrel (portDie x) v).sendCopy x h })) ∧
    (s.isRunning → d.canSend port = true → d.chooseClass port = some (c, t) → 4 ≤ c → queueHead t port c = some h →
      h.complete = true → h.started = [] → h.targets = [port] → h.credited = false → h.note = none → h.cells ≠ 0 →
      (∀ x, x ∈ t.held → x.id = h.id → x = h) → t.retired = [] →
      Completes (.egressSend port) s fun e =>
        e.out = d.out ++ [.frame port (heldFrame h)] ∧
        (e.trel (portDie port)).held = t.held.filter (fun x => x.id != h.id) ∧
        e.get Bar.TRL_CELLS_FREE (portDie port) =
          min (d.get Bar.TRL_CELLS_FREE (portDie port) + h.cells) (2 ^ 19 - 1) ∧
        kvGetD (e.trel (portDie port)).partner (qCode port c) 0 =
          kvGetD t.partner (qCode port c) 0 - Frame.cells h.f ∧
        e.inbox = d.inbox) ∧
    (s.isRunning → d.portState l = 5 → cls < 8 →
      exec (.partnerCreditReceived l cls n) s = .next { s with dev := d.setTrel (portDie port) { t with
        partner := kvPut t.partner (qCode port cls) (kvGetD t.partner (qCode port cls) 0 + n) } } ∧
      (kvGetD t.rxCells (qCode port cls) 0 < n →
        Completes (.resyncMarker l cls n) s fun e =>
          e.out = d.out ++ [.creditReturn l cls (n - kvGetD t.rxCells (qCode port cls) 0)] ∧
          kvGetD (e.trel (portDie port)).rxCells (qCode port cls) 0 = n ∧ e.regs = d.regs) ∧
      (n ≤ kvGetD t.rxCells (qCode port cls) 0 → exec (.resyncMarker l cls n) s = .next s)) ∧
    (s.isRunning → d.portState l ≠ 5 ∨ 8 ≤ cls →
      exec (.partnerCreditReceived l cls n) s = .next s ∧ exec (.resyncMarker l cls n) s = .next s) ∧
    (s.isRunning → die < 2 →
      Completes (.cellUncorrectable die none) s fun e =>
        Records d e Blk.trl 0x01 ∧ e.trl = d.trl ∧
        (d.get Bar.TRL_CELLS_SPARE die ≠ 0 →
          e.get Bar.TRL_CELLS_SPARE die = d.get Bar.TRL_CELLS_SPARE die - 1 ∧
          e.get Bar.TRL_CELLS_FREE die = d.get Bar.TRL_CELLS_FREE die) ∧
        (d.get Bar.TRL_CELLS_SPARE die = 0 →
          e.get Bar.TRL_CELLS_USABLE die = d.get Bar.TRL_CELLS_USABLE die - 1 ∧
          e.get Bar.TRL_CELLS_FREE die = d.get Bar.TRL_CELLS_FREE die - 1)) ∧
    (s.isRunning → die < 2 → h ∈ (d.trel die).held →
      Completes (.cellUncorrectable die (some h.id)) s fun e =>
        Records d e Blk.trl 0x01 ∧ e.get Bar.TRL_CELLS_FREE die = d.get Bar.TRL_CELLS_FREE die ∧
        (e.trel die).retired = (d.trel die).retired ++ [(h.id, d.get Bar.TRL_CELLS_SPARE die != 0)] ∧
        e.get Bar.TRL_CELLS_SPARE die = d.get Bar.TRL_CELLS_SPARE die - 1 ∧
        (d.get Bar.TRL_CELLS_SPARE die = 0 → e.get Bar.TRL_CELLS_USABLE die = d.get Bar.TRL_CELLS_USABLE die - 1))

/-- R101: a write of TRL_PORT_LL stores its four values clamped to 1 to 4,095 when the die's lossless limits then fit the
lossless budget, and in every case leaves limits that fit it when they fitted it before.
Choices of the model in it: assumption 24. -/
def Obligations.LosslessLimitsStayInBudget : Prop :=
  ∀ (s : State) (p v : Nat),
    let d := s.dev
    let die := if p < 96 then 0 else 1
    let plain := (((d.set Bar.TRL_PORT_LL_TC4 (clampTo 1 4095 (slice v 11 0)) p).set
      Bar.TRL_PORT_LL_TC5 (clampTo 1 4095 (slice v 27 16)) p).set
      Bar.TRL_PORT_LL_TC6 (clampTo 1 4095 (slice v 43 32)) p).set Bar.TRL_PORT_LL_TC7 (clampTo 1 4095 (slice v 59 48)) p
    s.isReady → p < 192 →
      Completes (.trlPortLlWrite p v) s fun e =>
        (d.isLeader p = false ∨ plain.llLimits die ≤ d.llBudget die →
          e.get Bar.TRL_PORT_LL_TC4 p = clampTo 1 4095 (slice v 11 0) ∧
          e.get Bar.TRL_PORT_LL_TC5 p = clampTo 1 4095 (slice v 27 16) ∧
          e.get Bar.TRL_PORT_LL_TC6 p = clampTo 1 4095 (slice v 43 32) ∧
          e.get Bar.TRL_PORT_LL_TC7 p = clampTo 1 4095 (slice v 59 48)) ∧
        (d.llLimits die ≤ d.llBudget die → (∀ c, 4 ≤ c → c < 8 → 1 ≤ d.get (llField c) p) →
          e.llLimits die ≤ e.llBudget die) ∧
        RegsBut [Bar.TRL_PORT_LL.key p 0] d e ∧ e.trl = d.trl

/-- R79, R81, R84, R87, R89, R195, R196: memory frames at the home. Every one makes the checks of R75 and then has the
effect of its type; a command whose frame is of another type does nothing. One that passes them at a free home, on lines
without a flaw: A READ is answered with the
bytes, or with the error value and status POISON; a WRITE and a pushed COPY_DATA store their payload and are
acknowledged; an ATOMIC stores AOP of the old word and answers the old word; a WRITEBACK of the agent in M stores the line
and ends its holding. The entry of a combining table answers every member from one access, and for FADD adds the sum of
all operands and answers each what it would have read in its turn. Nothing else is stored, in pool or scratchpad. Choices of the model in it: assumptions 37, 38. -/
def Obligations.MemoryFramesAreServedAtTheHome : Prop :=
  ∀ (s : State) (die k fr ticket : Nat) (src : TPort) (f : Frame) (ms : List (TPort × Frame)),
    let d := s.dev
    let a := reqAddr f
    let n := reqLen f
    let cell := 65536 * fr + a % 65536
    let here := TPort.memSide (die % 2)
    let home := TPort.memSide (d.frameDie f)
    let came := d.cameBy home f
    let back := TPort.memSide (d.reqDie came f)
    let port := TPort.memSide (d.reqDie src f)
    let bad := d.rangePoisoned a n
    let bs := if bad then errBytes n else d.poolBytes a n
    let read (q : Frame) : Frame := if Frame.copyFlag q
      then d.answer q Ty.copyData (q.w7 >>> 13 % 4) (if bad then Code.poison else Code.ok) (if bad then 33 else 32)
        (q.w7 / 65536 * 65536) bs
      else d.answer q Ty.readResp 5 (if bad then Code.poison else Code.ok) (if bad then 1 else 0) 0 bs
    let still : Prop := d.nmus.burst = [] ∧ d.pool.flaws = []
    let plain : Prop := d.flag Bar.SEC_ALT_FAB_EN f.allot = false ∧ d.homeIdle ∧ still ∧ d.coh.dir = [] ∧
      d.egrView (Frame.addr f) = none ∧ d.mayServe f = true ∧ d.remotePage (pageOf a) = false ∧ d.holdOf f = (.go, 0)
    let stores (e : Dev) (xs : List Byte) : Prop :=
      e.pool.mem = memWrites d.pool.mem cell xs ∧ e.poolBytes a xs.length = xs ∧
      (∀ c, c < cell ∨ cell + xs.length ≤ c → memRead e.pool.mem c = memRead d.pool.mem c) ∧
      e.pool.poison = d.pool.poison.filter (fun x => !((linesOf a n).any fun ln =>
        a ≤ 128 * ln && 128 * ln + 128 ≤ a + xs.length && d.lineKey ln == some x)) ∧
      e.banks = d.banks ∧ e.coh.txns = []
    let sound : Prop := d.frameOf (pageOf a) = some fr ∧ bad = false ∧ Frame.poisonBit f = false ∧
      f.payload.length = f.len
    let denied (e : Dev) (x : Nat) (q : Frame) : Dev := e.nak (.memSide x) q Code.access
    (s.isRunning → f.type = Ty.read → exec (.read die src f) s = .next { s with dev := (
      afterChecks (d.recv here f) fun e q => if inMailbox q then e.mboxRead q else e.takeRead (die % 2) src q) }) ∧
    (s.isRunning → f.type = Ty.write → isPush f = false → exec (.write f) s = .next { s with dev := (
      afterChecks (d.recv home f) fun e q => if inMailbox q then e.mboxWrite q else e.takeWrite (e.frameDie q) came q) }) ∧
    (s.isRunning → f.type = Ty.copyData → Frame.copyFlag f = false → exec (.copyDataPush f) s = .next { s with dev := (
      afterChecks (d.recv home f) fun e q => e.takeWrite (e.frameDie q) came q) }) ∧
    (s.isRunning → f.type = Ty.atomic → exec (.atomic die src f) s = .next { s with dev := (
      afterChecks (d.recv here f) fun e q =>
        if e.mayServe q then e.combine (die % 2) src q else denied e (die % 2) q) }) ∧
    (s.isRunning → f.type = Ty.writeback → exec (.writeback f) s = .next { s with dev := (
      afterChecks (d.recv home f) fun e q => e.checkWriteback came q) }) ∧
    (s.isRunning → exec (.combineEntryGrant die k) s = .next { s with dev := d.grantEntry die k }) ∧
    (f.type ≠ Ty.read → exec (.read die src f) s = .next s) ∧ (f.type ≠ Ty.write ∨ isPush f = true → exec (.write f) s = .next s) ∧
    (f.type ≠ Ty.copyData ∨ Frame.copyFlag f = true → exec (.copyDataPush f) s = .next s) ∧
    (f.type ≠ Ty.atomic → exec (.atomic die src f) s = .next s) ∧
    (f.type ≠ Ty.writeback → exec (.writeback f) s = .next s) ∧
    (s.isRunning → f.type = Ty.read → d.passes here f → inMailbox f = false → plain →
      Completes (.read die src f) s fun e =>
        e.outbox = d.outbox ++ [(port, read f)] ∧ MemorySame d e ∧ e.coh.txns = [] ∧ e.coh.dir = []) ∧
    (s.isRunning → f.type = Ty.write → isPush f = false → d.passes home f → inMailbox f = false → plain → sound →
      a % 4096 + f.len ≤ 4096 →
      Completes (.write f) s fun e =>
        e.outbox = d.outbox ++ [(back, d.answer f Ty.writeAck 5 0 0 0 [])] ∧ stores e f.payload) ∧
    (s.isRunning → f.type = Ty.copyData → Frame.copyFlag f = false → d.passes home f → plain → sound →
      a % 4096 + f.len ≤ 4096 →
      Completes (.copyDataPush f) s fun e =>
        e.outbox = d.outbox ++ [(back,
          d.answer f Ty.writeAck 5 0 0 (f.w7 / 65536 * 65536 + f.len % 8192) [])] ∧ stores e f.payload) ∧
    (s.isRunning → f.type = Ty.atomic → d.passes here f → plain → sound →
      Completes (.atomic die src f) s fun e =>
        e.outbox = d.outbox ++ [(port, d.answer f Ty.readResp 5 0 0 0 (toLe n (leNat (d.poolBytes a n))))] ∧
        stores e (toLe n (aop (atomOp f) n (leNat (d.poolBytes a n)) (atomArgs f).1 (atomArgs f).2))) ∧
    (s.isRunning → f.type = Ty.writeback → d.passes home f → d.flag Bar.SEC_ALT_FAB_EN f.allot = false → d.homeIdle → still →
      d.mayServe f = true → d.heldBy (a / 128) 4 f.srcEp →
      d.remotePage (pageOf a) = false → d.holdOf f = (.go, 0) → d.frameOf (pageOf a) = some fr →
      f.payload.length = 128 → Frame.poisonBit f = false →
      Completes (.writeback f) s fun e =>
        e.outbox = d.outbox ++ [(back, d.answer f Ty.writeAck 6 0 0 0 [])] ∧
        e.pool.mem = memWrites d.pool.mem cell f.payload ∧ e.coh.dir = [] ∧ e.coh.txns = [] ∧ e.banks = d.banks) ∧
    (s.isRunning → d.coh.txns = [] → d.coh.waiting = [] → d.coh.walks = [] → d.coh.dir = [] → still →
      d.coh.comb = [(k, ⟨die, ticket, (src, f) :: ms⟩)] → a % 128 + n ≤ 128 → d.egrView (Frame.addr f) = none →
      d.remotePage (pageOf a) = false → d.holdOf f = (.go, 0) →
      (∀ q, q ∈ (src, f) :: ms → q.2.type = f.type ∧ Frame.copyFlag q.2 = false ∧ reqLen q.2 = n ∧
        d.flag Bar.SEC_ALT_FAB_EN q.2.allot = false) →
      (f.type = Ty.read → Completes (.combineEntryGrant die k) s fun e =>
        e.outbox = d.outbox ++ ((src, f) :: ms).map (fun q => (port, read q.2)) ∧ e.coh.comb = [] ∧ MemorySame d e) ∧
      (f.type = Ty.atomic → atomOp f = 0 → a % n = 0 → sound → (∀ q, q ∈ ms → Frame.poisonBit q.2 = false) →
        Completes (.combineEntryGrant die k) s fun e =>
        e.coh.comb = [] ∧ e.outbox = d.outbox ++ ((src, f) :: ms).zipIdx.map (fun q => (port,
          d.answer q.1.2 Ty.readResp 5 0 0 0 (toLe n ((leNat (d.poolBytes a n) +
            ((((src, f) :: ms).take q.2).map fun x => (atomArgs x.2).1).sum) % 2 ^ (8 * n))))) ∧
        stores e (toLe n ((leNat (d.poolBytes a n) +
          (((src, f) :: ms).map fun q => (atomArgs q.2).1).sum) % 2 ^ (8 * n)))))

/-- R185, R188, R190, R193, R194, R195, R197, R199, R200, R201, R203: coherence. RD_SHARED of a line that nobody holds grants
E with the data, and one that another agent has in M first snoops that agent; RD_OWN grants M with the data; an UPGRADE
of the one sharer grants M without data. An answer with data to the snoop of a holder in M stores the line and ends the
holding; a bound that expires poisons the line and is recorded. A write of COH_AGENT makes a free entry an agent; a
reclaim ends with the lines that the agent had in M poisoned and unheld; a recall snoops the lines of its range and is
done when none is left. A command that names no frame of its kind, no snoop that is due or no walk that has ended does nothing.
Choices of the model in it: assumption 37. -/
def Obligations.CoherenceRequestsMoveLines : Prop :=
  ∀ (s : State) (f : Frame) (h id tag i v w k fr die : Nat) (t : Txn) (sn : Snoop) (inval p share : Bool),
    let d := s.dev
    let a := reqAddr f
    let ln := a / 128
    let ep := f.srcEp
    let home := TPort.memSide (d.frameDie f)
    let came := d.cameBy home f
    let port := TPort.memSide (d.reqDie came f)
    let answer := TPort.memSide (tagDie f.tag)
    let still : Prop := d.nmus.burst = [] ∧ d.pool.flaws = []
    let taken : Dev := afterChecks (d.recv home f) fun e q => e.takeCoherent came q
    let byWindow (e : Dev) : Dev := if w = 0 then d.tdiGuard e else e
    let ask : Prop := s.isRunning ∧ f.type = Ty.snoop ∧ d.passes home f ∧
      d.flag Bar.SEC_ALT_FAB_EN f.allot = false ∧ d.homeIdle ∧ still ∧ d.mayServe f = true ∧
      d.remotePage (pageOf a) = false ∧ d.holdOf f = (.go, 0) ∧ d.linePoisoned ln = false
    let grant (state : Nat) (bs : List Byte) : TPort × Frame :=
      (port, d.answer f Ty.snoopResp 6 0 0 (state <<< 28) bs)
    let line := d.poolBytes a 128
    let given (e : Dev) (st : Nat) (bs : List Byte) : Prop :=
      e.coh.dir = [(ln, ⟨st, some ep, [], false, 0⟩)] ∧ e.outbox = d.outbox ++ [grant st bs] ∧ e.coh.txns = [] ∧
        MemorySame d e
    let snooping : Prop := d.coh.txns = [(id, t)] ∧ t.kind = .capacity ∧ t.fwd = false ∧ t.snoops = [sn] ∧ t.unsent = [] ∧
      sn.wb = false ∧ sn.wasM = true ∧ sn.cop = copInv ∧ d.coh.waiting = [] ∧ d.coh.walks = [] ∧
      d.heldBy sn.line 4 sn.agent ∧ d.frameOf (sn.line / 512) = some fr
    let gone (e : Dev) : Prop := e.coh.dir = [] ∧ e.coh.txns = [] ∧ e.outbox = d.outbox
    let base := d.get Bar.COH_RECALL_ARG_BASE_PAGE w
    let pages := max 1 (d.get Bar.COH_RECALL_ARG_PAGES w)
    let al := d.get Bar.COH_RECALL_ARG_ALLOT w
    let snoop (x cop into : Nat) : TPort × Frame := (.memSide x, d.newFrame Ty.snoop 6 (d.allotOf (128 * k)) into
      (32768 + 4096 * (3 + x)) 0 0 (cop <<< 28 ||| addrHi (128 * k)) (addrLo (128 * k)) 0 [])
    (s.isRunning → f.type = Ty.snoop →
      (frameCop f ≠ 2 → frameCop f ≠ 3 → exec (.rdShared f) s = .next { s with dev := taken }) ∧
      (frameCop f = 2 → exec (.rdOwn f) s = .next { s with dev := taken }) ∧
      (frameCop f = 3 → exec (.upgrade f) s = .next { s with dev := taken })) ∧
    (s.isRunning → f.type = Ty.snoopResp →
      exec (.snoopResp f) s = .next { s with dev := afterChecks (d.recv answer f) Dev.takeSnoopResp }) ∧
    (f.type ≠ Ty.snoop ∨ frameCop f = 2 ∨ frameCop f = 3 → exec (.rdShared f) s = .next s) ∧
    (f.type ≠ Ty.snoop ∨ frameCop f ≠ 2 → exec (.rdOwn f) s = .next s) ∧
    (f.type ≠ Ty.snoop ∨ frameCop f ≠ 3 → exec (.upgrade f) s = .next s) ∧
    (f.type ≠ Ty.snoopResp → exec (.snoopResp f) s = .next s) ∧
    (s.isRunning → kvGet? d.coh.txns id = some t → d.snoopByTag tag = some (id, sn) →
      (sn.deadline ≤ d.now → exec (.snoopTimeout tag) s = .next { s with dev := d.snoopExpires id t sn }) ∧
      (d.now < sn.deadline → exec (.snoopTimeout tag) s = .next s)) ∧
    (d.snoopByTag tag = none → exec (.snoopTimeout tag) s = .next s) ∧
    (s.isReady → i < 1024 →
      exec (.cohAgentWrite i v) s = .next { s with dev := d.tdiGuard (d.writeAgent i v) } ∧
      exec (.reclaim i) s = .next { s with dev := (
        d.tdiGuard (if d.flag Bar.COH_AGENT_VALID i then d.startReclaim i false else d)) }) ∧
    (s.isReady → w < 3 → exec (.recall w) s = .next { s with dev := byWindow (d.recall w) }) ∧
    (s.isRunning → i < 1024 → exec (.reclaimWalkDone i) s = .next { s with dev := (d.endReclaim i).retry }) ∧
    (s.isRunning → w < 3 → d.flag Bar.COH_RECALL_CTL_DONE w = false → d.walkDone (.recall w) = true →
      exec (.recallDone w) s = .next { s with dev := (
        (d.recallDone w (if d.walkPoisoned (.recall w) then Code.poison else Code.ok)).endWalk (.recall w)) }) ∧
    (d.flag Bar.COH_RECALL_CTL_DONE w = true ∨ d.walkDone (.recall w) = false → exec (.recallDone w) s = .next s) ∧
    (ask → frameCop f = 1 → d.coh.dir = [] → Completes (.rdShared f) s fun e => given e 3 line) ∧
    (ask → frameCop f = 1 → h ≠ ep → d.heldBy ln 4 h → k = ln → d.flag Bar.SEC_ALT_FAB_EN (d.allotOf (128 * ln)) = false →
      Completes (.rdShared f) s fun e =>
        e.coh.dir = d.coh.dir ∧ e.outbox = d.outbox ++ [snoop (d.reqDie came f) copShare h] ∧ MemorySame d e) ∧
    (ask → frameCop f = 2 → d.coh.dir = [] → Completes (.rdOwn f) s fun e => given e 4 line) ∧
    (ask → frameCop f = 3 → d.coh.dir = [(ln, ⟨1, none, [ep], false, 0⟩)] → d.agentOut ep = false →
      Completes (.upgrade f) s fun e => given e 4 []) ∧
    (s.isRunning → f.type = Ty.snoopResp → d.passes answer f → snooping → sn.tag = f.tag →
      sn.agent = ep → sn.line = Frame.addr f / 128 → f.payload.length = 128 → Frame.poisonBit f = false →
      Completes (.snoopResp f) s fun e =>
        gone e ∧ e.pool.mem = memWrites d.pool.mem (65536 * fr + 128 * sn.line % 65536) f.payload) ∧
    (s.isRunning → snooping → sn.tag = tag → sn.deadline ≤ d.now → d.agentIdx sn.agent = some i →
      Completes (.snoopTimeout tag) s fun e =>
        gone e ∧ e.pool.poison = setIns (512 * fr + sn.line % 512) d.pool.poison ∧ e.pool.mem = d.pool.mem ∧
        Records d e Blk.coh 1) ∧
    (s.isReady → i < 1024 → d.flag Bar.COH_AGENT_VALID i = false → d.agentIdx (slice v 111 96) = none →
      slice v 127 127 = 1 → slice v 126 126 = 0 →
      Completes (.cohAgentWrite i v) s fun e =>
        e.flag Bar.COH_AGENT_VALID i = true ∧ e.get Bar.COH_AGENT_ENDPOINT i = slice v 111 96 ∧
        RegsBut [Bar.COH_AGENT.key i 0] d e ∧ RestSameEp d e) ∧
    (s.isReady → i < 1024 → d.flag Bar.COH_AGENT_VALID i = true → d.coh.txns = [] →
      Completes (.reclaim i) s fun e =>
        e.flag Bar.COH_AGENT_RECLAIMING i = true ∧ (kvGet? e.coh.reclaims i).isSome = true ∧ e.coh.dir = d.coh.dir ∧
        RegsBut [Bar.COH_AGENT.key i 0] d e ∧ MemorySame d e) ∧
    (s.isRunning → i < 1024 → d.coh.reclaims = [(i, inval)] → d.homeIdle → d.heldBy k 4 (d.get Bar.COH_AGENT_ENDPOINT i) →
      d.frameOf (k / 512) = some fr →
      Completes (.reclaimWalkDone i) s fun e =>
        e.coh.dir = [] ∧ e.coh.reclaims = [] ∧ e.flag Bar.COH_AGENT_RECLAIMING i = false ∧
        e.flag Bar.COH_AGENT_VALID i = (d.flag Bar.COH_AGENT_VALID i && !inval) ∧
        e.pool.poison = setIns (512 * fr + k % 512) d.pool.poison ∧ e.pool.mem = d.pool.mem ∧
        RegsBut [Bar.COH_AGENT.key i 0] d e) ∧
    (s.isReady → w < 3 → (∀ x, x < 3 → d.flag Bar.COH_RECALL_CTL_DONE x = true) → d.inReset al = false →
      d.inObjects al (65536 * base) (65536 * pages) = true → d.homeIdle → d.heldBy k 4 h → 512 * base ≤ k →
      k < 512 * (base + pages) → d.homeDie (128 * k) = some die →
      d.flag Bar.SEC_ALT_FAB_EN (d.allotOf (128 * k)) = false →
      Completes (.recall w) s fun e =>
        e.flag Bar.COH_RECALL_CTL_DONE w = false ∧ e.get Bar.COH_RECALL_CTL_LINES w = 1 ∧
        e.outbox = d.outbox ++ [snoop die copInv h] ∧ e.coh.dir = d.coh.dir ∧
        RegsBut [Bar.COH_RECALL_CTL.key w 0] d e ∧ MemorySame d e) ∧
    (s.isRunning → w < 3 → d.flag Bar.COH_RECALL_CTL_DONE w = false → d.coh.txns = [] →
      d.coh.walks = [⟨.recall w, share, [], p⟩] →
      Completes (.recallDone w) s fun e =>
        e.flag Bar.COH_RECALL_CTL_DONE w = true ∧
        e.get Bar.COH_RECALL_CTL_STATUS w = (if p then Code.poison else Code.ok) ∧ e.coh.walks = [] ∧
        e.coh.dir = d.coh.dir ∧ RegsBut [Bar.COH_RECALL_CTL.key w 0] d e ∧ MemorySame d e)

/-- R120, R123, R125, R127, R128, R130, R132, R133, R138, R517: what stands behind the pool. MEM_SPAN takes a span once. A
LEND that passes takes the lowest free entry and is answered with its index; a WITHDRAW that matches stops the entry at
once and sets LOST of its object, and frees the entry when nothing forwarded is left. WARM holds its session's pages and
counts a FREE session. A failed stack, or a failed tier-2 link, reads 0 free frames or FAILED, is recorded, and leaves the
pages that had their only frame there poisoned; a link trains, becomes READY with what enumeration found, drains when
ENABLE is cleared and ends DISABLED when no frame of it is left. A command that finds nothing of its kind to act on does nothing.
Choices of the model in it: assumptions 26, 27, 28, 62. -/
def Obligations.SpansLendingWarmStacksAndLinks : Prop :=
  ∀ (s : State) (f : Frame) (i id v st ch l cap med mx sp wd r h t n : Nat) (p : TPort) (pg : Page),
    let d := s.dev
    let home := TPort.memSide (d.frameDie f)
    let dup : Prop := ∃ j, j < 512 ∧ j ≠ i ∧ d.flag Bar.MEM_SPAN_VALID j = true ∧
      d.get Bar.MEM_SPAN_SPAN j = slice v 47 32
    let held : Prop := i < 1024 ∧ d.flag Bar.MEM_LEND_VALID i = true ∧
      (∀ j, j < 1024 → d.flag Bar.MEM_LEND_VALID j = true → j = i)
    let page := pageOf (Frame.addr f)
    let plain : Prop := d.flag Bar.SEC_ALT_FAB_EN f.allot = false
    let idle : Prop := d.coh.txns = [] ∧ d.coh.waiting = [] ∧ d.coh.walks = []
    let one : Prop := d.pool.pages = [(n, pg)] ∧ pg.home = some h ∧ pg.copy = none ∧ d.pool.pmap = [] ∧
      d.pool.copies = [] ∧ d.pool.jobs = [] ∧ d.pool.leaving = [] ∧ idle
    let checked (k : Dev → Frame → Dev) : Dev := afterChecks (d.recv home f) k
    let state (e : Dev) : Nat := e.get Bar.MEM_CXL_STATUS_STATE l
    (s.isReady → exec (.memSpanWrite i v) s = .next { s with dev := if i < 512 then d.tdiGuard (d.writeSpan i v) else d }) ∧
    (s.isRunning → f.type = Ty.lend → lendOp f ≠ 1 → exec (.lend f) s = .next { s with dev := checked Dev.takeLend }) ∧
    (s.isRunning → f.type = Ty.lend → lendOp f = 1 →
      exec (.withdraw f) s = .next { s with dev := checked Dev.takeWithdraw }) ∧
    (s.isRunning → f.type = Ty.warm →
      exec (.warm f) s = .next { s with dev := afterChecks (d.recv (.memSide 0) f) Dev.takeWarm }) ∧
    (f.type ≠ Ty.lend ∨ lendOp f = 1 → exec (.lend f) s = .next s) ∧
    (f.type ≠ Ty.lend ∨ lendOp f ≠ 1 → exec (.withdraw f) s = .next s) ∧
    (f.type ≠ Ty.warm → exec (.warm f) s = .next s) ∧
    (kvGet? d.pool.withdraw i = none ∨ d.lendBusy i = true ∨ 1024 ≤ i → exec (.withdrawComplete i) s = .next s) ∧
    (s.isRunning → kvGet? d.pool.holds id = some t →
      (t ≤ d.now → exec (.warmHoldExpiry id) s = .next { s with dev := ({ d with pool := { d.pool with
        holds := kvDel d.pool.holds id } }).pump }) ∧
      (d.now < t → exec (.warmHoldExpiry id) s = .next s)) ∧
    (kvGet? d.pool.holds id = none → exec (.warmHoldExpiry id) s = .next s) ∧
    (s.isRunning → st < 12 → ch < 32 → exec (.stackFailure st ch) s = .next { s with dev := d.stackFails st ch }) ∧
    (12 ≤ st ∨ 32 ≤ ch → exec (.stackFailure st ch) s = .next s) ∧
    (s.isReady → l < 8 → exec (.cxlEnable l) s = .next { s with dev := d.tdiGuard (d.cxlEnable l) } ∧
      exec (.cxlDisable l) s = .next { s with dev := d.tdiGuard (d.cxlDisable l) }) ∧
    (s.isRunning → l < 8 → state d = 1 →
      exec (.cxlLinkReady l (.memory cap med mx sp wd)) s = .next { s with dev := d.cxlReady l (.memory cap med mx sp wd) }) ∧
    (s.isRunning → l < 8 → state d = 2 ∨ state d = 3 →
      exec (.cxlLinkFailure l) s = .next { s with dev := d.cxlFails l }) ∧
    (state d ≠ 1 ∨ 8 ≤ l → exec (.cxlLinkReady l (.memory cap med mx sp wd)) s = .next s ∧
      exec (.cxlLinkReady l (.unsupported r)) s = .next s) ∧
    (state d ≠ 3 ∨ d.linkUsed l ≠ 0 ∨ 8 ≤ l → exec (.cxlDrainDone l) s = .next s) ∧
    ((state d ≠ 2 ∧ state d ≠ 3) ∨ 8 ≤ l → exec (.cxlLinkFailure l) s = .next s) ∧
    (s.isReady → i < 512 → slice v 63 63 = 1 → slice v 47 32 ≠ 0xFFFF →
      (dup → Completes (.memSpanWrite i v) s fun e => e.regs = d.regs ∧ RestSameEp d e) ∧
      (¬dup → Completes (.memSpanWrite i v) s fun e =>
        e.flag Bar.MEM_SPAN_VALID i = true ∧ e.get Bar.MEM_SPAN_SPAN i = slice v 47 32 ∧
        e.get Bar.MEM_SPAN_ALLOT i = slice v 7 0 ∧ RegsBut [Bar.MEM_SPAN.key i 0] d e ∧ RestSameEp d e)) ∧
    (s.isRunning → f.type = Ty.lend → lendOp f ≠ 1 → d.passes home f → plain → d.viewSlot page = none →
      d.lendOk f = true → i < 1024 → (∀ j, j < i → d.flag Bar.MEM_LEND_VALID j = true) →
      d.flag Bar.MEM_LEND_VALID i = false →
      Completes (.lend f) s fun e =>
        e.flag Bar.MEM_LEND_VALID i = true ∧ e.get Bar.MEM_LEND_ALLOT i = f.allot % 256 ∧
        e.get Bar.MEM_LEND_LENDER_EP i = f.srcEp % 65536 ∧ e.get Bar.MEM_LEND_POOL_PAGE i = page % 2 ^ 40 ∧
        e.get Bar.MEM_LEND_LOCAL_PAGE i = lendLocal f ∧ e.get Bar.MEM_LEND_PAGES i = lendPages f ∧
        e.outbox = d.outbox ++ [(home, d.answer f Ty.writeAck 5 0 0 i [])] ∧
        RegsBut [Bar.MEM_LEND.key i 0] d e ∧ e.pool = d.pool) ∧
    (s.isRunning → f.type = Ty.lend → lendOp f = 1 → d.passes home f → held → kvGet? d.pool.withdraw i = none →
      d.get Bar.MEM_LEND_POOL_PAGE i = page → d.get Bar.MEM_LEND_PAGES i = lendPages f →
      d.get Bar.MEM_LEND_ALLOT i = f.allot → d.get Bar.MEM_LEND_LENDER_EP i = f.srcEp → d.objOf page = some n →
      Completes (.withdraw f) s fun e =>
        kvGet? e.pool.withdraw i = some (some (home, f)) ∧ (∀ x, e.lentBy x = none) ∧
        e.flag Bar.MEM_OBJ_LOST n = true ∧ MemorySame d e) ∧
    (s.isRunning → i < 1024 → d.pool.withdraw = [(i, some (p, f))] → d.lendBusy i = false → plain →
      Completes (.withdrawComplete i) s fun e =>
        e.flag Bar.MEM_LEND_VALID i = false ∧ e.pool.withdraw = [] ∧
        e.outbox = d.outbox ++ [(.memSide (portDie p), d.answer f Ty.writeAck 5 0 0 0 [])] ∧
        RegsBut [Bar.MEM_LEND.key i 0] d e ∧ MemorySame d e) ∧
    (s.isRunning → f.type = Ty.warm → d.passes (.memSide 0) f → id = f.w5 % 65536 →
      (d.ses id Ses.STATE ≠ 0 → d.ses id Ses.ALLOT = f.allot →
        (∀ x, x ∈ d.objPages (d.ses id Ses.CACHE_OBJ) → d.inT1 x = true) →
        Completes (.warm f) s fun e =>
          e.pool.holds = kvPut d.pool.holds id (d.now + 1000000 * max 1 (d.get Bar.MEM_TIER_CFG_WARM_HOLD_MS)) ∧
          e.pool.pages = d.pool.pages ∧ e.regs = d.regs ∧ e.outbox = d.outbox) ∧
      (d.ses id Ses.STATE = 0 →
        Completes (.warm f) s fun e =>
          e.get Bar.MEM_TIER_CNT_WARM_NOSESS = min (d.get Bar.MEM_TIER_CNT_WARM_NOSESS + 1) 65535 ∧
          RegsBut [Bar.MEM_TIER_CNT.base] d e ∧ e.pool = d.pool ∧ e.outbox = d.outbox)) ∧
    (s.isRunning → d.pool.holds = [(id, t)] → t ≤ d.now → d.noPages →
      Completes (.warmHoldExpiry id) s fun e => e.pool.holds = [] ∧ e.regs = d.regs ∧ MemorySame d e) ∧
    (s.isRunning → st < 12 → ch < 32 → one → isT1 h = true → stackOf h = st →
      Completes (.stackFailure st ch) s fun e =>
        e.flag Bar.MEM_STACK_STATUS_FAILED st = true ∧ e.stackFree st = 0 ∧
        (e.get Bar.MEM_STACK_STATUS_CHAN_OK st).testBit ch = false ∧ Records d e Blk.mem 1 ∧
        e.pool.pages = [(n, { pg with home := none, poisoned := true })]) ∧
    (s.isReady → l < 8 → state d = 0 →
      Completes (.cxlEnable l) s fun e =>
        e.get Bar.MEM_CXL_CTL_ENABLE l = 1 ∧ state e = 1 ∧
        RegsBut [Bar.MEM_CXL_CTL.key l 0, Bar.MEM_CXL_STATUS.key l 0] d e ∧ RestSameEp d e) ∧
    (s.isRunning → l < 8 → state d = 1 → d.noPages → idle →
      Completes (.cxlLinkReady l (.memory cap med mx sp wd)) s fun e =>
        state e = 2 ∧ e.get Bar.MEM_CXL_STATUS_CAP_PAGES l = min (cap / 65536) 33554432 ∧
        e.get Bar.MEM_CXL_STATUS_LAT_MED_NS l = min med 65535 ∧ e.get Bar.MEM_CXL_STATUS_LAT_MAX_NS l = min mx 65535 ∧
        e.get Bar.MEM_CXL_STATUS_SPEED l = sp % 4 ∧ e.get Bar.MEM_CXL_STATUS_WIDTH l = wd % 4 ∧
        RegsBut [Bar.MEM_CXL_STATUS.key l 0] d e) ∧
    (s.isRunning → l < 8 → state d = 1 →
      Completes (.cxlLinkReady l (.unsupported r)) s fun e =>
        state e = 5 ∧ e.get Bar.MEM_CXL_STATUS_REASON l = r % 8 ∧ RegsBut [Bar.MEM_CXL_STATUS.key l 0] d e ∧
        RestSame d e) ∧
    (s.isReady → l < 8 → d.noPages → (state d = 2 ∨ state d = 1 ∨ state d = 4 ∨ state d = 5) →
      Completes (.cxlDisable l) s fun e =>
        e.get Bar.MEM_CXL_CTL_ENABLE l = 0 ∧ state e = (if state d = 2 then 3 else 0) ∧
        RegsBut [Bar.MEM_CXL_CTL.key l 0, Bar.MEM_CXL_STATUS.key l 0] d e ∧ MemorySame d e) ∧
    (s.isRunning → l < 8 → state d = 3 → d.linkUsed l = 0 →
      Completes (.cxlDrainDone l) s fun e =>
        state e = 0 ∧ RegsBut [Bar.MEM_CXL_STATUS.key l 0] d e ∧ RestSame d e) ∧
    (s.isRunning → l < 8 → (state d = 2 ∨ state d = 3) → one → isT1 h = false → linkOf h = l →
      Completes (.cxlLinkFailure l) s fun e =>
        state e = 4 ∧ Records d e Blk.mem 2 ∧
        e.pool.pages = [(n, { pg with home := none, poisoned := true, dirty := false })])

/-- R122, R126, R134, R135, R136, R137, R139, R140, R141, R142, R143, R144, R216: objects and their pages. CREATE enters an
object in the lowest free entry and backs every page; DESTROY takes the object away at once and is done when no page of it is
in use any more and all are freed; SET_POLICY changes the policy;
PROMOTE starts to copy a page to a free tier-1 frame and DEMOTE drops a clean copy at once. When a page copy ends the
page reads as before, unless a burst or a hold keeps its map from switching, and after a copy-on-write the working page is served by the new frame and every other page by the
frame it had. A window is enabled with its clamped values or disabled, and a layer that has loaded stands in its slot. A command of a window that is not DONE does nothing.
Choices of the model in it: assumptions 26, 29, 62. -/
def Obligations.ObjectsMoveTheirPages : Prop :=
  ∀ (s : State) (w n i c h fr src win slot cl l x0 : Nat) (d1 : Dev) (pg : Page) (cp : PageCopy) (x : Window)
    (t : WinSlot),
    let d := s.dev
    let g := d.objArg w 0
    let may : Prop := s.isReady ∧ w < 3 ∧ d.flag Bar.MEM_OBJ_RESULT_DONE w = true
    let free : Prop := may ∧ d.pool.jobs = [] ∧ d.pool.leaving = [] ∧ d.coh.txns = [] ∧ d.coh.waiting = [] ∧ d.coh.walks = []
    let byWindow (e : Dev) : Dev := if w = 0 then d.tdiGuard e else e
    let done (e : Dev) : Prop :=
      e.flag Bar.MEM_OBJ_RESULT_DONE w = true ∧ e.get Bar.MEM_OBJ_RESULT_STATUS w = Code.ok
    let al := slice g 63 56
    let die := min 2 (slice g 29 28)
    let policy := slice g 25 24
    let page := slice (d.objArg w 1) 55 16
    let pages := max 1 (slice (d.objArg w 2) 27 0)
    let mine : Prop := slice g 13 0 = n
    let result := Bar.MEM_OBJ_RESULT.key w 0
    let base := d.get Bar.MEM_OBJ_BASE_PAGE n
    let onePage : Prop := d.pool.pages = [(i, pg)] ∧ d.pool.pmap = [(base, i)] ∧ pg.home = some h ∧
      d.pool.copies = [] ∧ d.nmus.cmds = [] ∧ d.sess = [] ∧ d.get Bar.MEM_OBJ_POLICY n = 1 ∧
      d.get Bar.MEM_OBJ_PAGES n = 1 ∧ slice (d.objArg w 1) 27 0 = 0 ∧ slice (d.objArg w 2) 27 0 = 1 ∧ d.objOf base = some n
    let moved : Dev := { d with pool := { d.pool with copies := kvPut d.pool.copies i { cp with ready := true } } }
    let after := moved.endCopy i
    let place := clusterBase cl + x.place slot
    (may →
      exec (.objectCreate w) s = .next { s with dev := byWindow (d.objectCreate w) } ∧
      exec (.objectDestroy w) s = .next { s with dev := byWindow (d.objectDestroy w) } ∧
      exec (.setPolicy w) s = .next { s with dev := byWindow (d.setPolicy w) } ∧
      exec (.promote w) s = .next { s with dev := byWindow (d.moveObject w 0) } ∧
      exec (.demote w) s = .next { s with dev := byWindow (d.moveObject w 1) } ∧
      exec (.window w) s = .next { s with dev := byWindow (d.windowCmd w) }) ∧
    (d.flag Bar.MEM_OBJ_RESULT_DONE w = false ∨ 3 ≤ w →
      exec (.objectCreate w) s = .next s ∧ exec (.objectDestroy w) s = .next s ∧ exec (.setPolicy w) s = .next s ∧
      exec (.promote w) s = .next s ∧ exec (.demote w) s = .next s ∧ exec (.window w) s = .next s) ∧
    (s.isRunning → exec (.windowLayerLoaded win slot) s = .next { s with dev := d.layerLoaded win slot }) ∧
    (kvGet? d.pool.wins win = none → exec (.windowLayerLoaded win slot) s = .next s) ∧
    (free → d.inReset al = false → d.disabled al = false → d.spansOk al page pages = true →
      d.overlapsObject page pages = false → d.freeObj = some n →
      (if policy = 3 then some d else d.allocPages (homeT1 policy (slice g 16 16)) die al page pages 0) = some d1 →
      Completes (.objectCreate w) s fun e =>
        done e ∧ e.get Bar.MEM_OBJ_RESULT_OBJ w = n ∧ e.pool.objs = setIns n d.pool.objs ∧
        e.flag Bar.MEM_OBJ_VALID n = true ∧ e.get Bar.MEM_OBJ_ALLOT n = al ∧ e.get Bar.MEM_OBJ_POLICY n = policy ∧
        e.get Bar.MEM_OBJ_HOME_DIE n = die ∧ e.get Bar.MEM_OBJ_BASE_PAGE n = page ∧
        e.get Bar.MEM_OBJ_PAGES n = pages ∧ (policy ≠ 3 → ∀ j, j < pages → (e.frameOf (page + j)).isSome = true)) ∧
    (free → mine → d.objCheck n true = none → (∃ j, j < d.get Bar.MEM_OBJ_PAGES n ∧ (d.pageId (base + j)).isSome = true ∧
        d.pageBusy (base + j) = true) →
      Completes (.objectDestroy w) s fun e =>
        e.flag Bar.MEM_OBJ_RESULT_DONE w = false ∧ e.flag Bar.MEM_OBJ_VALID n = false ∧
        e.pool.objs = setDel n d.pool.objs) ∧
    (free → mine → d.objCheck n true = none → (∀ j, j < d.get Bar.MEM_OBJ_PAGES n → d.pageBusy (base + j) = false) →
      Completes (.objectDestroy w) s fun e =>
        done e ∧ e.flag Bar.MEM_OBJ_VALID n = false ∧ e.pool.objs = setDel n d.pool.objs ∧
        (∀ j, j < d.get Bar.MEM_OBJ_PAGES n → e.pageId (base + j) = none)) ∧
    (free → mine → d.objCheck n true = none → policy ≠ 3 → d.get Bar.MEM_OBJ_POLICY n ≠ 3 → d.noPages →
      Completes (.setPolicy w) s fun e =>
        done e ∧ e.get Bar.MEM_OBJ_POLICY n = policy ∧ RegsBut [Bar.MEM_OBJ.key n 0, result] d e ∧ MemorySame d e) ∧
    (free → mine → d.objCheck n false = none → onePage → pg.copy = none →
      (d.allocT1 (d.get Bar.MEM_OBJ_HOME_DIE n) 0 (d.get Bar.MEM_OBJ_ALLOT n)).map Prod.fst = some fr →
      Completes (.promote w) s fun e =>
        e.flag Bar.MEM_OBJ_RESULT_DONE w = false ∧ e.pool.copies = [(i, ⟨0, fr, none, base, false⟩)] ∧
        e.pool.pages = d.pool.pages ∧ MemorySame d e) ∧
    (free → mine → d.objCheck n false = none → onePage → pg.copy = some c → pg.dirty = false →
      Completes (.demote w) s fun e =>
        done e ∧ e.pool.pages = [(i, { pg with copy := none })] ∧ e.pool.pmap = d.pool.pmap ∧ e.pool.copies = []) ∧
    (free → mine → d.objCheck n true = none → slice g 55 55 = 1 →
      d.disabled (d.get Bar.MEM_OBJ_ALLOT n) = false → d.get Bar.MEM_OBJ_POLICY n = 2 →
      d.windowOwned (d.windowOf n (d.objArg w 1)) = true →
      Completes (.window w) s fun e =>
        done e ∧ e.pool.wins = kvPut d.pool.wins (slice g 37 32) (d.windowOf n (d.objArg w 1)) ∧
        RegsBut [result] d e ∧ MemorySame d e) ∧
    (free → mine → d.objCheck n true = none → slice g 55 55 = 0 → d.pool.wins = [(slice g 37 32, x)] →
      x.slots.any WinSlot.loading = false →
      Completes (.window w) s fun e => done e ∧ e.pool.wins = [] ∧ RegsBut [result] d e ∧ MemorySame d e) ∧
    (s.isRunning → d.pool.wins = [(win, x)] → x.slots[slot]? = some t → t.layer = some l → t.loaded = false →
      x.enabled = true → maskList x.mask = [cl] → x.split = false → x.place slot + 65536 * x.slice ≤ 2 ^ 24 →
      (∀ y, y ∈ banksOf place (65536 * x.slice) → d.mayUse x.allot y = true ∧ d.bankCold y = false) → d.banks.bank = [] →
      d.banks.march = [] → d.banks.tbt = none → d.banks.parcels = [] → d.coh.txns = [] → d.coh.dir = [] →
      d.nmus.burst = [] → d.pool.flaws = [] →
      Completes (.windowLayerLoaded win slot) s fun e =>
        e.pool.wins = [(win, { x with slots := x.slots.set slot { t with loaded := true } })] ∧ e.pool.mem = d.pool.mem ∧
        ∀ j, j < 65536 * x.slice → e.spadByte (place + j) =
          d.poolByte (65536 * d.get Bar.MEM_OBJ_BASE_PAGE x.obj + 65536 * (l * x.slice) + j)) ∧
    (s.isRunning → d.copyOf x0 = some (i, cp) → d.copyWaits i cp = true →
      (cp.kind = 4 → exec (.cowCopyDone x0) s = .next { s with dev := moved }) ∧
      (cp.kind ≠ 4 → exec (.pageCopyDone x0) s = .next { s with dev := moved })) ∧
    (d.copyOf x0 = none → exec (.cowCopyDone x0) s = .next s ∧ exec (.pageCopyDone x0) s = .next s) ∧
    (d.copyOf x0 = some (i, cp) →
      (cp.kind ≠ 4 → exec (.cowCopyDone x0) s = .next s) ∧ (cp.kind = 4 → exec (.pageCopyDone x0) s = .next s)) ∧
    (s.isRunning → d.copyOf x0 = some (i, cp) → cp.kind < 4 → d.copyWaits i cp = false →
      exec (.pageCopyDone x0) s = .next { s with dev := after.pump.retry }) ∧
    (d.pageId x0 = some i → kvGet? d.pool.copies i = some cp → cp.kind < 4 → kvGet? d.pool.pages i = some pg →
      pg.frame = some src → cp.dst ≠ src → (cp.kind = 3 → pg.copy ≠ some cp.dst ∧ pg.home ≠ some cp.dst) →
      (cp.kind = 1 → pg.home = some cp.dst) → (cp.kind = 2 → pg.copy = none) → memWf d.pool.mem = true →
      kvGet? after.pool.copies i = none ∧ after.frameOf x0 = some cp.dst ∧
      ∀ j, j < 65536 → after.poolByte (65536 * x0 + j) = d.poolByte (65536 * x0 + j)) ∧
    (s.isRunning → d.copyOf x0 = some (i, cp) → cp.kind = 4 → d.copyWaits i cp = false →
      exec (.cowCopyDone x0) s = .next { s with dev :=
        (match (after.objOf cp.owner).bind after.workRegion with
          | some r => after.bump Bar.VER_REGION_COW_PAGES 1 r
          | none => after).pump.retry }) ∧
    (kvGet? d.pool.copies i = some cp → cp.kind = 4 → kvGet? d.pool.pages i = some pg → pg.frame = some src →
      (∀ y, d.pageId y ≠ some d.pool.nextPage) →
      after.frameOf cp.owner = some cp.dst ∧ (∀ y, y ≠ cp.owner → after.frameOf y = d.frameOf y))

/-- R144, R149, R151, R155, R156, R157, R158, R160, R161, R162, R163: scratchpad banks. A write of a bank's register hands the
bank over, with the other seven when it is a core's, but one that a window uses refuses, and one under a destructive march
waits for its end. The hand-over ends with the bank wiped, unless it was FREE and kept its contents, and OWNED or FREE. A bank
enters cold frame on request or after IDLE_US, and wakes with its contents, or with poison where VDD_RET lost them. A march
runs where R160 admits it; a destructive one leaves zeros, a failing row takes a spare and is recorded. The background test
answers pass and leaves the bytes, or the first failing unit, with undefined bytes in the region. A command that finds nothing
of its kind to act on does nothing. Choices of the model in it: assumptions 27, 30, 77. -/
def Obligations.BanksChangeHandsAndAreTested : Prop :=
  ∀ (s : State) (b : BankId) (c k x v row u off : Nat) (rows words : List Nat) (fail : Option Nat) (m : March),
    let d := s.dev
    let key := match b with
      | .cluster c b => Bar.CLU_BANK.key c b
      | .core c k _ => Bar.CLU_CORE_OWN.key c k
    let wiped (e : Dev) : Prop := e.banks.mem = memClear d.banks.mem (bankStart b) (bankSize b)
    let keeps := (d.bank b).wasFree && !d.bankLost b
    let given : Nat := if d.bankAssign b = 1 then 1 else 0
    let used (c x : Nat) : Prop := b = .cluster c x ∧ d.bankAssign b = 1 ∧ d.windowBank c x = true
    let rewritten : Prop := s.isReady ∧ bankValid b = true ∧ slice v 60 60 = 0 ∧ slice v 59 59 = 0 ∧ d.ownState b ≠ 2 ∧
      (∀ y, y ∈ bankGroup b → d.bankState y ≠ 3) ∧ d.ownState b ≠ 3 ∧
      (slice v 8 8 ≠ d.bankAssign b ∨ slice v 7 0 ≠ d.bankOwner b) ∧ d.validGroups = []
    let idle := d.get Bar.CLU_COLD_CFG_IDLE_US
    let mayCool : Prop := bankValid b = true ∧ d.bankCold b = false ∧ d.bankState b ≠ 2 ∧ d.bankInUse b = false ∧
      (d.bankGet Bar.CLU_BANK_COLD_REQ Bar.CLU_CORE_OWN_COLD_REQ b = 1 ∨
        (idle ≠ 0 ∧ (d.bank b).lastUse + 1000 * idle ≤ d.now))
    let kind := slice v 11 11
    let target := marchBank kind c (slice v 9 6) (if kind = 1 then min 7 (slice v 5 0) else slice v 5 0)
    let preserves : Bool := slice v 12 12 == 1
    let marchOk : Prop := d.flag Bar.CLU_MARCH_STATUS_BUSY c = false ∧ d.passHolds c = false ∧ d.bankState target ≠ 2 ∧
      d.bankState target ≠ 3 ∧ (preserves = true ∨ d.bankState target = 0)
    let tbtKind := slice v 31 31
    let tbtBank := marchBank tbtKind (slice v 35 32) (slice v 30 27)
      (if tbtKind = 1 then min 7 (slice v 26 21) else slice v 26 21)
    let tbtOk : Prop := d.flag Bar.CLU_TBT_STATUS_BUSY = false ∧ d.bankState tbtBank ≠ 2 ∧ d.bankState tbtBank ≠ 3 ∧
      d.marchOn tbtBank = none ∧ d.otherMarch tbtBank = false
    let res (e : Dev) : Nat := e.get Bar.CLU_MARCH_STATUS_RESULT c
    (s.isReady → bankValid b = true →
      exec (.bankOwnershipWrite b v) s = .next { s with dev := d.tdiGuard ((d.writeBank b v).checkGroups) }) ∧
    (s.isReady → c < 16 → exec (.marchStart c v) s = .next { s with dev := d.tdiGuard (d.marchStart c v) }) ∧
    (s.isReady → exec (.tbtStart v) s = .next { s with dev := d.tdiGuard (d.tbtStart v) }) ∧
    (s.isRunning → bankValid b = true →
      exec (.bankHandoverDone b) s = .next { s with dev := d.handoverDone b } ∧
      exec (.coldFrameWakeDone b) s = .next { s with dev := d.wakeServed b }) ∧
    (s.isRunning →
      exec (.marchDone c rows words) s = .next { s with dev := d.marchDone c rows words } ∧
      exec (.tbtDone fail) s = .next { s with dev := d.tbtDone fail }) ∧
    (bankValid b = false → exec (.bankOwnershipWrite b v) s = .next s ∧ exec (.bankHandoverDone b) s = .next s) ∧
    (16 ≤ c → exec (.marchStart c v) s = .next s) ∧
    (kvGet? d.banks.march c = none → exec (.marchDone c rows words) s = .next s) ∧
    (d.banks.tbt = none → exec (.tbtDone fail) s = .next s) ∧
    (rewritten → d.groupMarch b = none → (∀ c x, ¬used c x) →
      Completes (.bankOwnershipWrite b v) s fun e =>
        e.ownState b = 2 ∧ (∀ y, y ∈ bankGroup b → e.bankState y = 2) ∧ e.bankAssign b = slice v 8 8 ∧
        e.bankOwner b = slice v 7 0 ∧ RegsBut [key] d e ∧ MemorySame d e) ∧
    (rewritten → used c x →
      Completes (.bankOwnershipWrite b v) s fun e =>
        e.bankState b = d.bankState b ∧ e.bankAssign b = d.bankAssign b ∧ e.bankOwner b = d.bankOwner b ∧
        e.flag Bar.CLU_BANK_REFUSED c x = true ∧ RegsBut [key] d e ∧ MemorySame d e) ∧
    (rewritten → d.groupMarch b = some m → m.preserving = false → (∀ c x, ¬used c x) →
      Completes (.bankOwnershipWrite b v) s fun e =>
        (e.bank m.bank).want = some (slice v 8 8, slice v 7 0) ∧ e.bankAssign b = d.bankAssign b ∧
        e.bankOwner b = d.bankOwner b ∧ RegsBut [key] d e ∧ MemorySame d e) ∧
    (s.isRunning → b = .cluster c x → bankValid b = true → d.bankState b = 2 → d.groupTest b = false →
      Completes (.bankHandoverDone b) s fun e =>
        e.bankState b = given ∧ e.bankCold b = false ∧
        (keeps = true → e.banks.mem = (d.wakeNow b).banks.mem ∧ e.banks.poison = (d.wakeNow b).banks.poison) ∧
        (keeps = false → wiped e ∧ e.bankLost b = false) ∧ RegsBut [key] d e ∧ e.pool = d.pool) ∧
    (s.isRunning → b = .core c k x → bankValid b = true → (∀ y, y ∈ bankGroup b → d.bankState y = 2) →
      d.groupTest b = false → d.coreBusy (16 * c + k) = false →
      Completes (.bankHandoverDone b) s fun e =>
        e.ownState b = given ∧ (∀ y, y ∈ bankGroup b → e.bankState y = given ∧ e.bankCold y = false) ∧
        RegsBut [key] d e ∧ e.pool = d.pool) ∧
    (d.groupTest b = true ∨ (b = .core c k x ∧ d.coreBusy (16 * c + k) = true) → exec (.bankHandoverDone b) s = .next s) ∧
    (s.isRunning → mayCool →
      Completes (.coldFrameEntry b) s fun e => e.bankCold b = true ∧ RegsBut [key] d e ∧ MemorySame d e ∧ e.pool = d.pool) ∧
    (¬mayCool → exec (.coldFrameEntry b) s = .next s) ∧
    (s.isRunning → bankValid b = true → d.bankCold b = true → (d.bank b).waking = true → d.units = [] →
      Completes (.coldFrameWakeDone b) s fun e =>
        e.bankCold b = false ∧ (e.bank b).waking = false ∧ RegsBut [key] d e ∧ ((d.bank b).gone = false → MemorySame d e) ∧
        ((d.bank b).gone = true → ∀ w, bankStart b ≤ 8 * w → 8 * w < bankStart b + bankSize b → w ∈ e.banks.poison)) ∧
    (bankValid b = false ∨ d.bankCold b = false ∨ (d.bank b).waking = false →
      exec (.coldFrameWakeDone b) s = .next s) ∧
    (s.isReady → c < 16 → slice v 31 31 = 1 → marchOk → d.bankCold target = false → Completes (.marchStart c v) s fun e =>
      e.flag Bar.CLU_MARCH_STATUS_BUSY c = true ∧ e.banks.march = kvPut d.banks.march c ⟨target, preserves, 0⟩ ∧
      RegsBut [Bar.CLU_MARCH_CTL.key c 0, Bar.CLU_MARCH_STATUS.key c 0] d e ∧ MemorySame d e) ∧
    (s.isReady → c < 16 → slice v 31 31 = 1 → ¬marchOk → Completes (.marchStart c v) s fun e =>
      res e = 3 ∧ e.flag Bar.CLU_MARCH_STATUS_BUSY c = d.flag Bar.CLU_MARCH_STATUS_BUSY c ∧ e.banks = d.banks) ∧
    (s.isRunning → c < 16 → d.banks.march = [(c, m)] → m.bank = b → (d.bank b).want = none → b = .cluster c x → x < 64 →
      d.banks.parcels = [] →
      (m.preserving = true → Completes (.marchDone c [] []) s fun e =>
        res e = 0 ∧ e.flag Bar.CLU_MARCH_STATUS_BUSY c = false ∧ e.banks.march = [] ∧ MemorySame d e ∧
        RegsBut [Bar.CLU_MARCH_STATUS.key c 0] d e) ∧
      (m.preserving = false → Completes (.marchDone c [] []) s fun e =>
        res e = 0 ∧ e.flag Bar.CLU_MARCH_STATUS_BUSY c = false ∧ wiped e ∧ e.banks.march = [] ∧
        RegsBut [Bar.CLU_MARCH_STATUS.key c 0] d e) ∧
      (m.preserving = false → d.get Bar.CLU_BANK_SPARES_LEFT c x ≠ 0 → Completes (.marchDone c [row] []) s fun e =>
        res e = 1 ∧ e.get Bar.CLU_BANK_SPARES_LEFT c x = d.get Bar.CLU_BANK_SPARES_LEFT c x - 1 ∧
        e.bankState b = d.bankState b ∧ wiped e ∧ Records d e Blk.clu 6) ∧
      (m.preserving = false → d.get Bar.CLU_BANK_SPARES_LEFT c x = 0 → Completes (.marchDone c [row] []) s fun e =>
        res e = 2 ∧ e.bankState b = 3 ∧ row ∈ (e.bank b).failedRows ∧ Records d e Blk.clu 7)) ∧
    (s.isReady → slice v 63 63 = 1 → tbtOk → d.bankCold tbtBank = false →
      Completes (.tbtStart v) s fun e =>
        e.flag Bar.CLU_TBT_STATUS_BUSY = true ∧ e.banks.tbt.map Prod.fst = some tbtBank ∧
        RegsBut [Bar.CLU_TBT_CTL.base, Bar.CLU_TBT_STATUS.base] d e ∧ MemorySame d e) ∧
    (s.isReady → slice v 63 63 = 1 → ¬tbtOk →
      Completes (.tbtStart v) s fun e => e.get Bar.CLU_TBT_STATUS_RESULT = 3 ∧ e.banks = d.banks) ∧
    (s.isRunning → d.banks.tbt = some (b, off) → d.banks.parcels = [] →
      (Completes (.tbtDone none) s fun e =>
        e.flag Bar.CLU_TBT_STATUS_BUSY = false ∧ e.get Bar.CLU_TBT_STATUS_RESULT = 0 ∧ e.banks.tbt = none ∧
        RegsBut [Bar.CLU_TBT_STATUS.base] d e ∧ MemorySame d e) ∧
      (off + 4096 ≤ 2 ^ 18 → Completes (.tbtDone (some u)) s fun e =>
        e.flag Bar.CLU_TBT_STATUS_BUSY = false ∧ e.get Bar.CLU_TBT_STATUS_RESULT = 1 ∧
        e.get Bar.CLU_TBT_STATUS_FAIL_OFFSET = off + 64 * (u % 64) ∧ Records d e Blk.clu 8 ∧
        ∀ a, bankStart b + off ≤ a → a < bankStart b + off + 4096 → e.spadByte a = Config.freeByte d.free a))

/-- R7, R170, R172, R173, R174, R175, R176, R178, R180, R182, R183: near-memory units. A command of a free window, or of the
tier and region logic, that R172 does not refuse enters the dispatcher with its clamped LINES, and the window's DONE is 0; a
refused one is reported at once with its status; a full dispatcher, a window that is not DONE and a word with another OP do
nothing. A granted burst performs its first line: FILL stores the pattern, ATOMIC stores AOP of the old word, COMPARE counts a
mismatch. A burst's other lines follow, and its end pays the refreshes owed; a refresh that falls due in a burst is owed, and
the fourth ends the burst. A command with no line left is reported, with status OK when no line was poisoned and no failed stack
was used, and leaves the dispatcher. Choices of the model in it: assumptions 33, 76. -/
def Obligations.NearMemoryCommandsRunInBursts : Prop :=
  ∀ (s : State) (w n id fr st : Nat) (ws : List Nat) (c : NmuCmd) (b : Burst),
    let d := s.dev
    let desc := (List.range 8).map fun i => d.get Bar.NMU_CMD_DESC_WORD w i
    let doneKey := Bar.NMU_CMD_REC.key w 8
    let isDone : Prop := w < 3 ∧ d.get Bar.NMU_CMD_REC_WORD w 8 = 0x80000000
    let fits (src : Nat) (x : List Nat) : Prop :=
      d.nmuFull src = false ∧ d.nmuRefused src x = none ∧ (pagesFrom (nmuDst x) (d.nmuLines x)).filter d.shared = []
    let enters (src : Nat) (x : List Nat) (e : Dev) : Prop :=
      e.nmus.cmds = kvPut d.nmus.cmds d.nmus.next (d.nmuCmd src 0 0 0 x) ∧ e.nmus.next = d.nmus.next + 1 ∧ MemorySame d e
    let rec8 (i : Nat) (e : Dev) : Nat := e.get Bar.NMU_CMD_REC_WORD w i
    let byWindow (op : Nat) (i : Instr) : Prop :=
      (s.isReady → exec i s = .next { s with dev := if w = 0 then d.tdiGuard (d.nmuWindow w op) else d.nmuWindow w op }) ∧
      (¬isDone ∨ nmuOp desc ≠ op ∨ d.nmuFull w = true → exec i s = .next s) ∧
      (s.isReady → isDone → nmuOp desc = op → fits w desc →
        Completes i s fun e => enters w desc e ∧ rec8 8 e = 0 ∧ RegsBut [doneKey] d e) ∧
      (s.isReady → isDone → nmuOp desc = op → d.nmuFull w = false → d.nmuRefused w desc = some st →
        Completes i s fun e => e.nmus = d.nmus ∧ MemorySame d e ∧ rec8 8 e = 0x80000000 ∧
          rec8 0 e = (st * 2 ^ 24 + op * 65536 + nmuAllot desc * 256) % 2 ^ 32)
    let byLogic (op : Nat) (i : Instr) : Prop :=
      (s.isRunning → exec i s = .next { s with dev := d.nmuCommand (.logic ws) op }) ∧
      (nmuOp ws ≠ op ∨ d.nmuFull 1000 = true → exec i s = .next s) ∧
      (s.isRunning → nmuOp ws = op → fits 1000 ws → Completes i s fun e => enters 1000 ws e ∧ e.regs = d.regs)
    let ready (c : NmuCmd) : Prop := n < 384 ∧ d.nmuReady n id c = true ∧ d.nmuTurn n c.src = true
    let bursts : Prop := s.isRunning ∧ n < 384 ∧ d.nmus.cmds = [(id, c)] ∧ d.nmus.burst = [] ∧ c.left = [0] ∧
      d.burstLines n c = [0] ∧ d.nmuHeld c = false ∧ (nmuExempt c.src c.words = true ∨ d.inReset (nmuAllot c.words) = false) ∧
      d.frameOf (pageOf (nmuDst c.words)) = some fr
    let cell := 65536 * fr + nmuDst c.words % 65536
    let size := nmuSize c.words
    let old := leNat (d.poolBytes (nmuDst c.words) size)
    let behind (e : Dev) (parts : Kv Nat) (mism : Nat) : Prop :=
      e.nmus.burst = [(n, {
        cmd := id, start := d.now, pace := 1496, done := 1, todo := [], chans := n :: d.lineChans c [0] })] ∧
      e.banks = d.banks ∧ ∃ c1 : NmuCmd, e.nmus.cmds = [(id, c1)] ∧ c1.left = [] ∧ c1.done = c.done + 1 ∧
        c1.poison = c.poison ∧ c1.parts = parts ∧ c1.mism = mism
    let owed := kvGetD d.nmus.owed n 0 + 1
    let idle : Prop := d.pool.copies = [] ∧ d.coh.txns = [] ∧ d.coh.waiting = [] ∧ d.coh.walks = []
    let freed (e : Dev) : Prop := kvGet? e.nmus.burst n = none ∧ kvGetD e.nmus.owed n 0 = 0
    byWindow 1 (.nmuFill (.window w)) ∧ byWindow 2 (.nmuCopy (.window w)) ∧ byWindow 3 (.nmuCompare (.window w)) ∧
    byWindow 4 (.nmuReduce (.window w)) ∧ byWindow 5 (.nmuAtomic (.window w)) ∧
    byLogic 1 (.nmuFill (.logic ws)) ∧ byLogic 2 (.nmuCopy (.logic ws)) ∧ byLogic 3 (.nmuCompare (.logic ws)) ∧
    byLogic 4 (.nmuReduce (.logic ws)) ∧ byLogic 5 (.nmuAtomic (.logic ws)) ∧
    (s.isRunning → n < 384 → exec (.nmuBurstGrant n id) s = .next { s with dev := d.burstGrant n id }) ∧
    (kvGet? d.nmus.cmds id = some c → ¬ready c → exec (.nmuBurstGrant n id) s = .next s) ∧
    (kvGet? d.nmus.cmds id = none → exec (.nmuBurstGrant n id) s = .next s ∧ exec (.nmuCommandComplete id) s = .next s) ∧
    (bursts → nmuOp c.words = 1 →
      Completes (.nmuBurstGrant n id) s fun e =>
        behind e c.parts c.mism ∧ e.pool.mem = memWrites d.pool.mem cell (patternLine (nmuOperand c.words)) ∧
        e.poolBytes (nmuDst c.words) 128 = patternLine (nmuOperand c.words)) ∧
    (bursts → nmuOp c.words = 3 → nmuFlags c.words % 2 = 1 → d.linePoisoned (nmuDst c.words / 128) = false →
      Completes (.nmuBurstGrant n id) s fun e =>
        behind e c.parts (c.mism + if d.lineBytes (nmuDst c.words / 128) = patternLine (nmuOperand c.words) then 0 else 1) ∧
        e.pool.mem = d.pool.mem) ∧
    (bursts → nmuOp c.words = 5 → size ≤ 8 → d.rangePoisoned (nmuDst c.words) size = false →
      Completes (.nmuBurstGrant n id) s fun e =>
        behind e [(0, old)] c.mism ∧ e.pool.mem = memWrites d.pool.mem cell (toLe size
          (aop (nmuType c.words) size old (nmuOperand c.words % 256 ^ size) (nmuCompare c.words % 256 ^ size)))) ∧
    (s.isRunning → kvGet? d.nmus.burst n = some b →
      exec (.nmuBurstEnd n) s = .next { s with dev := (d.burstDo n b b.todo).burstClose n }) ∧
    (s.isRunning → kvGet? d.nmus.burst n = some b → b.todo = [] → idle → d.poolQuiet →
      Completes (.nmuBurstEnd n) s fun e => freed e ∧ MemorySame d e ∧ e.regs = d.regs) ∧
    (kvGet? d.nmus.burst n = none → exec (.nmuBurstEnd n) s = .next s ∧ exec (.refreshDue n) s = .next s) ∧
    (384 ≤ n → exec (.nmuBurstGrant n id) s = .next s ∧ exec (.refreshDue n) s = .next s) ∧
    (s.isRunning → n < 384 → exec (.refreshDue n) s = .next { s with dev := d.refreshDue n }) ∧
    (s.isRunning → n < 384 → kvGet? d.nmus.burst n = some b → (4 ≤ owed → d.burstDue b = [] ∧ idle) →
      Completes (.refreshDue n) s fun e =>
        e.get Bar.NMU_STAT_REF_OWED_MAX n = max (d.get Bar.NMU_STAT_REF_OWED_MAX n) (min 4 owed) ∧
        (4 ≤ owed → freed e) ∧ (owed < 4 → kvGet? e.nmus.burst n = some b ∧ kvGetD e.nmus.owed n 0 = owed) ∧
        RegsBut [Bar.NMU_STAT.key n 0] d e ∧ MemorySame d e) ∧
    (s.isRunning → exec (.nmuCommandComplete id) s = .next { s with dev := d.nmuComplete id }) ∧
    (d.nmus.burst.any (fun e => e.2.cmd == id) = true → exec (.nmuCommandComplete id) s = .next s) ∧
    (s.isRunning → d.nmus.cmds = [(id, c)] → d.nmus.burst = [] → c.left = [] → c.src = w → w < 3 →
      d.inReset (nmuAllot c.words) = false → nmuOp c.words ≠ 4 → nmuOp c.words ≠ 5 → d.poolQuiet → idle →
      Completes (.nmuCommandComplete id) s fun e =>
        e.nmus.cmds = [] ∧ rec8 8 e = 0x80000000 ∧ rec8 1 e = c.done % 2 ^ 32 ∧ rec8 3 e = c.poison % 2 ^ 32 ∧
        rec8 0 e = (if c.poison = 0 ∧ c.hit = false then Code.ok else Code.poison) * 2 ^ 24 + nmuOp c.words * 65536 +
          nmuAllot c.words * 256 ∧
        MemorySame d e)

/-- R206, R207, R210, R211, R212, R213, R214, R219: versioned regions. CREATE_REGION binds a working object and a view object
of 16 times its pages. OPEN counts an open of the current version and answers its slot and number; CLOSE takes one away,
and an old version without opens retires. PUBLISH holds the region and recalls its M lines; when they are in, the next
version, numbered one up, is current in the lowest free slot and its pages are the working pages, shared. A retired
slot's pages are let go. DESTROY_REGION frees a region without live versions, with both objects. A command of a window that is
not DONE, and an end of a recall that has none, do nothing.
Choices of the model in it: assumption 39. -/
def Obligations.RegionsPublishOpenAndRetire : Prop :=
  ∀ (s : State) (w r v sl : Nat) (who : Caller) (p sh : Bool),
    let d := s.dev
    let arg := d.verArg w 0
    let al := slice arg 63 56
    let n := slice arg 13 0
    let page := slice (d.verArg w 1) 55 16
    let work := d.get Bar.VER_REGION_WORK_OBJ r
    let view := d.get Bar.VER_REGION_VIEW_OBJ r
    let cur := d.get Bar.VER_REGION_CUR_VERSION r
    let slot := d.get Bar.VER_REGION_CUR_SLOT r
    let free : Prop := s.isReady ∧ w < 3 ∧ d.flag Bar.VER_RESULT_DONE w = true
    let answer (e : Dev) (st rg so ve : Nat) : Prop := e.flag Bar.VER_RESULT_DONE w = true ∧
      e.get Bar.VER_RESULT_STATUS w = st ∧ e.get Bar.VER_RESULT_REGION w = rg ∧ e.get Bar.VER_RESULT_SLOT w = so ∧
      e.get Bar.VER_RESULT_VERSION w = ve
    let names : Prop := slice arg 43 32 = r ∧ kvGet? d.ver.pubs r = none ∧ d.inReset al = false ∧
      d.regionValid r = true ∧ d.get Bar.VER_REGION_ALLOT r = al
    let result := Bar.VER_RESULT.key w 0
    let quiet : Prop := d.poolQuiet ∧ d.coh.txns = [] ∧ d.coh.waiting = [] ∧ d.coh.walks = []
    let byWindow (e : Dev) : Dev := if w = 0 then d.tdiGuard e else e
    let stays : Prop := d.poolQuiet ∧ d.coh.waiting = [] ∧ d.coh.txns = [] ∧ d.ver.waiting = [] ∧ d.ver.creates = []
    let next := if cur = 2 ^ 32 - 1 then 1 else cur + 1
    (free →
      exec (.createRegion w) s = .next { s with dev := byWindow (d.createRegion w) } ∧
      exec (.regionOpen w) s = .next { s with dev := byWindow (d.windowOp w 3) } ∧
      exec (.regionClose w) s = .next { s with dev := byWindow (d.windowOp w 4) } ∧
      exec (.publish w) s = .next { s with dev := byWindow (d.windowOp w 5) } ∧
      exec (.destroyRegion w) s = .next { s with dev := byWindow (d.destroyRegion w) }) ∧
    (d.flag Bar.VER_RESULT_DONE w = false ∨ 3 ≤ w →
      exec (.createRegion w) s = .next s ∧ exec (.regionOpen w) s = .next s ∧ exec (.regionClose w) s = .next s ∧
      exec (.publish w) s = .next s ∧ exec (.destroyRegion w) s = .next s) ∧
    (s.isRunning → r < 4096 →
      exec (.publishRecallDone r) s = .next { s with dev := (d.publishStep r).retryCreates } ∧
      (sl < 16 → exec (.versionRetireDone r sl) s = .next { s with dev := d.retireDone r sl })) ∧
    (kvGet? d.ver.pubs r = none → d.ver.creates = [] → exec (.publishRecallDone r) s = .next s) ∧
    (d.get Bar.VER_SLOT_STATE r sl ≠ 2 ∨ d.walkDone (.retire r sl) = false → exec (.versionRetireDone r sl) s = .next s) ∧
    (free → d.inReset al = false → d.disabled al = false → d.objValid n = true → d.get Bar.MEM_OBJ_ALLOT n = al →
      d.get Bar.MEM_OBJ_POLICY n < 2 → d.flag Bar.MEM_OBJ_VERSIONED n = false →
      d.spansOk al page (16 * d.get Bar.MEM_OBJ_PAGES n) = true → 16 * d.get Bar.MEM_OBJ_PAGES n < 2 ^ 28 →
      d.overlapsObject page (16 * d.get Bar.MEM_OBJ_PAGES n) = false → d.freeObj = some v → r < 4096 →
      d.flag Bar.VER_REGION_VALID r = false → (∀ x, x < r → d.flag Bar.VER_REGION_VALID x = true) →
      Completes (.createRegion w) s fun e =>
        answer e Code.ok r 0 0 ∧ e.flag Bar.VER_REGION_VALID r = true ∧ e.get Bar.VER_REGION_ALLOT r = al ∧
        e.get Bar.VER_REGION_WORK_OBJ r = n ∧ e.get Bar.VER_REGION_VIEW_OBJ r = v ∧
        e.get Bar.VER_REGION_CUR_VERSION r = 0 ∧ e.flag Bar.MEM_OBJ_VERSIONED n = true ∧
        e.flag Bar.MEM_OBJ_VERSIONED v = true ∧ e.get Bar.MEM_OBJ_BASE_PAGE v = page ∧
        e.get Bar.MEM_OBJ_PAGES v = 16 * d.get Bar.MEM_OBJ_PAGES n ∧ e.pool.objs = setIns v d.pool.objs ∧
        MemorySame d e) ∧
    (free → names → d.disabled al = false → cur ≠ 0 → d.get Bar.VER_SLOT_OPENS r slot ≠ 16777215 →
      Completes (.regionOpen w) s fun e =>
        answer e Code.ok r slot cur ∧ e.get Bar.VER_SLOT_OPENS r slot = d.get Bar.VER_SLOT_OPENS r slot + 1 ∧
        RegsBut [result, Bar.VER_SLOT.key r slot] d e ∧ MemorySame d e) ∧
    (free → names → sl = slice arg 27 24 → d.get Bar.VER_SLOT_OPENS r sl ≠ 0 →
      ((d.get Bar.VER_SLOT_OPENS r sl ≠ 1 ∨ (cur ≠ 0 ∧ slot = sl)) → Completes (.regionClose w) s fun e =>
        answer e Code.ok r sl (d.get Bar.VER_SLOT_VERSION r sl) ∧
        e.get Bar.VER_SLOT_OPENS r sl = d.get Bar.VER_SLOT_OPENS r sl - 1 ∧
        e.get Bar.VER_SLOT_STATE r sl = d.get Bar.VER_SLOT_STATE r sl ∧
        RegsBut [result, Bar.VER_SLOT.key r sl] d e ∧ MemorySame d e) ∧
      (d.get Bar.VER_SLOT_OPENS r sl = 1 → d.get Bar.VER_SLOT_STATE r sl = 1 → (cur = 0 ∨ slot ≠ sl) → d.coh.dir = [] →
        d.coh.walks = [] → Completes (.regionClose w) s fun e =>
        answer e Code.ok r sl (d.get Bar.VER_SLOT_VERSION r sl) ∧ e.get Bar.VER_SLOT_STATE r sl = 2 ∧
        (e.get Bar.VER_REGION_LIVE_MASK r).testBit sl = false ∧ e.coh.walks = [⟨.retire r sl, false, [], false⟩] ∧
        MemorySame d e)) ∧
    (s.isRunning → r < 4096 → sl < 16 → d.get Bar.VER_SLOT_STATE r sl = 2 → d.walkDone (.retire r sl) = true → d.coh.walks = [⟨.retire r sl, sh, [], p⟩] →
      kvGet? d.ver.destroy r = none → d.pool.jobs = [] → d.pool.leaving = [] → d.coh.txns = [] → d.coh.waiting = [] →
      Completes (.versionRetireDone r sl) s fun e =>
        e.get Bar.VER_SLOT_STATE r sl = 0 ∧ (∀ j, j < d.workPages r → e.pageId (d.slotPage r sl + j) = none) ∧
        e.coh.walks = []) ∧
    (free → names → d.disabled al = false → slice arg 16 16 = 0 → sl < 16 → d.get Bar.VER_SLOT_STATE r sl = 0 →
      d.drained r = true → d.coh.dir = [] → d.coh.txns = [] → d.coh.walks = [] →
      Completes (.publish w) s fun e =>
        e.flag Bar.VER_REGION_PUBLISHING r = true ∧ e.flag Bar.VER_RESULT_DONE w = false ∧
        e.ver.pubs = kvPut d.ver.pubs r (d.verCaller w, true) ∧ e.coh.walks = [⟨.publish r, true, [], false⟩] ∧
        RegsBut [result, Bar.VER_REGION.key r 0] d e ∧ MemorySame d e) ∧
    (s.isRunning → r < 4096 → d.ver.pubs = [(r, (who, true))] → who.src = w → w < 3 → stays →
      d.coh.walks = [⟨.publish r, true, [], false⟩] → d.prefixSession r = none → d.inReset who.allot = false →
      (∀ j, j < d.workPages r → d.pagePoisoned (d.workBase r + j) = false) → d.nmus.cmds = [] →
      (cur = 0 ∨ d.get Bar.VER_SLOT_OPENS r slot ≠ 0) → sl < 16 → d.get Bar.VER_SLOT_STATE r sl = 0 → slot ≠ sl →
      (∀ j, j < sl → d.get Bar.VER_SLOT_STATE r j ≠ 0) →
      (∀ j k, j < d.workPages r → k < d.workPages r → d.workBase r + j ≠ d.slotPage r sl + k) →
      Completes (.publishRecallDone r) s fun e =>
        answer e Code.ok r sl next ∧ e.get Bar.VER_REGION_CUR_VERSION r = next ∧ e.get Bar.VER_REGION_CUR_SLOT r = sl ∧
        e.get Bar.VER_SLOT_STATE r sl = 1 ∧ e.get Bar.VER_SLOT_VERSION r sl = next ∧
        e.flag Bar.VER_REGION_PUBLISHING r = false ∧ e.ver.pubs = [] ∧ e.coh.walks = [] ∧
        (∀ j, j < d.workPages r → e.pageId (d.slotPage r sl + j) = d.pageId (d.workBase r + j)) ∧ MemorySame d e) ∧
    (free → slice arg 43 32 = r → d.regionValid r = true → d.inReset (d.get Bar.VER_REGION_ALLOT r) = false →
      kvGet? d.ver.pubs r = none → (∀ j, j < 16 → d.get Bar.VER_SLOT_STATE r j = 0 ∧ d.get Bar.VER_SLOT_OPENS r j = 0) →
      quiet → d.pool.pmap = [] →
      Completes (.destroyRegion w) s fun e =>
        e.flag Bar.VER_REGION_VALID r = false ∧ e.flag Bar.MEM_OBJ_VALID work = false ∧
        e.flag Bar.MEM_OBJ_VALID view = false ∧ e.pool.objs = setDel work (setDel view d.pool.objs) ∧
        answer e Code.ok r 0 0 ∧ MemorySame d e)

/-- R78, R86, R87, R88, R90, R220, R221, R222, R225, R226, R227, R231, R239, R240: requests, program slots and invocations.
An answer ends its request: data lands and the counter of the program advances; a NAK BUSY waits 1 µs, an evicted push is
sent again, and a bound that expires lands the error value; an answer that no request waits for counts as late. LOAD reserves store, its completion places every word of the
image, UNLOAD of an idle slot frees it. An INVOKE reserves a core and lands; a whole one is dispatched with zeroed
registers; a core that has drained, or whose assembly timed out, sends its RESULT and is FREE; a run limit ends the run.
Choices of the model in it: assumptions 34, 36, 40. -/
def Obligations.RequestsAndInvocationsComplete : Prop :=
  ∀ (s : State) (f : Frame) (r : Req) (k gen ctr spad size pc id off n w c sl src : Nat) (x : Copy) (i : Inv)
    (gaps : List (Nat × Nat)),
    let d := s.dev
    let u := d.unit k
    let counter (e : Dev) (ct by' : Nat) : Prop :=
      kvGetD (e.unit k).a (ct % 16) 0 = min (kvGetD u.a (ct % 16) 0 + by') (2 ^ 48 - 1)
    let calm : Prop := d.mbr.pushes = [] ∧ d.eng.sends = [] ∧ d.coh.tierQ = []
    let answering (t : Nat) : Prop := s.isRunning ∧ f.type = t ∧ f.badTail = false ∧ d.answers f ∧ d.reqs = [(f.tag, r)] ∧
      d.pastBound r = false ∧ calm
    let late (e : Dev) : Prop := e.get Bar.LNK_MFP_DROP_LATE = min (d.get Bar.LNK_MFP_DROP_LATE + 1) 65535 ∧
      e.reqs = d.reqs ∧ e.units = d.units ∧ e.copies = d.copies ∧ MemorySame d e
    let heard (k : Dev → Frame → Dev) : Dev := afterChecks (d.recvAnswer f) k
    let byWindow (e : Dev) : Dev := if w = 0 then d.tdiGuard e else e
    let atom : Prop := r.cont = .patom k gen ctr spad size pc ∧ d.copies = [] ∧ d.holds k gen = true
    let copy : Prop := d.copies = [(id, x)] ∧ x.core = k ∧ x.gen = gen ∧ d.holds k gen = true ∧ x.todo = [] ∧ x.ready = [] ∧
      x.mcast = none
    let port := TPort.cluster (k / 16)
    let idle : UnitSt := { UnitSt.idle with gen := u.gen }
    let running (e : Dev) : Nat := e.get Bar.CLU_SLOT_RUNNING i.slot
    let ends : Prop := s.isRunning ∧ k < 256 ∧ u.inv = some i ∧ i.sess = none ∧ u.wins = [] ∧ d.poolQuiet ∧
      d.flag Bar.CLU_SLOT_UNLOADING i.slot = false ∧ d.flag Bar.SEC_ALT_FAB_EN i.allot = false
    let sends (e : Dev) (st : Nat) (bad : Bool) (bs : List Byte) : Prop :=
      e.outbox = d.outbox ++ (d.resultFrames i st i.step bad bs).map (fun f => (port, f)) ∧ e.unit k = idle ∧
      running e = running d - 1
    let arg := d.get Bar.CLU_LOAD_ARG_ARG w 0
    let mask := if slice arg 55 40 = 0 then 1 else slice arg 55 40
    let len := clampTo 1 65536 (slice arg 26 10)
    let from' := alignDown (d.get Bar.CLU_LOAD_ARG_ARG w 1 % 2 ^ 56) 8
    let loads : Prop := s.isReady ∧ w < 3 ∧ d.flag Bar.CLU_LOAD_RESULT_DONE w = true ∧ slice arg 9 0 = sl
    let done (e : Dev) : Prop :=
      e.flag Bar.CLU_LOAD_RESULT_DONE w = true ∧ e.get Bar.CLU_LOAD_RESULT_STATUS w = Code.ok
    let place := spadPlace n (4096 * d.get Bar.CLU_SLOT_IN_OFFSET (invSlot f))
    let landed := d.arriveAt place f.allot f.payload (Frame.poisonBit f)
    (s.isRunning →
      (f.type = Ty.readResp → exec (.readResp f) s = .next { s with dev := heard Dev.readResp }) ∧
      (f.type = Ty.writeAck → exec (.writeAck f) s = .next { s with dev := heard Dev.writeAck }) ∧
      (f.type = Ty.copyData → Frame.copyFlag f = true →
        exec (.copyDataPull f) s = .next { s with dev := heard Dev.copyData }) ∧
      (f.type = Ty.evictNotice → exec (.evictNotice f) s = .next { s with dev := heard Dev.evictNotice }) ∧
      (f.type = Ty.nak → exec (.nak f) s = .next { s with dev := (
        heard fun e g => e.answered g fun e r => e.naked g r) }) ∧
      (f.type = Ty.invoke → exec (.invoke f) s = .next { s with dev := (
        afterChecks (d.recv (.cluster (d.invokeCluster f)) f) fun e g => e.takeInvoke (d.invokeCluster f) g) })) ∧
    (f.type ≠ Ty.readResp → exec (.readResp f) s = .next s) ∧ (f.type ≠ Ty.writeAck → exec (.writeAck f) s = .next s) ∧
    (f.type ≠ Ty.copyData ∨ Frame.copyFlag f = false → exec (.copyDataPull f) s = .next s) ∧
    (f.type ≠ Ty.evictNotice → exec (.evictNotice f) s = .next s) ∧ (f.type ≠ Ty.nak → exec (.nak f) s = .next s) ∧
    (f.type ≠ Ty.invoke → exec (.invoke f) s = .next s) ∧
    (s.isRunning → f.type = Ty.readResp → d.answers f → kvGet? d.reqs f.tag = none →
      Completes (.readResp f) s fun e => late e) ∧
    (s.isRunning → exec (.requestTimeout f.tag) s = .next { s with dev := d.reqTimeout f.tag }) ∧
    (kvGet? d.reqs f.tag = none → exec (.requestTimeout f.tag) s = .next s) ∧
    (kvGet? d.reqs f.tag = some r → (∀ t, r.deadline = some t → d.now < t) → exec (.requestTimeout f.tag) s = .next s) ∧
    (s.isRunning → k < 256 →
      exec (.invokeAssemblyTimeout k) s = .next { s with dev := d.assemblyTimeout k } ∧
      exec (.resultSend k) s = .next { s with dev := d.resultSend k } ∧
      exec (.dispatch k) s = .next { s with dev := d.dispatchCore k } ∧
      exec (.runLimitExpiry k) s = .next { s with dev := d.limitExpires k }) ∧
    (256 ≤ k ∨ u.inv = none → exec (.invokeAssemblyTimeout k) s = .next s ∧ exec (.resultSend k) s = .next s ∧
      exec (.dispatch k) s = .next s) ∧
    (256 ≤ k ∨ (u.state ≠ 2 ∧ u.state ≠ 3) ∨ u.final.isSome = true ∨ d.now < u.limit →
      exec (.runLimitExpiry k) s = .next s) ∧
    (loads →
      exec (.load w) s = .next { s with dev := byWindow (d.loadSlot w) } ∧
      exec (.unload w) s = .next { s with dev := byWindow (d.unloadSlot w) }) ∧
    (d.flag Bar.CLU_LOAD_RESULT_DONE w = false ∨ 3 ≤ w → exec (.load w) s = .next s ∧ exec (.unload w) s = .next s) ∧
    (s.isRunning → exec (.loadComplete w) s = .next { s with dev := d.loadComplete w }) ∧
    (kvGet? d.store.loads w = none → exec (.loadComplete w) s = .next s) ∧
    (answering Ty.readResp → atom → readsData r.f = true → f.status = Code.ok →
      Completes (.readResp f) s fun e =>
        e.reqs = [] ∧ counter e ctr size ∧ e.outbox = d.outbox ∧
        (k < 256 → e.banks = (d.landAt k spad (fitBytes size f.payload) (Frame.poisonBit f)).banks)) ∧
    (answering Ty.writeAck → copy → r.cont = .chunk id gaps → acks f r = true → r.f.type = Ty.copyData → f.status = Code.ok →
      Completes (.writeAck f) s fun e =>
        e.reqs = [] ∧ e.copies = [] ∧ counter e x.ctr (f.w7 % 8192) ∧ MemorySame d e ∧ e.outbox = d.outbox) ∧
    (answering Ty.copyData → Frame.copyFlag f = true → copy → r.cont = .chunk id [(off, n)] → readsData r.f = true → k < 256 →
      x.ref = f.w7 / 65536 → Frame.addr f = x.src + off → f.len = n → n ≠ 0 → x.kind = 0 → f.status = Code.ok →
      f.payload.length = n →
      Completes (.copyDataPull f) s fun e =>
        let l := d.arriveAt (spadPlace k (x.dst + off)) x.allot f.payload (Frame.poisonBit f)
        e.reqs = [] ∧ e.copies = [] ∧ e.banks = l.2.banks ∧ counter e x.ctr l.1 ∧ e.pool = d.pool) ∧
    (answering Ty.evictNotice → copy → r.cont = .chunk id [(off, n)] → r.f.type = Ty.copyData → x.ended = false →
      kvGetD x.resent (2 * off + 1) 0 < d.get Bar.LNK_MFP_CTL_COPY_RESEND_MAX → d.flag Bar.SEC_ALT_FAB_EN r.f.allot = false →
      Completes (.evictNotice f) s fun e =>
        e.outbox = d.outbox ++ [(r.port, d.renewed r.f)] ∧
        e.reqs = [(f.tag, { r with
          f := d.renewed r.f, deadline := none, retryNs := none, waitMap := none })] ∧
        e.copies = [(id, { x with resent := kvPut x.resent (2 * off + 1) (kvGetD x.resent (2 * off + 1) 0 + 1) })] ∧ MemorySame d e) ∧
    (answering Ty.nak → atom → f.status = Code.busy →
      Completes (.nak f) s fun e =>
        e.reqs = [(f.tag, { r with naked := true, retryNs := some (d.now + 1000) })] ∧ e.outbox = d.outbox ∧
        e.units = d.units ∧ MemorySame d e ∧ e.regs = d.regs) ∧
    (s.isRunning → d.reqs = [(f.tag, r)] → calm → atom → readsData r.f = true → r.deadline = some n → n ≤ d.now →
      Completes (.requestTimeout f.tag) s fun e =>
        e.reqs = [] ∧ counter e ctr size ∧
        (k < 256 → e.banks = (d.landAt k spad (errBytes size) true).banks) ∧
        (e.unit k).flt = (u.putFlt (fltRecord Cause.fabricErr Code.timeout false 4 pc (reqAddr r.f))).flt ∧
        (e.unit k).pstat.testBit 54 = true) ∧
    (s.isRunning → f.type = Ty.invoke → c = d.invokeCluster f → d.passes (.cluster c) f → Frame.sess f = false →
      d.assembling c f = none → d.flag Bar.CLU_SLOT_LOADING (invSlot f) = false → d.slotLegal (some c) f = true →
      invIdx f = 0 → invLast f = 0 → d.pickCore c f.allot = some n → landed.1 = f.payload.length →
      Completes (.invoke f) s fun e =>
        (e.unit n).state = 1 ∧
        (e.unit n).inv = some { d.invOf f with arrived := [0], bytes := f.payload.length } ∧
        e.banks = landed.2.banks ∧ e.outbox = d.outbox ∧ e.pool = d.pool ∧
        e.get Bar.CLU_SLOT_RUNNING (invSlot f) = (d.get Bar.CLU_SLOT_RUNNING (invSlot f) + 1) % 2 ^ 32) ∧
    (ends → u.state = 1 → i.whole = false → i.deadline ≤ d.now →
      Completes (.invokeAssemblyTimeout k) s fun e => sends e Code.timeout false [] ∧ MemorySame d e) ∧
    (ends → u.state = 3 → u.final = none → u.sesStatus = none → d.outstanding k = false →
      d.spadTested k u.res.1 u.res.2 = false → (∀ b, b ∈ banksOf (spadPlace k u.res.1) u.res.2 → d.bankCold b = false) →
      Completes (.resultSend k) s fun e =>
        sends e (resultStatus u (d.resultPayload k).2.1) (d.resultPayload k).2.1 (d.resultPayload k).1 ∧ MemorySame d e) ∧
    (s.isRunning → k < 256 → u.inv = some i → i.sess = none → u.state = 1 → i.whole = true → u.final = none →
      Completes (.dispatch k) s fun e =>
        e.unit k = { UnitSt.idle with
          state := 2, gen := (u.gen + 1) % 16, inv := some { i with replay := false }
          sctx := d.sctxOf k ((u.gen + 1) % 16) i, limit := d.now + 1000 * d.get Bar.CLU_INV_CFG_RUN_LIMIT_US } ∧
        RegsBut [Bar.CLU_STATUS.key (k / 16) 0] d e ∧ MemorySame d e ∧ e.outbox = d.outbox) ∧
    (s.isRunning → k < 256 → (u.state = 2 ∨ u.state = 3) → u.final = none → u.limit ≤ d.now →
      Completes (.runLimitExpiry k) s fun e =>
        e.unit k = { u with state := 3, final := some Code.timeout, queues := [] } ∧
        e.copies = d.copies.filter (fun y => !(y.2.core == k && y.2.gen == u.gen)) ∧ e.regs = d.regs ∧ MemorySame d e) ∧
    (loads → d.inReset (slice arg 63 56) = false → d.disabled (slice arg 63 56) = false → d.slotBusy sl = false →
      d.loadSource (slice arg 63 56) from' (8 * len) = true → d.storeRoom mask (imageUnits len) = some n →
      Completes (.load w) s fun e =>
        e.flag Bar.CLU_SLOT_LOADING sl = true ∧ e.flag Bar.CLU_SLOT_VALID sl = false ∧
        e.get Bar.CLU_SLOT_OWNER sl = slice arg 63 56 ∧ e.get Bar.CLU_SLOT_CLUSTERS sl = mask ∧
        e.get Bar.CLU_SLOT_LENGTH sl = len ∧ e.get Bar.CLU_SLOT_STORE_UNIT sl = n ∧
        e.flag Bar.CLU_LOAD_RESULT_DONE w = false ∧ e.store.loads = kvPut d.store.loads w (sl, from') ∧
        RegsBut [Bar.CLU_SLOT.key sl 0, Bar.CLU_LOAD_RESULT.key w 0] d e ∧ MemorySame d e) ∧
    (s.isRunning → w < 3 → d.store.loads = [(w, (sl, src))] → d.coh.txns = [] → d.coh.dir = [] →
      d.nmus.burst = [] → d.pool.flaws = [] → maskList (d.get Bar.CLU_SLOT_CLUSTERS sl) = [c] →
      Completes (.loadComplete w) s fun e =>
        done e ∧ e.flag Bar.CLU_SLOT_VALID sl = true ∧ e.flag Bar.CLU_SLOT_LOADING sl = false ∧ e.store.loads = [] ∧
        (∀ j, j < d.get Bar.CLU_SLOT_LENGTH sl →
          kvGet? e.store.code (d.slotKey sl c j) = some (BitVec.ofNat 64 (leNat (d.poolBytes (src + 8 * j) 8))) ∧
          e.store.bad.contains (d.slotKey sl c j) = d.rangePoisoned (src + 8 * j) 8) ∧ MemorySame d e) ∧
    (loads → d.flag Bar.CLU_SLOT_VALID sl = true → d.inReset (d.get Bar.CLU_SLOT_OWNER sl) = false →
      d.get Bar.CLU_SLOT_RUNNING sl = 0 →
      Completes (.unload w) s fun e =>
        done e ∧ e.flag Bar.CLU_SLOT_VALID sl = false ∧ e.flag Bar.CLU_SLOT_UNLOADING sl = false ∧
        (∀ j, j < d.get Bar.CLU_SLOT_LENGTH sl → (d.get Bar.CLU_SLOT_CLUSTERS sl).testBit c = true → c < 16 →
          kvGet? e.store.code (d.slotKey sl c j) = none) ∧ MemorySame d e)

/-- R320, R321, R322, R323, R324, R338, R339, R342, R449, R450, R452: sessions. CREATE without a prefix enters the clamped
words, SET_PLAN replaces the plan, READ copies the eight words, CLOSE makes the entry CLOSING and its completion frees it;
a queued record is applied and leaves the queue. A push of the mirror's primary in turn is applied and acknowledged: a
closing mark frees the copy, COPY_DONE takes the primary's words and makes the copy whole. ATTACH of a session that is in
a step waits for the boundary, and its completion names the new mirror and releases the session. A command of a window
that is not DONE, a completion without its entry and a frame that is no push do nothing.
Choices of the model in it: assumptions 47, 48, 49. -/
def Obligations.SessionsAreCreatedMirroredAndClosed : Prop :=
  ∀ (s : State) (w id ep : Nat) (f : Frame) (x : Sess) (r : PruneRec) (d1 d2 : Dev) (a : Attach),
    let d := s.dev
    let cmd : Prop := s.isReady ∧ w < 3 ∧ d.flag Bar.SES_RESULT_DONE w = true ∧ d.sesCmdId w = id
    let done (e : Dev) : Prop := e.flag Bar.SES_RESULT_DONE w = true ∧ e.get Bar.SES_RESULT_STATUS w = Code.ok
    let result := Bar.SES_RESULT.key w 0
    let al := d.ses id Ses.ALLOT
    let args := (d.sesArg w).zipWith (fun a b => a &&& b) namedMask
    let shaped := clampShape args
    let owner := getSes shaped Ses.ALLOT
    let obj := getSes shaped Ses.CACHE_OBJ
    let ws := clampPlan (clampSizes 0 shaped)
    let state := if slice ((d.sesArg w).getD 0 0) 63 61 = 2 then 2 else 1
    let words := putSes (deviceWords state (65536 * d.get Bar.MEM_OBJ_BASE_PAGE obj) ws) Ses.PREFIX_SLOT 0
    let entered : Dev := { d with sess := kvPut d.sess id (freshSess words) }
    let used : Prop := kvGet? d.sess id = some x ∧ x.words.length = 8
    let applied := SesW.applyRecord (d, []) id r none
    let kind := f.w5 >>> 28 % 16
    let home := TPort.memSide (sesDie id)
    let mirror : Prop := s.isRunning ∧ isPush f = true ∧ f.w5 % 65536 = id ∧ d.passes home f ∧ d.sess = [(id, x)] ∧
      x.words.length = 8 ∧ al = f.allot ∧ d.ses id Ses.STATE = 2 ∧ d.ses id Ses.MIRROR_EP = f.srcEp ∧ f.w6 = x.expect ∧
      f.w6 ≠ 0 ∧ x.frags = [] ∧ pushLast f = 0 ∧ pushIdx f = 0 ∧ d.flag Bar.SEC_ALT_FAB_EN f.allot = false
    let took := (d.taken f).modSess id fun x => { x with frags := [f] }
    let acked (e : Dev) : Prop := e.outbox = d1.outbox ++ [(home, d1.answer f Ty.writeAck 5 0 0 0 [])] ∧
      (e.sesn id).map Sess.frags = (d1.sesn id).map (fun _ => []) ∧
      (e.sesn id).map Sess.expect = (d1.sesn id).map fun y => y.expect + 1
    let plain : Prop := d1.flag Bar.SEC_ALT_FAB_EN f.allot = false
    let pw := (List.range 8).map fun i => leNat ((f.payload.drop (8 * i)).take 8)
    let byWindow (e : Dev) : Dev := if w = 0 then d.tdiGuard e else e
    let pushed : Prop := s.isRunning ∧ isPush f = true
    let push (c : Frame → Instr) : Prop :=
      exec (c f) s = .next { s with dev := afterChecks (d.recv (.memSide (sesDie (f.w5 % 65536))) f) Dev.takePush }
    (s.isReady → w < 3 → d.flag Bar.SES_RESULT_DONE w = true →
      exec (.sessionCreate w) s = .next { s with dev := byWindow (d.createSession w) } ∧
      exec (.setPlan w) s = .next { s with dev := byWindow (d.setPlan w) } ∧
      exec (.sessionRead w) s = .next { s with dev := byWindow (d.readSession w) } ∧
      exec (.sessionClose w) s = .next { s with dev := byWindow (d.closeSession w) }) ∧
    (d.flag Bar.SES_RESULT_DONE w = false ∨ 3 ≤ w →
      exec (.sessionCreate w) s = .next s ∧ exec (.setPlan w) s = .next s ∧ exec (.sessionRead w) s = .next s ∧
      exec (.sessionClose w) s = .next s) ∧
    (s.isReady → w < 3 → exec (.attach w) s = .next { s with dev := byWindow (d.attach w) }) ∧
    (d.flag Bar.MBR_ATT_RESULT_DONE w = false ∨ 3 ≤ w → exec (.attach w) s = .next s) ∧
    (s.isRunning →
      exec (.pruneRecordApply id) s = .next { s with dev := d.applyPrunes id } ∧
      exec (.sessionCloseComplete id) s = .next { s with dev := d.closeComplete id } ∧
      (w < 3 → exec (.attachComplete w) s = .next { s with dev := d.attachComplete w })) ∧
    (d.sesn id = none → exec (.pruneRecordApply id) s = .next s) ∧
    (d.ses id Ses.STATE ≠ 4 ∨ d.sesBusy id = true → exec (.sessionCloseComplete id) s = .next s) ∧
    (kvGet? d.mbr.attaches w = none → exec (.attachComplete w) s = .next s) ∧
    (pushed → kind = 1 → push .pushRow) ∧ (pushed → kind = 2 → push .pushRecord) ∧ (pushed → kind = 3 → push .pushClose) ∧
    (pushed → kind = 4 → push .pushCopy) ∧ (pushed → kind = 5 → push .pushCopyDone) ∧
    (isPush f = false → exec (.pushRow f) s = .next s ∧ exec (.pushRecord f) s = .next s ∧
      exec (.pushClose f) s = .next s ∧ exec (.pushCopy f) s = .next s ∧ exec (.pushCopyDone f) s = .next s) ∧
    (cmd → d.inReset owner = false → d.disabled owner = false → d.ses id Ses.STATE = 0 → d.objValid obj = true →
      d.get Bar.MEM_OBJ_ALLOT obj = owner → d.get Bar.MEM_OBJ_POLICY obj < 2 → d.viewRegion obj = none →
      getSes shaped Ses.PREFIX_POS < 64 →
      entered.offU id + entered.sesLayers id * entered.sesKvh id * 2 * rungUnits 0 (entered.sesD id) * 512 ≤
        entered.objBytes id →
      getSes ws Ses.PREFIX_POS = 0 → (d.rangesReady (SesW.layOut (entered, []) id).2).1 = 0 →
      Completes (.sessionCreate w) s fun e =>
        done e ∧ kvGet? e.sess id = some (freshSess words) ∧ e.outbox = d.outbox ∧
        e.get Bar.SES_STAT_IN_USE (sesDie id) = min (d.get Bar.SES_STAT_IN_USE (sesDie id) + 1) 65535) ∧
    (cmd → used → d.inReset al = false → d.disabled al = false → d.ses id Ses.STATE = 1 → d.sesBusy id = false →
      Completes (.setPlan w) s fun e =>
        done e ∧ (kvGet? e.sess id).map Sess.words =
          some (clampPlan ((x.words.set 4 (args.getD 4 0)).set 5 (args.getD 5 0))) ∧
        RegsBut [result] d e ∧ MemorySame d e) ∧
    (cmd → (d.sesn id = none ∨ d.inReset al = false) →
      Completes (.sessionRead w) s fun e =>
        done e ∧ (∀ n, n < 8 → e.get Bar.SES_ARG_WORD w n = d.sesWord id n % 2 ^ 64) ∧ e.sess = d.sess ∧ MemorySame d e) ∧
    (cmd → used → d.inReset al = false → x.frozen = false → d.mbr.attaches = [] →
      Completes (.sessionClose w) s fun e =>
        done e ∧ e.ses id Ses.STATE = 4 ∧ RegsBut [result] d e ∧ MemorySame d e) ∧
    (s.isRunning → used → x.prunes = [r] → d.rangesRead (d.recordReads id r) = (true, d) → d.sesQuiet id = true → (d.rangesReady applied.2.2.2).1 = 0 →
      d.ses id Ses.MIRROR_OK = 0 →
      Completes (.pruneRecordApply id) s fun e =>
        (e.sesn id).map Sess.prunes = some [] ∧ e.pool.mem = applied.2.2.1.pool.mem ∧
        e.ses id Ses.POSITIONS = d.ses id Ses.POSITIONS - r.evict.length ∧
        e.get Bar.SES_STAT_RECORDS (sesDie id) = min (d.get Bar.SES_STAT_RECORDS (sesDie id) + 1) 65535) ∧
    (s.isRunning → used → d.ses id Ses.STATE = 4 → d.sesBusy id = false → d.sesQuiet id = true → x.prunes = [] →
      d.ses id Ses.MIRROR_OK = 0 → d.ses id Ses.PREFIX_POS = 0 →
      Completes (.sessionCloseComplete id) s fun e =>
        e.sesn id = none ∧ kvGet? e.pool.holds id = none ∧
        e.get Bar.SES_STAT_IN_USE (sesDie id) = d.get Bar.SES_STAT_IN_USE (sesDie id) - 1 ∧ MemorySame d e) ∧
    (mirror → plain → kind = 1 → took.mirrorRow id f.payload = (some (Code.ok, d1), d2) →
      Completes (.pushRow f) s fun e => acked e ∧ e.pool = d1.pool) ∧
    (mirror → plain → kind = 2 → took.mirrorRecord id f.payload = (some (Code.ok, d1), d2) →
      Completes (.pushRecord f) s fun e => acked e ∧ e.pool = d1.pool) ∧
    (mirror → plain → kind = 4 → took.mirrorCopy id (f.w7 % 2 ^ 28) f.payload (Frame.poisonBit f) = (some (Code.ok, d1), d2) →
      Completes (.pushCopy f) s fun e =>
        acked e ∧ e.pool = (d.writeMem (d.areaBase id + 4096 * (f.w7 % 2 ^ 28)) f.payload (Frame.poisonBit f)).pool) ∧
    (mirror → kind = 3 → d.ses id Ses.PREFIX_POS = 0 →
      Completes (.pushClose f) s fun e =>
        e.sess = [] ∧ e.outbox = d.outbox ++ [(home, d.answer f Ty.writeAck 5 0 0 0 [])] ∧ MemorySame d e) ∧
    (mirror → kind = 5 → f.payload.length = 64 → slice (pw.getD 0 0) 51 28 = slice (d.sesWord id 0) 51 28 →
      getSes pw Ses.CAP_POS = d.ses id Ses.CAP_POS → pw.getD 4 0 = d.sesWord id 4 → pw.getD 5 0 = d.sesWord id 5 →
      Completes (.pushCopyDone f) s fun e =>
        e.ses id Ses.MIRROR_OK = 1 ∧ (∀ n, 1 ≤ n → n ≤ 5 → e.sesWord id n = pw.getD n 0) ∧
        e.outbox = d.outbox ++ [(home, d.answer f Ty.writeAck 5 0 0 0 [])] ∧ MemorySame d e) ∧
    (s.isReady → w < 3 → d.get Bar.MBR_ATT_ARG_SESSION w = id → d.get Bar.MBR_ATT_ARG_MIRROR_EP w = ep →
      d.flag Bar.MBR_ATT_RESULT_DONE w = true → d.isFenced = false → used → d.inReset al = false → d.disabled al = false →
      d.ses id Ses.STATE = 1 → d.memberIn ep = true → ep ≠ d.myEp →
      (∃ i, d.memIdx ep = some i ∧ d.get Bar.MBR_MEMBER_DOMAIN i ≠ d.get Bar.MBR_ID_FAILURE_DOMAIN) →
      d.mbr.attaches = [] → d.atBoundary id = false →
      Completes (.attach w) s fun e =>
        e.flag Bar.MBR_ATT_RESULT_DONE w = false ∧ e.get Bar.MBR_ATT_RESULT_BYTES w = 0 ∧
        e.mbr.attaches = [(w, ⟨id, ep, d.get Bar.MBR_ATT_ARG_MIRROR_SESSION w, [], 0, 0, 0⟩)] ∧
        RegsBut [Bar.MBR_ATT_RESULT.key w 0] d e ∧ e.sess = d.sess) ∧
    (s.isRunning → w < 3 → d.mbr.attaches = [(w, a)] → a.phase = 3 → a.session = id → used → a.ep < 65536 →
      a.msession < 65536 → d.ses id Ses.MIRROR_OK = 0 → d.ses id Ses.MIRROR_EP = 0 → d.ses id Ses.MIRROR_SESSION = 0 →
      Completes (.attachComplete w) s fun e =>
        e.ses id Ses.MIRROR_EP = a.ep ∧ e.ses id Ses.MIRROR_SESSION = a.msession ∧ e.ses id Ses.MIRROR_OK = 1 ∧
        (e.sesn id).map Sess.frozen = some false ∧ e.flag Bar.MBR_ATT_RESULT_DONE w = true ∧
        e.get Bar.MBR_ATT_RESULT_STATUS w = Code.ok ∧ e.mbr.attaches = [] ∧ RegsBut [Bar.MBR_ATT_RESULT.key w 0] d e)

/-- R355, R360, R363, R364, R366, R369, R370, R372, R373, R374, R376, R381: expansion views and the cluster engines. A
disabled entry takes its fields and VALID where the view, or the group's accumulator, is legal; a valid one is only
disabled. ABANDON and a round's bound end the open round. The first partial of a round opens it, is combined with the
identity and acknowledged. A Rake row at this package's home lands with its counter, and a Sieve that counts writes its
record with the number of records that passed. Without an entry, a round, a descriptor or a partial nothing changes.
Choices of the model in it: assumptions 50, 51, 52. -/
def Obligations.EnginesViewsAndGroups : Prop :=
  ∀ (s : State) (i g v c : Nat) (f : Frame) (r : Round) (x : Desc),
    let d := s.dev
    let at' (h : Fld) : Nat := slice v h.hi h.lo
    let grpKeys := [Bar.RKS_GRP.key g 0, Bar.RKS_GRP_STAT.key g 0, Bar.RKS_STAT.base]
    let idle : Prop := d.eng.parts = [] ∧ d.eng.sends = []
    let round : Prop := kvGet? d.eng.rounds g = some r ∧ r.arrived = [] ∧ idle
    let elem := Red.elemBytes (d.get Bar.RKS_GRP_DTYPE g)
    let acc := Red.accBytes (d.get Bar.RKS_GRP_DTYPE g)
    let n := partTotal f / elem
    let xs := (Red.numbers elem f.payload).map (Red.widen (d.get Bar.RKS_GRP_DTYPE g))
    let home := TPort.cluster (d.get Bar.RKS_GRP_HOME_CLUSTER g)
    let counter (e : Dev) (by' : Nat) : Prop := kvGetD (e.unit x.core).a (x.ctr % 16) 0 =
      min (kvGetD (d.unit x.core).a (x.ctr % 16) 0 + by') (2 ^ 48 - 1)
    let a := Rake.poolAt x x.row
    let len := Rake.row x
    let landed := d.arriveAt (spadPlace x.core (Rake.spadAt x x.row)) x.allot
      (Rake.widen (Rake.conv x) (d.poolBytes a len)) false
    let hits := (d.sieveRecords x).filter fun e => Sieve.passes x e.1
    let runs : Prop := s.isRunning ∧ c < 16 ∧ x.core / 16 = c ∧ x.core < 256 ∧ d.holds x.core x.gen = true
    (s.isReady →
      (i < 64 → exec (.expEgrWrite i v) s = .next { s with dev := d.tdiGuard (d.egrWrite i v) }) ∧
      (g < 4096 → exec (.rksGrpWrite g v) s = .next { s with dev := d.tdiGuard (d.grpWrite g v) } ∧
        exec (.abandon g) s = .next { s with dev := d.tdiGuard (d.abandonGroup g) })) ∧
    (s.isRunning →
      (g < 4096 → exec (.roundTimeout g) s = .next { s with dev := d.roundExpires g }) ∧
      (c < 16 → exec (.rakeRowComplete c) s = .next { s with dev := d.rakeStep c } ∧
        exec (.sieveComplete c) s = .next { s with dev := d.sieveRun c }) ∧
      (f.type = Ty.reducePart → d.reduceTested f = false →
        exec (.reducePart f) s = .next { s with dev := afterChecks (d.recv (d.localPort 0 f) f) Dev.takeReduce })) ∧
    (64 ≤ i → exec (.expEgrWrite i v) s = .next s) ∧ (4096 ≤ g → exec (.rksGrpWrite g v) s = .next s) ∧
    (d.flag Bar.RKS_GRP_VALID g = false → exec (.abandon g) s = .next s) ∧
    (kvGet? d.eng.rounds g = none → exec (.roundTimeout g) s = .next s) ∧
    (f.type ≠ Ty.reducePart ∨ d.reduceTested f = true → exec (.reducePart f) s = .next s) ∧
    (d.rakes c = [] → exec (.rakeRowComplete c) s = .next s) ∧ (d.sieves c = [] → exec (.sieveComplete c) s = .next s) ∧
    (s.isReady → i < 64 → d.flag Bar.EXP_EGR_VALID i = false →
      Completes (.expEgrWrite i v) s fun e =>
        e.flag Bar.EXP_EGR_VALID i = (v.testBit 255 && e.egrOk i) ∧
        e.get Bar.EXP_EGR_ALLOT i = at' Bar.EXP_EGR_ALLOT ∧ e.get Bar.EXP_EGR_VIEW_PAGE i = at' Bar.EXP_EGR_VIEW_PAGE ∧
        e.get Bar.EXP_EGR_NBLOCKS i = max 1 (at' Bar.EXP_EGR_NBLOCKS) ∧
        e.get Bar.EXP_EGR_INDEX_BASE i = at' Bar.EXP_EGR_INDEX_BASE ∧
        e.get Bar.EXP_EGR_CODED_BYTES i = at' Bar.EXP_EGR_CODED_BYTES ∧
        e.get Bar.EXP_EGR_CODED_BASE i = at' Bar.EXP_EGR_CODED_BASE ∧
        RegsBut [Bar.EXP_EGR.key i 0, Bar.EXP_EGR_STAT.base] d e ∧ MemorySame d e) ∧
    (s.isReady → i < 64 → d.flag Bar.EXP_EGR_VALID i = true →
      Completes (.expEgrWrite i v) s fun e =>
        e.flag Bar.EXP_EGR_VALID i = v.testBit 255 ∧ e.get Bar.EXP_EGR_VIEW_PAGE i = d.get Bar.EXP_EGR_VIEW_PAGE i ∧
        RegsBut [Bar.EXP_EGR.key i 0] d e ∧ MemorySame d e) ∧
    (s.isReady → g < 4096 → d.flag Bar.RKS_GRP_VALID g = false →
      Completes (.rksGrpWrite g v) s fun e =>
        e.flag Bar.RKS_GRP_VALID g = (v.testBit 255 && e.accOk g) ∧
        e.get Bar.RKS_GRP_OWNER g = at' Bar.RKS_GRP_OWNER ∧ e.get Bar.RKS_GRP_HOME_CLUSTER g = at' Bar.RKS_GRP_HOME_CLUSTER ∧
        e.get Bar.RKS_GRP_OP g = min 2 (at' Bar.RKS_GRP_OP) ∧ e.get Bar.RKS_GRP_DTYPE g = at' Bar.RKS_GRP_DTYPE ∧
        e.get Bar.RKS_GRP_LEN g = clampTo 1 1048576 (at' Bar.RKS_GRP_LEN) ∧
        e.get Bar.RKS_GRP_MEMBERS_M1 g = at' Bar.RKS_GRP_MEMBERS_M1 ∧
        e.get Bar.RKS_GRP_ROOT g = min (at' Bar.RKS_GRP_ROOT) (at' Bar.RKS_GRP_MEMBERS_M1) ∧
        e.get Bar.RKS_GRP_ACC_BASE g = alignDown (at' Bar.RKS_GRP_ACC_BASE) 256 ∧ RegsBut grpKeys d e ∧ MemorySame d e) ∧
    (s.isReady → g < 4096 → d.flag Bar.RKS_GRP_VALID g = true → v.testBit 255 = false → v.testBit 254 = false →
      d.eng.rounds = [] → idle →
      Completes (.rksGrpWrite g v) s fun e =>
        e.flag Bar.RKS_GRP_VALID g = false ∧ RegsBut grpKeys d e ∧ MemorySame d e) ∧
    (s.isReady → g < 4096 → d.flag Bar.RKS_GRP_VALID g = true → round → d.grpState g = 1 →
      Completes (.abandon g) s fun e =>
        e.grpState g = 3 ∧ e.get Bar.RKS_GRP_STAT_ARRIVED g = 0 ∧ e.flag Bar.RKS_GRP_VALID g = true ∧
        RegsBut grpKeys d e ∧ MemorySame d e) ∧
    (s.isRunning → g < 4096 → round → d.grpState g = 1 → d.get Bar.RKS_GRP_ROUND_TIMEOUT_US g ≠ 0 →
      r.openNs + 1000 * d.get Bar.RKS_GRP_ROUND_TIMEOUT_US g ≤ d.now →
      Completes (.roundTimeout g) s fun e =>
        e.grpState g = 3 ∧ e.get Bar.RKS_GRP_STAT_TIMEOUTS g = min (d.get Bar.RKS_GRP_STAT_TIMEOUTS g + 1) 65535 ∧
        RegsBut grpKeys d e ∧ MemorySame d e) ∧
    (s.isRunning → f.type = Ty.reducePart → d.passes (d.localPort 0 f) f → f.w5 < 2 ^ 31 → partGroup f = g →
      d.grpMember g f.allot (partMember f) = true → 2 ≤ d.grpMembers g → d.eng.rounds = [] → idle → f.srcEp ≠ d.myEp →
      partIdx f = 0 → f.payload.length = partTotal f → n * elem = partTotal f → 0 < n → n ≤ d.get Bar.RKS_GRP_LEN g →
      d.accOk g = true → d.accTested g = false → d.banks.bank = [] → d.flag Bar.SEC_ALT_FAB_EN f.allot = false →
      Completes (.reducePart f) s fun e =>
        e.grpState g = 1 ∧ e.get Bar.RKS_GRP_STAT_ROUND g = partRound f ∧ e.get Bar.RKS_GRP_STAT_ARRIVED g = 1 ∧
        e.outbox = d.outbox ++ [(home, d.answer f Ty.writeAck 5 0 0 0 [])] ∧ e.pool = d.pool ∧
        Red.numbers acc (e.spadBytes (d.accPlace g 0) (n * acc)) = xs.map (Red.combine (d.get Bar.RKS_GRP_OP g)
          (d.get Bar.RKS_GRP_DTYPE g) (Red.identity (d.get Bar.RKS_GRP_OP g) (d.get Bar.RKS_GRP_DTYPE g)))) ∧
    (runs → d.eng.rake = [(c, [x])] → x.got = [] → Rake.gather x = true → Rake.idxKind x = 0 → Rake.count x = x.row + 1 →
      d.reqs = [] → a % 4096 + len ≤ 4096 → d.homed a = .here → d.poolOk x.allot a len = true →
      d.mayReadHere x.allot a len = true → d.rangePoisoned a len = false → d.readyRead a len = (true, d) →
      d.spadOk x.core (Rake.spadAt x x.row) (Rake.srow x) = true →
      Completes (.rakeRowComplete c) s fun e =>
        e.rakes c = [] ∧ e.banks = landed.2.banks ∧ counter e landed.1 ∧ e.pool.mem = d.pool.mem ∧
        e.get Bar.RKS_CLU_RAKE_ROWS c = min (d.get Bar.RKS_CLU_RAKE_ROWS c + 1) (2 ^ 32 - 1)) ∧
    (runs → d.eng.sieve = [(c, [x])] → d.sieveWaits x = false →
      d.meetLines (linesOf (Sieve.src x) (Sieve.count x * Sieve.record x)) = d → Sieve.out x = 0 → Sieve.inPool x = true → Sieve.score x ≠ 1 → Sieve.score x ≠ 2 →
      d.spansHost (Sieve.src x) (Sieve.count x * Sieve.record x) = true →
      d.inObjects x.allot (Sieve.src x) (Sieve.count x * Sieve.record x) = true →
      (∀ y, y ∈ d.sieveRecords x → y.2 = false) → d.spadOk x.core (Sieve.outa x) 16 = true →
      Completes (.sieveComplete c) s fun e =>
        e.sieves c = [] ∧ counter e 16 ∧ e.pool = d.pool ∧
        e.banks = (d.landAt x.core (Sieve.outa x) (sieveRecord Code.ok hits.length 0 []) false).banks)

/-- R403, R404, R405, R414, R416, R420, R426, R428: lifecycle, removal, credentials and fabric keys. DEPLOY and RETURN advance
the fuses where the write carries GO and its CONFIRM, by PF0, a Gardener or an Iferic session of role OWNER, and measure
them; RETURN wipes the Cloche and begins the fills, whose end clears the pool and sets RETURN_DONE; REMOVE empties a
tenant's slots, marks it REMOVED and resets it; a credential slot is programmed once, while PROVISIONED, and revoked for
good; key requests under the owner's session move an allotment's two fabric slots, and others are answered ACCESS or
Unspecified.
Choices of the model in it: assumptions 15, 53, 55. -/
def Obligations.LifecycleRemovalAndKeys : Prop :=
  ∀ (s : State) (who : Requester) (via : SpdmVia) (a i k v gen n : Nat) (key : List Byte) (u : UnitSt) (j : Inv) (c : Cred),
    let d := s.dev
    let may : Prop := s.isReady ∧ match who with
      | .vf _ => False
      | .iferic x => ∃ y, kvGet? d.sec.ifr x = some y ∧ y.phase = 2 ∧ y.role = 2
      | _ => True
    let become (l : Nat) : Fuses := { s.fuses with lifecycle := l }
    let emptied (e : Dev) (t : Nat) : Prop := e.keyState t 0 = 0 ∧ e.keyState t 1 = 0
    let wiped (e : Dev) : Prop :=
      e.banks.cloche = Cloche.blank ∧ e.sec.idKey = false ∧ e.sec.spdm = [] ∧ e.sec.ifr = [] ∧ e.sec.signing = [] ∧
      e.flag Bar.SEC_STATUS_ID_READY = false ∧ e.get Bar.SEC_STATUS_LAST_WIPE = 2 ∧ (∀ t, t < 256 → emptied e t) ∧
      ∀ m, e.mslotState m ≠ 1
    let act := d.get Bar.SEC_ALT_ACT_SLOT a
    let stay (e : Dev) : Prop := e.pool = d.pool ∧ e.banks = d.banks ∧ e.units = d.units ∧ RegsBut [Bar.SEC_ALT.key a 0] d e
    let asks : Prop :=
      s.isRunning ∧ d.spdmWaits via = true ∧ s.fuses.lifecycle ≠ 0 ∧ s.fuses.lifecycle ≠ 3 ∧ a < 256 ∧
      d.ownerSession via a = true ∧ d.altState a = 1 ∧ d.flag Bar.SEC_ALT_REMOVED a = false
    let keys (r : Out) : Prop :=
      exec (.provisionFabric via a gen key) s = r ∧ exec (.roll via a) s = r ∧ exec (.retireOld via a) s = r
    let waits : Prop := s.isRunning ∧ d.spdmWaits via = true
    let unnamed : Prop := (viaSession via).isSome = true ∧ d.spdmSession via = none
    (slice v 11 10 = 2 → exec (.lifecycleDeploy who v) s = .next (s.lifecycleWrite who v)) ∧
    (slice v 11 10 = 3 → exec (.lifecycleReturn who v) s = .next (s.lifecycleWrite who v)) ∧
    (slice v 11 10 ≠ 2 ∨ ¬ may → exec (.lifecycleDeploy who v) s = .next s) ∧
    (slice v 11 10 ≠ 3 ∨ ¬ may → exec (.lifecycleReturn who v) s = .next s) ∧
    (s.isReady → writesAsPf0 who = true → a < 256 → exec (.tenantRemove who a) s = .next { s with
      dev := if who = .pf0 then d.tdiGuard (d.removeCmd a) else d.removeCmd a }) ∧
    (writesAsPf0 who = false ∨ 256 ≤ a → exec (.tenantRemove who a) s = .next s) ∧
    (d.sec.fills = false → exec .returnFillsDone s = .next s) ∧
    (16 ≤ i → exec (.credProgram i) s = .next s) ∧
    (kvGet? s.fuses.creds i = none → exec (.credRevoke i) s = .next s) ∧
    (d.spdmWaits via = false → keys (.next s)) ∧
    (waits → s.fuses.lifecycle = 0 ∨ unnamed → keys (.next { s with dev := d.spdmSend via (.error .unspecified) [] })) ∧
    (waits → s.fuses.lifecycle ≠ 0 → ¬ unnamed →
      256 ≤ a ∨ d.ownerSession via a = false ∨ d.altState a ≠ 1 ∨ d.flag Bar.SEC_ALT_REMOVED a = true →
      keys (.next { s with dev := d.spdmSend via (.vendor Code.access) [] })) ∧
    (may → v.testBit 9 = true → slice v 11 10 = 2 → slice v 31 16 = 0x7290 → s.fuses.lifecycle = 1 →
      ∃ e, exec (.lifecycleDeploy who v) s = .next { s with fuses := become 2, dev := e } ∧
        e.get Bar.SEC_MEAS_DIGEST 4 = Config.shake256 (become 2).bytes % 2 ^ 512 ∧
        e.get Bar.SEC_MEAS_DIGEST 3 = Config.shake256 (rwlBytes (become 2) d) % 2 ^ 512 ∧
        RegsBut [Bar.SEC_MEAS.key 3 0, Bar.SEC_MEAS.key 4 0] d e ∧ RestSame d e) ∧
    (v.testBit 9 = false → exec (.lifecycleDeploy who v) s = .next s ∧ exec (.lifecycleReturn who v) s = .next s) ∧
    (may → v.testBit 9 = true → slice v 11 10 = 3 → slice v 31 16 = 0xA5A5 → s.fuses.lifecycle = 1 ∨ s.fuses.lifecycle = 2 →
      ∃ e, exec (.lifecycleReturn who v) s = .next { s with fuses := become 3, dev := e } ∧ e.sec.fills = true ∧ wiped e ∧
        ((∀ t, t < 256 → t ≠ 0 → d.altState t = 0) → ∀ t, t < 256 → t ≠ 0 →
          e.flag Bar.SEC_ALT_REMOVED t = true ∧ e.flag Bar.ALT_CFG_ENABLE t = false)) ∧
    (s.isRunning → d.sec.fills = true →
      Completes .returnFillsDone s fun e =>
        e.pool.mem = [] ∧ e.pool.poison = [] ∧ e.sec.fills = false ∧ e.flag Bar.SEC_STATUS_RETURN_DONE = true ∧
        RegsBut [Bar.SEC_STATUS.base] d e ∧ e.banks = d.banks ∧ e.flash = d.flash) ∧
    (s.isReady → writesAsPf0 who = true → d.flag Bar.SEC_KEY_CMD_DONE = true →
      Completes (.tenantRemove who 0) s (fun e =>
        e.get Bar.SEC_KEY_CMD_STATUS = Code.access ∧ RegsBut [Bar.SEC_KEY_CMD.base] d e ∧ RestSameEp d e) ∧
      (1 ≤ a → a < 256 → d.altState a = 1 → d.validGroups = [] → d.units = [(k, u)] → k < 256 → u.state = 3 →
        u.final.isSome = true → u.inv = some j → j.allot = a →
        Completes (.tenantRemove who a) s fun e =>
          e.get Bar.SEC_KEY_CMD_ALLOT = a ∧ e.get Bar.SEC_KEY_CMD_OP = 1 ∧ e.get Bar.SEC_KEY_CMD_STATUS = Code.ok ∧
          e.flag Bar.SEC_KEY_CMD_DONE = false ∧ e.flag Bar.SEC_ALT_REMOVED a = true ∧ emptied e a ∧
          (∀ m, d.activeMslot a = some m → e.mslotState m ≠ 1) ∧ e.altState a = 2 ∧ (e.allotSt a).removal = true ∧
          e.units = d.units ∧ e.banks = d.banks ∧ e.pool = d.pool)) ∧
    (s.isReady → i < 16 → kvGet? s.fuses.creds i = none →
      exec (.credProgram i) s = .next (if s.fuses.lifecycle = 1 then
        { s with fuses := { s.fuses with creds := kvPut s.fuses.creds i ⟨true, false,
          min 2 (d.get Bar.SEC_CRED_CTL_ROLE i), d.get Bar.SEC_CRED_PK_PK i⟩ } } else s)) ∧
    (s.isReady → kvGet? s.fuses.creds i = some c →
      exec (.credProgram i) s = .next s ∧
      exec (.credRevoke i) s = .next
        { s with fuses := { s.fuses with creds := kvPut s.fuses.creds i { c with revoked := true } } }) ∧
    (asks → d.sec.idKey = true → n = (if d.keyState a act = 2 then 1 - act else 0) → gen < 65536 →
      Completes (.provisionFabric via a gen key) s fun e =>
        kvGet? e.sec.fabKeys (2 * a + n) = some (leNat key) ∧ stay e ∧
        (if n = 0 then e.get Bar.SEC_ALT_A_GEN a else e.get Bar.SEC_ALT_B_GEN a) = gen ∧
        (d.keyState a act = 2 → e.keyState a n = 1 ∧ e.keyState a act = 2 ∧ e.get Bar.SEC_ALT_ACT_SLOT a = act) ∧
        (d.keyState a act ≠ 2 →
          e.keyState a 0 = 2 ∧ e.get Bar.SEC_ALT_ACT_SLOT a = 0 ∧ e.flag Bar.SEC_ALT_FAB_EN a = true)) ∧
    (asks →
      Completes (.roll via a) s (fun e => stay e ∧ e.sec.fabKeys = d.sec.fabKeys ∧
        (d.keyState a (1 - act) = 1 →
          e.keyState a (1 - act) = 2 ∧ e.keyState a act = 1 ∧ e.get Bar.SEC_ALT_ACT_SLOT a = 1 - act) ∧
        (d.keyState a (1 - act) ≠ 1 → e = d.spdmSend via (.vendor Code.access) [])) ∧
      Completes (.retireOld via a) s fun e => stay e ∧ e.get Bar.SEC_ALT_ACT_SLOT a = act ∧
        e.keyState a act = d.keyState a act ∧
        (d.keyState a (1 - act) = 1 →
          e.keyState a (1 - act) = 0 ∧ kvGet? e.sec.fabKeys (2 * a + (1 - act)) = none) ∧
        (d.keyState a (1 - act) ≠ 1 → e = d.spdmSend via (.vendor Code.ok) []))

/-- R407, R409, R410, R411, R412, R413: the SPDM responder, once the package is no longer BLANK. A request is answered on
the transport that it came by; the requests of discovery, unsigned measurements, chunks and those of an open session are
answered at once, requests outside their session refused; KEY_EXCHANGE, CHALLENGE, signed measurements and reports wait for
the sign engine, a ninth waiting one is answered Busy; FINISH opens the session, for the owner whose key signed; a
signature that is done leaves with its answer; an answer held for 10 s in the mailbox is dropped. A request of a BLANK
package or under no live session is answered Unspecified, and without a request nothing happens.
Choices of the model in it: assumption 54. -/
def Obligations.SpdmRequestsAreAnswered : Prop :=
  ∀ (s : State) (via : SpdmVia) (msg ek pk proof nonce : List Byte) (n id ep : Nat) (last : Bool) (x : Spdm) (j : SignJob)
    (js : List SignJob) (m : Mbox) (b : List Byte),
    let d := s.dev
    let served : Prop := s.isRunning ∧ d.spdmWaits via = true ∧ s.fuses.lifecycle ≠ 0 ∧
      (viaSession via = none ∨ (d.spdmSession via).isSome = true)
    let answers (c : Instr) (a : SpdmAns) (body : List Byte) : Prop :=
      exec c s = .next { s with dev := d.spdmSend via a body }
    let isSent (e e1 : Dev) (a : SpdmAns) (body : List Byte) : Prop :=
      match via with
      | .doe _ => e1 = { e with out := e.out ++ [.spdm via a body] }
      | .fabric q y => ∀ b, kvGet? e.sec.mailbox q = some b →
          (kvGet? e1.sec.mailbox q).bind Mbox.answer = some (toLe 4 (Config.spdmBytes a.code body).length ++
            toLe 1 (if y.isSome then 2 else 1) ++ toLe 3 0 ++ Config.spdmBytes a.code body)
    let waits (c : Instr) (k : SignJob) : Prop :=
      (d.signFull = false → d.sec.idKey = true → Completes c s fun e =>
        e.sec.signing = d.sec.signing ++ [k] ∧ e.get Bar.SEC_STATUS_SIGN_QUEUE = d.sec.signing.length ∧
        e.pool = d.pool ∧ RegsBut [Bar.SEC_STATUS.base] d e ∧ (∀ y, via = .doe y → e.out = d.out)) ∧
      (d.signFull = true → d.sec.idKey = true → answers c (.error .busy) []) ∧
      (d.sec.idKey = false → exec c s = .next s)
    let session : Prop := d.spdmSession via = some (id, x)
    let put (y : Spdm) : Dev := { d with sec := { d.sec with spdm := kvPut d.sec.spdm id y } }
    let gone : Dev := { d with sec := { d.sec with spdm := kvDel d.sec.spdm id } }
    let finished : Dev :=
      if pk = [] then (put { x with isOpen := true, owner := 0 }).spdmSend via .finishRsp []
      else if Config.slhVerify (leNat pk) (toLe 32 x.secret) proof = true then
        (put { x with isOpen := true, owner := Config.shake256 pk }).spdmSend via .finishRsp []
      else gone.spdmSend via (.error .unspecified) []
    let k := Config.kemEncaps ek (Config.freeNat d.free)
    let cert := Config.certChain.drop n
    let big := (if n = 0 then [] else kvGetD d.sec.chunks (viaKey via) []) ++ msg
    let held := kvGetD d.sec.chunks (viaKey via) []
    let requests : List Instr := [.getVersion via, .getCapabilities via msg, .negotiateAlgorithms via msg, .getDigests via msg,
      .getCertificate via ep n id, .challenge via msg, .getMeasurements via n last msg, .keyExchange via ek msg,
      .finish via pk proof, .spdmHeartbeat via, .keyUpdate via n, .endSession via, .chunkSend via n last msg,
      .chunkGet via n, .getReport via n nonce]
    let unopened : Prop := viaSession via = none ∨ ∃ i y, d.spdmSession via = some (i, y) ∧ y.isOpen = false
    (d.spdmWaits via = false → ∀ c, c ∈ requests → exec c s = .next s) ∧
    (s.isRunning → d.spdmWaits via = true →
      s.fuses.lifecycle = 0 ∨ ((viaSession via).isSome = true ∧ d.spdmSession via = none) →
      ∀ c, c ∈ requests → answers c (.error .unspecified) []) ∧
    (d.sec.signing = [] → exec .signatureDone s = .next s) ∧
    (kvGet? d.sec.mailbox ep = none → exec (.spdmAnswerExpiry ep) s = .next s) ∧
    (kvGet? d.sec.mailbox ep = some m → m.answer = none ∨ d.now < m.since + 10000000000 →
      exec (.spdmAnswerExpiry ep) s = .next s) ∧
    (∀ e a body, isSent e (e.spdmSend via a body) a body) ∧
    (served →
      answers (.getVersion via) .version [0x12, 0x13] ∧
      answers (.getCapabilities via msg) .capabilities (toLe 4 4096 ++ toLe 4 65536) ∧
      answers (.negotiateAlgorithms via msg) .algorithms (toLe 2 1 ++ toLe 2 2 ++ toLe 2 3) ∧
      answers (.getDigests via msg) .digests (toLe 48 (Config.sha384 Config.certChain)) ∧
      answers (.getCertificate via 0 n id) .certificate
        (toLe 2 (min id cert.length) ++ toLe 2 (cert.length - id) ++ cert.take id) ∧
      (ep ≠ 0 → answers (.getCertificate via ep n id) (.error .unspecified) []) ∧
      waits (.challenge via msg) (.spdm via .challengeAuth (chainDigest ++ msg)) ∧
      (1 ≤ n → n ≤ 6 →
        answers (.getMeasurements via n false msg) .measurements (toLe 64 (d.get Bar.SEC_MEAS_DIGEST (n - 1))) ∧
        waits (.getMeasurements via n true msg)
          (.spdm via .measurements (toLe 64 (d.get Bar.SEC_MEAS_DIGEST (n - 1)) ++ msg))) ∧
      (d.measBlocks n = some b → answers (.getMeasurements via n false msg) .measurements b ∧
        waits (.getMeasurements via n true msg) (.spdm via .measurements (b ++ msg))) ∧
      (d.measBlocks n = none → answers (.getMeasurements via n last msg) (.error .unspecified) []) ∧
      (256 ≤ n ∨ d.altState n ≠ 1 → d.reportAllowed via n = true →
        answers (.getReport via n nonce) (.vendor Code.access) []) ∧
      (d.sec.spdm.length < 16 →
        (d.sec.idKey = true → d.signFull = true → answers (.keyExchange via ek msg) (.error .busy) []) ∧
        (d.sec.idKey = false → exec (.keyExchange via ek msg) s = .next s)) ∧
      (65536 < big.length → exec (.chunkSend via n last msg) s = .next { s with dev := (
        ({ d with sec := { d.sec with chunks := kvDel d.sec.chunks (viaKey via) } }).spdmSend via (.error .unspecified) []) }) ∧
      (held.length ≤ 4096 * n → answers (.chunkGet via n) (.error .unspecified) []) ∧
      (unopened → answers (.spdmHeartbeat via) (.error .unexpectedRequest) [] ∧
        answers (.keyUpdate via n) (.error .unexpectedRequest) [] ∧
        answers (.endSession via) (.error .unexpectedRequest) []) ∧
      (n < 256 → d.altState n = 1 → d.reportAllowed via n = true →
        waits (.getReport via n nonce) (.report via n nonce)) ∧
      (d.reportAllowed via n = false → answers (.getReport via n nonce) (.error .unexpectedRequest) []) ∧
      (16 ≤ d.sec.spdm.length → answers (.keyExchange via ek msg) (.error .sessionLimitExceeded) []) ∧
      (d.sec.spdm.length < 16 → d.sec.idKey = true → d.signFull = false →
        Completes (.keyExchange via ek msg) s fun e =>
          e.sec.signing = d.sec.signing ++ [.spdm via .keyExchangeRsp (toLe 2 d.sec.spdmNext ++ k.1 ++ msg)] ∧
          kvGet? e.sec.spdm d.sec.spdmNext = some ⟨viaKey via, false, k.2, 0, 0⟩ ∧
          e.sec.spdmNext = d.sec.spdmNext + 1 ∧ e.pool = d.pool) ∧
      (big.length ≤ 65536 →
        Completes (.chunkSend via n last msg) s fun e => kvGet? e.sec.chunks (viaKey via) = some big ∧
          e = ({ d with sec := { d.sec with chunks := kvPut d.sec.chunks (viaKey via) big } }).spdmSend via
            .chunkSendAck (toLe 2 n)) ∧
      (4096 * n < held.length →
        answers (.chunkGet via n) .chunkResponse (toLe 2 n ++ (held.drop (4096 * n)).take 4096)) ∧
      (viaSession via = none →
        answers (.spdmHeartbeat via) (.error .unexpectedRequest) [] ∧
        answers (.finish via pk proof) (.error .unexpectedRequest) [])) ∧
    (served → session → x.isOpen = true →
      answers (.spdmHeartbeat via) .heartbeatAck [] ∧ answers (.finish via pk proof) (.error .unexpectedRequest) [] ∧
      exec (.keyUpdate via n) s = .next
        { s with dev := (put { x with keyGen := x.keyGen + 1 }).spdmSend via .keyUpdateAck (toLe 1 n) } ∧
      (∃ e, exec (.endSession via) s = .next { s with dev := e } ∧ kvGet? e.sec.spdm id = none ∧
        isSent d { e with sec := { e.sec with spdm := d.sec.spdm } } .endSessionAck [])) ∧
    (served → session → x.isOpen = false →
      exec (.finish via pk proof) s = .next { s with dev := finished }) ∧
    (s.isRunning → d.sec.signing = j :: js →
      Completes .signatureDone s fun e =>
        e.sec.signing = js ∧ e.get Bar.SEC_STATUS_SIGN_QUEUE = (js.length - 1) % 16 ∧
        match j with
        | .spdm v a body => e = (d.setSigning js).spdmSend v a (body ++ Config.slhSign s.fuses.idSeed body)
        | .report v a nn => e = (d.setSigning js).spdmSend v (.vendor Code.ok) (s.signedReport a nn)
        | .hello p h ct nn => e.out = d.out ++ [.iferic p 2 Code.ok (toLe 4 p ++ ct ++ s.signedReport 0 nn)] ∧
            ∀ y, kvGet? d.sec.ifr p = some y → kvGet? e.sec.ifr p = some { y with
              phase := 1, deadline := d.now + 10000000000
              digest := Config.shake256 (h ++ (toLe 4 p ++ ct ++ s.signedReport 0 nn)) }
        | .ifrReport p a nn => e.out = d.out ++ [.iferic p 9 Code.ok (s.signedReport a nn)]) ∧
    (s.isRunning → kvGet? d.sec.mailbox ep = some m → m.answer.isSome = true → m.since + 10000000000 ≤ d.now →
      exec (.spdmAnswerExpiry ep) s = .next
        { s with dev := { d with sec := { d.sec with mailbox := kvDel d.sec.mailbox ep } } })

/-- R423, R424, R425, R426, R482: Iferic sessions and commands. A HELLO takes the lowest free number of four and waits for
the sign engine, a HELLO beyond four is dropped; AUTH by a credential that is valid opens the session with its role, any
other ends it and counts; an unopened session ends after 10 s, an idle one after 60 s. A RECORD with a SEQ that its window
holds is dropped; one above the session's role, or outside READY for all but REG_READ, FW_RELOAD and REPORT, is answered
ACCESS; the others are performed and answered. A command under no open session does nothing. Choices of the model in it: assumption 56. -/
def Obligations.IfericSessionsAndCommands : Prop :=
  ∀ (s : State) (n q off size val slot role target confirm a lane cred : Nat) (nonce ek sig chunk pk : List Byte)
    (start : Bool) (x : Ifr),
    let d := s.dev
    let kem := Config.kemEncaps ek (Config.freeNat d.free)
    let mine (j : SignJob) : Bool := match j with
      | .hello y _ _ _ => y == n
      | .ifrReport y _ _ => y == n
      | _ => false
    let held : Prop := kvGet? d.sec.ifr n = some x
    let ended (e : Dev) : Prop :=
      kvGet? e.sec.ifr n = none ∧ e.sec.signing = d.sec.signing.filter (fun j => !mine j) ∧ e.pool = d.pool
    let t : Dev := { d with sec := { d.sec with
      ifr := kvPut d.sec.ifr n { x with seen := seqTake x.seen q, deadline := d.now + 60000000000 } } }
    let said (e : Dev) (code status : Nat) (body : List Byte) : Dev :=
      { e with out := e.out ++ [.iferic n code status body] }
    let taken : Prop := s.isServing ∧ held ∧ x.phase = 2 ∧ seqFresh x.seen q = true
    let rows : List (Nat × Nat × Instr) :=
      [(1, 0, .ifrRegRead n q off size), (2, 1, .ifrRegWrite n q off size val), (3, 0, .ifrAlmanacRead n q off size),
        (4, 1, .ifrFwReload n q off chunk start), (5, 1, .ifrAllotRemove n q a), (6, 2, .ifrCredAdd n q slot pk role),
        (7, 2, .ifrCredRevoke n q slot), (8, 2, .ifrLifecycle n q target confirm), (9, 0, .ifrReport n q a nonce)]
    let read := t.barRead s.fuses (.iferic n) off size
    let wrote := State.barWrite { s with dev := t } (.iferic n) off size val
    let staged := t.stage off chunk
    let len := clampTo 29928 1048575 (off + chunk.length)
    let image := (List.range len).map fun i => kvGetD staged.boot.staging i 0
    let become (l : Nat) : Fuses := { s.fuses with lifecycle := l }
    let moved := State.lifecycleWrite { s with dev := t } (.iferic n) (confirm % 65536 * 2 ^ 16 + target % 4 * 2 ^ 10 + 2 ^ 9)
    (kvGet? d.sec.ifr n = none ∨ d.serves = false → exec (.ifrAuth n sig) s = .next s ∧ ∀ r, r ∈ rows → exec r.2.2 s = .next s) ∧
    (held → (x.phase ≠ 1 → exec (.ifrAuth n sig) s = .next s) ∧ (x.phase ≠ 2 → ∀ r, r ∈ rows → exec r.2.2 s = .next s)) ∧
    (s.isRunning → exec (.ifrClose n) s = .next { s with dev := d.endIfr n } ∧
      exec (.ifrAuthTimeout n) s = .next { s with dev := d.ifrExpire n 1 } ∧
      exec (.ifrSessionIdle n) s = .next { s with dev := d.ifrExpire n 2 }) ∧
    (2 ≤ lane ∨ d.flag Bar.MGT_LANE_LINK lane = false ∨ d.flag Bar.SEC_STATUS_ID_READY = false →
      exec (.ifrHello lane nonce ek cred) s = .next s) ∧
    (s.isServing → kvFree d.sec.ifr 4 = some n → lane < 2 → d.flag Bar.MGT_LANE_LINK lane = true →
      d.flag Bar.SEC_STATUS_ID_READY = true → d.signFull = true →
      exec (.ifrHello lane nonce ek cred) s = .next { s with dev := said d 2 Code.busy [] }) ∧
    (s.isServing → kvFree d.sec.ifr 4 = some n → lane < 2 → d.flag Bar.MGT_LANE_LINK lane = true →
      d.flag Bar.SEC_STATUS_ID_READY = true → d.signFull = false →
      Completes (.ifrHello lane nonce ek cred) s fun e =>
        kvGet? e.sec.ifr n = some ⟨lane, 0, cred, 0, [], kem.2, 0, 0⟩ ∧
        e.sec.signing = d.sec.signing ++ [.hello n (nonce ++ ek ++ toLe 1 cred) kem.1 nonce] ∧
        RegsBut [Bar.SEC_STATUS.base] d e ∧ e.pool = d.pool) ∧
    (s.isServing → kvFree d.sec.ifr 4 = none → exec (.ifrHello lane nonce ek cred) s = .next s) ∧
    (s.isServing → held → x.phase = 1 →
      Completes (.ifrAuth n sig) s fun e => match s.fuses.authentic x sig with
        | some c => e.out = d.out ++ [.iferic n 0 Code.ok []] ∧
            kvGet? e.sec.ifr n = some { x with phase := 2, role := c.role, deadline := d.now + 60000000000 }
        | none => ended e ∧ e.out = d.out ∧
            e.get Bar.SEC_STATUS_IFR_REJECT = min (d.get Bar.SEC_STATUS_IFR_REJECT + 1) 255) ∧
    (s.isRunning → held →
      (x.phase = 1 → x.deadline ≤ d.now → Completes (.ifrAuthTimeout n) s ended) ∧
      (x.phase = 2 → x.deadline ≤ d.now → Completes (.ifrSessionIdle n) s ended) ∧
      (d.now < x.deadline → exec (.ifrAuthTimeout n) s = .next s ∧ exec (.ifrSessionIdle n) s = .next s) ∧
      Completes (.ifrClose n) s ended) ∧
    (held → seqFresh x.seen q = false → ∀ r, r ∈ rows → exec r.2.2 s = .next s) ∧
    (taken → ∀ r, r ∈ rows → x.role < r.2.1 ∨ d.ready = false ∧ r.1 ≠ 1 ∧ r.1 ≠ 4 ∧ r.1 ≠ 9 →
      exec r.2.2 s = .next { s with dev := said t r.1 Code.access [] }) ∧
    (taken →
      exec (.ifrRegRead n q off size) s =
        .next { s with dev := said read.2 1 Code.ok (toLe (min 8 size) read.1) }) ∧
    (taken → 1 ≤ x.role → d.ready = true →
      exec (.ifrRegWrite n q off size val) s = .next { wrote with dev := said wrote.dev 2 Code.ok [] }) ∧
    (taken → d.ready = true →
      exec (.ifrAlmanacRead n q off size) s = .next { s with dev := said t 3 Code.ok (d.almBytes off size) }) ∧
    (taken → d.ready = true → off ≤ 8388608 → size ≤ 8388608 - off → size ≤ ifrMost →
      exec (.ifrAlmanacRead n q off size) s =
        .next { s with dev := said t 3 Code.ok (d.flashBytes (almBase + off) size) }) ∧
    (taken → 1 ≤ x.role → d.flag Bar.GEN_FW_STATUS_DONE = false →
      exec (.ifrFwReload n q off chunk start) s = .next { s with dev := said t 4 Code.busy [] }) ∧
    (taken → 1 ≤ x.role → d.flag Bar.GEN_FW_STATUS_DONE = true →
      exec (.ifrFwReload n q off chunk false) s = .next { s with dev := said staged 4 Code.ok [] } ∧
      Completes (.ifrFwReload n q off chunk true) s fun e =>
        e.get Bar.GEN_FW_CTL_LEN = len ∧ e.flag Bar.GEN_FW_CTL_SOURCE = true ∧ e.units = d.units ∧
        match checkImage image s.fuses.minSvn with
        | .inl z => e.get Bar.GEN_BOOT_FAIL = z % 2 ^ (Bar.GEN_BOOT_FAIL.hi + 1 - Bar.GEN_BOOT_FAIL.lo) ∧
            e.out = d.out ++ [.iferic n 4 Code.access []]
        | .inr _ => e.flag Bar.GEN_FW_STATUS_DONE = false ∧ (e.boot.reload.map Prod.fst) = some image ∧
            e.out = d.out ++ [.iferic n 4 Code.ok []]) ∧
    (taken → 1 ≤ x.role → d.ready = true →
      (1 ≤ a → a < 256 →
        exec (.ifrAllotRemove n q a) s = .next { s with dev := said (t.removeTenant a) 5 Code.ok [] }) ∧
      (a = 0 ∨ 256 ≤ a → exec (.ifrAllotRemove n q a) s = .next { s with dev := said t 5 Code.access [] })) ∧
    (taken → 2 ≤ x.role → d.ready = true →
      (16 ≤ slot → exec (.ifrCredAdd n q slot pk role) s = .next { s with dev := said t 6 Code.access [] }) ∧
      (kvGet? s.fuses.creds slot = none →
        exec (.ifrCredRevoke n q slot) s = .next { s with dev := said t 7 Code.access [] }) ∧
      exec (.ifrLifecycle n q target confirm) s = .next { moved with
        dev := said moved.dev 8 (if moved.fuses.lifecycle = s.fuses.lifecycle then Code.access else Code.ok) [] }) ∧
    (taken → 2 ≤ x.role → d.ready = true → slot < 16 →
      (kvGet? s.fuses.creds slot = none →
        exec (.ifrCredAdd n q slot pk role) s = .next { s with
          fuses := { s.fuses with creds := kvPut s.fuses.creds slot ⟨true, false, min 2 role, leNat (pk.take 64)⟩ }
          dev := said t 6 Code.ok [] }) ∧
      ∀ c, kvGet? s.fuses.creds slot = some c →
        exec (.ifrCredAdd n q slot pk role) s = .next { s with dev := said t 6 Code.access [] } ∧
        exec (.ifrCredRevoke n q slot) s = .next { s with
          fuses := { s.fuses with creds := kvPut s.fuses.creds slot { c with revoked := true } }
          dev := said t 7 Code.ok [] }) ∧
    (taken → x.role = 2 → d.ready = true → s.fuses.lifecycle = 1 →
      (∃ e, exec (.ifrLifecycle n q 2 0x7290) s = .next { s with fuses := become 2, dev := e } ∧
        e.out = d.out ++ [.iferic n 8 Code.ok []]) ∧
      (∃ e, exec (.ifrLifecycle n q 3 0xA5A5) s = .next { s with fuses := become 3, dev := e } ∧
        e.sec.fills = true ∧ e.out.getLast? = some (.iferic n 8 Code.ok [])) ∧
      (target % 4 = 2 → confirm % 65536 ≠ 0x7290 →
        exec (.ifrLifecycle n q target confirm) s = .next { s with dev := said t 8 Code.access [] })) ∧
    (taken → 256 ≤ a → exec (.ifrReport n q a nonce) s = .next { s with dev := said t 9 Code.access [] }) ∧
    (taken → a < 256 → d.inReset a = true →
      exec (.ifrReport n q a nonce) s = .next { s with dev := said t 9 Code.resetting [] }) ∧
    (taken → a < 256 → d.inReset a = false →
      (d.signFull = false → d.sec.idKey = false → exec (.ifrReport n q a nonce) s = .next { s with dev := t }) ∧
      (d.signFull = true → exec (.ifrReport n q a nonce) s = .next { s with dev := said t 9 Code.busy [] }) ∧
      (d.signFull = false → d.sec.idKey = true →
        Completes (.ifrReport n q a nonce) s fun e =>
          e.sec.signing = d.sec.signing ++ [.ifrReport n a nonce] ∧ e.sec.ifr = t.sec.ifr ∧ e.out = d.out))

/-- R431, R432, R435, R436, R438, R439, R440, R441, R442, R443, R446, R447: membership. Heartbeats go out window by window
and are latched; a silent member is declared dead, and the coordinator proposes a list without it, which the voters accept
or reject and a quorum commits; an installed COMMIT sets the epoch and every member's IN, fences the agents of those that
left, and fences the package that it does not list, as does an undecided deadline; packages found, join, fetch and rejoin.
A fenced package handles no EPOCH frame, and what has not come due does nothing.
Choices of the model in it: assumption 57. -/
def Obligations.MembershipDecidesEpochs : Prop :=
  ∀ (s : State) (f : Frame) (i ep t : Nat) (p : Proposal) (c : Nat × Nat × Nat × List Byte),
    let d := s.dev
    let me := d.selfIdx
    let tk := d.taken f
    let good (kind : Nat) : Prop :=
      s.isRunning ∧ f.type = Ty.epoch ∧ f.w5 >>> 28 % 16 = kind ∧ d.inTurn f = true ∧ f.badTail = false ∧
      f.payload.length = f.len ∧ f.len ≤ 4096 ∧ d.isFenced = false ∧ f.mbrEpoch = d.mbrEpoch
    let quiet : Prop :=
      d.sess = [] ∧ d.mbr.attaches = [] ∧ d.homeIdle ∧ d.units = [] ∧ ∀ k, k < 1024 → d.flag Bar.MEM_LEND_VALID k = false
    let rcd (to' w5 w6 w7 : Nat) (bs : List Byte) : TPort × Frame :=
      (.memSide 0, d.newFrame Ty.epoch 7 0 to' 0 0 0 w5 w6 w7 bs)
    let next := (d.mbrEpoch + 1) % 2 ^ 32
    let due := d.mbr.decideEnd.getD (d.now + 1000 * d.timer Bar.MBR_CFG_DECIDE_US)
    let w5 (formed : Bool) : Nat := 5 * 2 ^ 28 + (if formed then 2 ^ 27 else 0)
    let installs (e : Dev) (epoch : Nat) (formed : Bool) (ms : List Nat) (w7 : Nat) : Prop :=
      e.mbrEpoch = epoch % 2 ^ 32 ∧ e.get Bar.MBR_STATUS_STATE = 1 ∧ e.formed = (d.formed || formed) ∧
      (∀ k, k < 1024 → d.memValid k = true → e.memIsIn k = listsEp ms (d.memEp k) ∧
        e.flag Bar.MBR_MEMBER_DEAD k = false ∧
        ∀ a, d.agentIdx (d.memEp k) = some a → d.memIsIn k ≠ e.memIsIn k →
          e.flag Bar.COH_AGENT_FENCED a = d.memIsIn k) ∧
      e.mbr.own = none ∧ e.mbr.suspects = [] ∧ e.mbr.decideEnd = none ∧ e.mbr.joining = none ∧
      (e.mbr.commit.map fun x => (x.2.1, x.2.2.1)) = some (epoch, w7) ∧
      e.get Bar.MBR_STAT_INSTALLED = min (d.get Bar.MBR_STAT_INSTALLED + 1) 65535 ∧ Records d e Blk.mbr 0x01
    let commits (e : Dev) (epoch : Nat) (ms : List Nat) : Prop :=
      e.outbox = d.outbox ++ ((List.range 1024).filter fun k => d.memValid k && d.memEp k != d.myEp).map (fun k =>
        rcd (d.memEp k) (w5 (d.formedBy ms)) epoch me (listBytes ms)) ∧
      installs e epoch (d.formedBy ms) (listOf (listBytes ms)) me
    let proposes (e : Dev) (ms : List Nat) : Prop :=
      e.mbr.own = some ⟨next, me, ms, [me], d.now⟩ ∧ e.mbr.accepted = some (me, d.now) ∧ e.mbr.decideEnd = some due ∧
      e.outbox = d.outbox ++ (ms.filter fun m => 65536 ≤ m && m % 65536 != d.myEp).map (fun m =>
        rcd (m % 65536) (2 * 2 ^ 28) next me (listBytes ms))
    let leads : Prop := d.isMember = true ∧ d.isCoordinator = true ∧ d.formed = true ∧ d.quorum [me] = false
    let fenced (e : Dev) (seen src : Nat) (self : Bool) : Prop :=
      e.isFenced = true ∧ e.get Bar.MBR_FENCE_SEEN_EPOCH = seen % 2 ^ 32 ∧ e.get Bar.MBR_FENCE_BY_EP = src % 65536 ∧
      e.flag Bar.MBR_FENCE_SELF_FENCED = self ∧ e.mbr.own = none ∧ e.mbr.decideEnd = none ∧ e.mbr.joining = none ∧
      (kvGet? e.power.holds Blk.mbr).isSome = true ∧ e.mbrEpoch = d.mbrEpoch
    let dead := d.set Bar.MBR_MEMBER_DEAD 1 i
    let rows : List (Nat × Instr × (Dev → Frame → Dev)) := [(1, .suspect f, Dev.takeSuspect), (2, .propose f, Dev.takePropose),
      (3, .accept f, Dev.takeAccept), (4, .reject f, Dev.takeReject), (5, .commit f, fun d f =>
        d.takeCommit f.w6 (f.w5.testBit 27) f.srcEp (f.w5 % 2 ^ 32) f.w7 f.payload),
      (6, .epochJoin f, Dev.takeJoin), (7, .fetch f, Dev.takeFetch)]
    (s.isRunning →
      (∀ x, x ∈ rows → exec x.2.1 s = .next { s with dev := d.epochFrame f x.1 x.2.2 }) ∧
      (f.type = Ty.heartbeat →
        exec (.heartbeat f) s = .next { s with dev := afterChecks (d.recv (.memSide 0) f) Dev.takeHeartbeat }) ∧
      exec .heartbeatWindow s = .next { s with dev := d.heartbeatWindow } ∧
      exec (.deadDeclaration i) s = .next { s with dev := d.checkSilent i } ∧
      exec .proposalPhaseExpiry s = .next { s with dev := d.phaseExpires } ∧
      exec .decideDeadline s = .next { s with dev := d.decideExpires } ∧
      exec .joinTimeout s = .next { s with dev := d.joinExpires }) ∧
    (s.isReady →
      exec .found s = .next { s with dev := d.tdiGuard d.found } ∧
      exec (.join ep) s = .next { s with dev := d.tdiGuard (d.join ep) } ∧
      exec .rejoin s = .next { s with dev := d.tdiGuard d.rejoin }) ∧
    (∀ x, x ∈ rows → f.type ≠ Ty.epoch ∨ f.w5 >>> 28 % 16 ≠ x.1 ∨ d.inTurn f = false → exec x.2.1 s = .next s) ∧
    (∀ x, x ∈ rows → s.isRunning → f.type = Ty.epoch → f.w5 >>> 28 % 16 = x.1 → d.inTurn f = true → f.badTail = false →
      wrongLength f = false → d.isFenced = true → newer f.mbrEpoch d.mbrEpoch = false →
      exec x.2.1 s = .next { s with dev := tk }) ∧
    (f.type ≠ Ty.heartbeat → exec (.heartbeat f) s = .next s) ∧
    (d.isMember = false ∨ d.now < d.mbr.hbWin → exec .heartbeatWindow s = .next s) ∧
    (1024 ≤ i ∨ d.silent i = false → exec (.deadDeclaration i) s = .next s) ∧
    (d.mbr.own = none → exec .proposalPhaseExpiry s = .next s) ∧
    (d.mbr.decideEnd = none → exec .decideDeadline s = .next s) ∧
    (d.mbr.joining = none → exec .joinTimeout s = .next s) ∧
    (d.isAlone = false ∨ d.mbrEpoch ≠ 0 → exec .found s = .next s) ∧
    (d.isFenced = false → exec .rejoin s = .next s) ∧
    (s.isRunning → f.type = Ty.heartbeat → d.passes (.memSide 0) f → d.memIdx f.srcEp = some i →
      Completes (.heartbeat f) s fun e =>
        e.get Bar.MBR_MEMBER_LAST_HB_NS i = d.now % 2 ^ 64 ∧ e.get Bar.MBR_MEMBER_DOMAIN i = f.w5 % 65536 ∧
        e.flag Bar.MBR_MEMBER_DEAD i = false ∧ RegsBut [Bar.MBR_MEMBER.key i 0] d e ∧ RestSame tk e) ∧
    (s.isRunning → d.isMember = true → d.mbr.hbWin ≤ d.now →
      Completes .heartbeatWindow s fun e =>
        e.outbox = d.outbox ++ ((List.range 1024).filter fun k =>
          k != me && d.memIsIn k && d.flag Bar.MBR_MEMBER_WATCH k).map (fun k =>
            (TPort.memSide 0, d.newFrame Ty.heartbeat 7 0 (d.memEp k) 0 0 0
              (2 ^ 30 + d.get Bar.MBR_ID_FAILURE_DOMAIN) (d.mbr.hbSeq % 2 ^ 32) 0 (toLe 8 d.now))) ∧
        e.mbr.hbSeq = d.mbr.hbSeq + 1 ∧ d.now < e.mbr.hbWin ∧ e.regs = d.regs) ∧
    (s.isRunning → i < 1024 → d.silent i = true → d.isMember = true →
      Completes (.deadDeclaration i) s fun e =>
        (dead.isCoordinator = true → d.formed = false → e = dead.bump Bar.MBR_STAT_DECLARED 1) ∧
        (dead.isCoordinator = true → d.formed = true → d.mbr.own = none → d.quorum [me] = false →
          proposes e dead.proposedList ∧ e.flag Bar.MBR_MEMBER_DEAD i = true ∧ e.memIsIn i = true ∧
          e.get Bar.MBR_STAT_DECLARED = min (d.get Bar.MBR_STAT_DECLARED + 1) 65535) ∧
        (∀ k, dead.coordinator = some k → k ≠ me →
          e.outbox = d.outbox ++ [rcd (d.memEp k) (2 ^ 28 + d.memEp i) d.mbrEpoch 0 []] ∧
          e.flag Bar.MBR_MEMBER_DEAD i = true ∧ e.memIsIn i = true ∧
          e.get Bar.MBR_STAT_DECLARED = min (d.get Bar.MBR_STAT_DECLARED + 1) 65535 ∧
          e.mbr.decideEnd = (if d.formed then some due else d.mbr.decideEnd))) ∧
    (good 1 → d.isMember = true → d.memberIn f.srcEp = true →
      Completes (.suspect f) s fun e =>
        (d.isCoordinator = false → f.w5 % 65536 ∈ e.mbr.suspects ∧ e.outbox = d.outbox ∧ e.regs = d.regs) ∧
        (leads → d.mbr.own = none →
          proposes e (d.addSuspect (f.w5 % 65536)).proposedList ∧ f.w5 % 65536 ∈ e.mbr.suspects)) ∧
    (good 2 → d.memVoter me = true →
      Completes (.propose f) s fun e => e.regs = d.regs ∧
        (newer f.w6 d.mbrEpoch = true → (∀ b, d.lastAccepted = some b → f.w7 % 1024 ≤ b) →
          e.outbox = d.outbox ++ [rcd f.srcEp (3 * 2 ^ 28) f.w6 (f.w7 % 1024) []] ∧
          e.mbr.accepted = some (f.w7 % 1024, d.now) ∧
          e.mbr.decideEnd = (if d.formed then some due else d.mbr.decideEnd)) ∧
        (newer f.w6 d.mbrEpoch = false →
          e.outbox = d.outbox ++ [rcd f.srcEp (4 * 2 ^ 28) d.mbrEpoch (d.lastAccepted.getD (d.coordinator.getD 0)) []] ∧
          e.mbr = d.mbr)) ∧
    (good 3 → d.mbr.own = some p → d.memIdx f.srcEp = some i → f.w6 = p.epoch → f.w7 % 1024 = p.coord →
      d.memVoter i = true → i ∉ p.accepts → d.formed = true →
      Completes (.accept f) s fun e =>
        (d.quorum (p.accepts ++ [i]) = false →
          e.mbr.own = some { p with accepts := p.accepts ++ [i] } ∧ e.outbox = d.outbox ∧ e.regs = d.regs) ∧
        (d.quorum (p.accepts ++ [i]) = true → quiet → newer p.epoch d.mbrEpoch = true →
          listsEp (listOf (listBytes p.list)) d.myEp = true → commits e p.epoch p.list)) ∧
    (good 4 →
      Completes (.reject f) s fun e =>
        e.get Bar.MBR_STAT_REJECTS = min (d.get Bar.MBR_STAT_REJECTS + 1) 65535 ∧ RegsBut [Bar.MBR_STAT.base] d e ∧
        (d.isAlone = true → e.mbr.joining = none ∧ e.outbox = d.outbox) ∧
        (d.isAlone = false → d.mbr.own = some p → f.w7 % 1024 < p.coord →
          e.mbr.own = none ∧ e.outbox = d.outbox ++ d.suspectEps.map fun x =>
            rcd (d.memEp (f.w7 % 1024)) (2 ^ 28 + x) d.mbrEpoch 0 [])) ∧
    (good 5 → quiet →
      (newer f.w6 d.mbrEpoch = true → listsEp (listOf f.payload) d.myEp = true →
        Completes (.commit f) s fun e => installs e f.w6 (f.w5.testBit 27) (listOf f.payload) f.w7 ∧
          e.outbox = d.outbox) ∧
      (newer f.w6 d.mbrEpoch = true → listsEp (listOf f.payload) d.myEp = false →
        Completes (.commit f) s fun e => fenced e f.w6 f.srcEp false) ∧
      (newer f.w6 d.mbrEpoch = false → exec (.commit f) s = .next { s with dev := tk })) ∧
    (good 6 → d.isMember = true → ep = f.w5 % 65536 →
      Completes (.epochJoin f) s fun e =>
        (d.isCoordinator = true → d.memIdx ep = none →
          e.outbox = d.outbox ++ [rcd ep (4 * 2 ^ 28) d.mbrEpoch me []] ∧ e.mbr = d.mbr) ∧
        (leads → d.memIdx ep = some i → d.mbr.own = none → d.mbr.joiners = [] →
          e.mbr.joiners = [ep] ∧
          proposes e ({ d with mbr := { d.mbr with joiners := [ep] } }).proposedList) ∧
        (d.isCoordinator = true → d.memIdx ep = some i → d.mbr.own = some p →
          ep ∈ e.mbr.joiners ∧ e.outbox = d.outbox ∧ e.mbr.own = some p) ∧
        (∀ k, d.isCoordinator = false → d.coordinator = some k →
          e.outbox = d.outbox ++ [rcd (d.memEp k) (6 * 2 ^ 28 + ep) 0 0 []] ∧ e.mbr = d.mbr)) ∧
    (good 7 → d.isMember = true → d.mbr.commit = some c →
      exec (.fetch f) s = .next { s with
        dev := { tk with outbox := d.outbox ++ [rcd f.srcEp c.1 c.2.1 c.2.2.1 c.2.2.2] } }) ∧
    (s.isRunning → d.mbr.own = some p → p.since + 1000 * d.timer Bar.MBR_CFG_PHASE_US ≤ d.now → d.isMember = true →
      d.formed = true → d.quorum [me] = false →
      Completes .proposalPhaseExpiry s fun e => proposes e d.proposedList ∧ e.regs = d.regs) ∧
    (s.isRunning → d.mbr.decideEnd = some t → t ≤ d.now → d.formed = true → d.isFenced = false → quiet →
      Completes .decideDeadline s fun e => fenced e 0 0 true) ∧
    (s.isReady → d.isAlone = true → d.mbrEpoch = 0 → quiet →
      Completes .found s fun e =>
        installs e 1 (d.formedBy [d.memberOf d.myEp]) (listOf (listBytes [d.memberOf d.myEp])) me) ∧
    (s.isReady → d.isAlone = true → d.flag Bar.MBR_STATUS_TESTED = true →
      Completes (.join ep) s fun e =>
        e.outbox = d.outbox ++ [rcd (ep % 65536) (6 * 2 ^ 28 + d.myEp) 0 0 []] ∧
        e.mbr.joining = some (d.now + 1000 * d.timer Bar.MBR_CFG_DECIDE_US) ∧ RegsBut [Bar.MBR_CTL.base] d e) ∧
    (s.isRunning → d.mbr.joining = some t → t ≤ d.now →
      Completes .joinTimeout s fun e =>
        e.mbr.joining = none ∧ e.get Bar.MBR_STAT_REJECTS = min (d.get Bar.MBR_STAT_REJECTS + 1) 65535 ∧
        RegsBut [Bar.MBR_STAT.base] d e ∧ e.outbox = d.outbox) ∧
    (s.isReady → d.isFenced = true → d.sess = [] →
      Completes .rejoin s fun e =>
        e.mbrEpoch = 0 ∧ e.get Bar.MBR_STATUS_STATE = 0 ∧ e.formed = false ∧ e.mbr.commit = none ∧ e.mbr.own = none ∧
        (∀ k, k < 512 → e.flag Bar.MEM_SPAN_VALID k = false) ∧
        (∀ k, k < 1024 → e.memIsIn k = false ∧ e.memEp k = d.memEp k) ∧ e.pool = d.pool)

/-- R19, R455, R456, R457, R459, R460, R461, R462, R463, R464, R466, R468: the Almanac, the weeding pass and the calibration
block. An event is written into the next slot or counts in its repeat window; checkpoints, samples, FLUSH, HIST_CLEAR,
ERASE and RD_DATA act on the flash and the registers that they name; a pass tests every unit in service, what fails is
counted, recorded and dealt with, and ENABLE = 0 stops it; an accepted calibration block replaces the stored one. What has
not come due, or may not be asked, does nothing.
Choices of the model in it: assumptions 25, 58, 59, 60. -/
def Obligations.AlmanacWeedingAndCalibration : Prop :=
  ∀ (s : State) (who : Requester) (k u v : Nat) (r : TestResult) (x : AlmEvent) (xs : List AlmEvent) (w : RepWin)
    (bs : List Byte),
    let d := s.dev
    let n := d.get Bar.ALM_STATUS_NEXT
    let cycles := d.get Bar.ALM_LIFE_POWER_CYCLES
    let keeps (e : Dev) (a len : Nat) : Prop :=
      ∀ p, p < a ∨ a + len ≤ p → flashRead e.flash p = flashRead d.flash p
    let room : Prop := d.flag Bar.ALM_STATUS_FULL = false ∧ d.flag Bar.ALM_STATUS_ERASING = false ∧ n < recSlots
    let wrote (e : Dev) (y : AlmEvent) : Prop :=
      e.flashBytes (recBase + 64 * n) 64 = y.bytes cycles ∧ e.get Bar.ALM_STATUS_NEXT = n + 1 ∧
      e.flag Bar.ALM_STATUS_FULL = decide (n + 1 = recSlots)
    let ckpt (e : Dev) : Prop :=
      e.flashBytes (ckptAt d.alm.ckptNext) 1024 = d.ckptBytes ∧ e.alm.ckptSeq = d.alm.ckptSeq + 1 ∧
      e.alm.ckptNext = (d.alm.ckptNext + 1) % 1024
    let first (h : Nat) : Bool := (List.range 16).all fun b => d.get Bar.ALM_HIST_COUNT h b == 0
    let base := if d.flag Bar.ALM_RD_CTL_AREA then calBase else almBase
    let top := if d.flag Bar.ALM_RD_CTL_AREA then 65536 - 8 else 8388608 - 8
    let off := min (d.get Bar.ALM_RD_CTL_OFFSET / 8 * 8) top
    let fresh : Dev := { d with wdp := { d.wdp with left := d.passUnits, held := [] } }
    let others : Bool := d.wdp.left.any fun y => y != (k, u) && d.inService y.1 y.2
    let tested : Prop :=
      s.isRunning ∧ d.flag Bar.WDP_STATUS_RUNNING = true ∧ k < 5 ∧ u < kindUnits k ∧
      d.nextUnit k (kindPlace k u) = some u ∧ d.testable k u = true ∧ testFits k r = true ∧ (∀ m, m ∈ d.wdp.held → m < 256) ∧
      (k = 0 → (d.unit u).state = 0)
    let src := d.get Bar.WDP_CAL_ARG_SRC
    let block := d.poolBytes src 0x8B0
    (s.isRunning →
      exec .almanacEvent s = .next { s with dev := d.almStep } ∧
      exec (.repeatWindowEnd k) s = .next { s with dev := d.winEnds k } ∧
      exec .checkpointTimer s = .next { s with dev := d.ckptTimer } ∧
      exec .histogramSample s = .next { s with dev := d.sampleTimer } ∧
      exec .eraseDone s = .next { s with dev := Dev.eraseDone d } ∧
      exec .weedingPassStart s = .next { s with dev := d.passTimer } ∧
      exec (.weedingUnitTest k u r) s = .next { s with dev := d.unitTest k u r } ∧
      exec .weedingStarve s = .next { s with dev := d.starveTimer }) ∧
    (s.isReady →
      exec .flush s = .next { s with dev := d.tdiGuard (Dev.flush d) } ∧
      exec .histClear s = .next { s with dev := d.tdiGuard (Dev.histClear d) } ∧
      exec .wdpDisable s = .next { s with dev := d.tdiGuard (Dev.wdpDisable d) } ∧
      (writesAsPf0 who = true →
        exec (.erase who) s = .next { s with dev := d.tdiGuard (d.startErase who) } ∧
        exec (.calWrite who v) s = .next { s with dev := d.tdiGuard (d.calWrite v) })) ∧
    (d.alm.inq = [] → exec .almanacEvent s = .next s) ∧
    (d.alm.wins[k]? = none → exec (.repeatWindowEnd k) s = .next s) ∧
    (d.almRuns = false →
      exec .almanacEvent s = .next s ∧ exec .checkpointTimer s = .next s ∧ exec .histogramSample s = .next s) ∧
    (d.now < d.alm.ckptDue → exec .checkpointTimer s = .next s) ∧
    (d.now < d.alm.sampleDue → exec .histogramSample s = .next s) ∧
    (d.flag Bar.ALM_STATUS_ERASING = false → exec .eraseDone s = .next s) ∧
    (d.flag Bar.ALM_STATUS_ERASING = true → exec (.erase who) s = .next s) ∧
    (writesAsPf0 who = false →
      exec (.erase who) s = .next s ∧ exec (.almRdData who) s = .next s ∧ exec (.calWrite who v) s = .next s) ∧
    (d.now < d.wdp.nextNs → exec .weedingPassStart s = .next s) ∧
    (d.flag Bar.WDP_STATUS_RUNNING = false →
      exec (.weedingUnitTest k u r) s = .next s ∧ exec .weedingStarve s = .next s) ∧
    (slice v 31 16 ≠ 0xCA1B ∨ slice v 7 0 ≠ 1 ∨ d.flag Bar.WDP_CAL_STATUS_DONE = false →
      exec (.calWrite who v) s = .next s) ∧
    (d.boot.calWrite = none → exec .calibrationWriteDone s = .next s) ∧
    (s.isRunning → d.almRuns = true → d.alm.inq = x :: xs → x.rep = false → d.flag Bar.ALM_STATUS_ERASING = false →
      Completes .almanacEvent s fun e => e.alm.inq = xs ∧ e.pool = d.pool ∧
        (d.alm.wins = [] → room → wrote e x ∧ keeps e (recBase + 64 * n) 64 ∧
          e.alm.wins = (if d.get Bar.ALM_CFG_REPEAT_MS = 0 then []
            else [⟨x, x.opNs + 1000000 * d.get Bar.ALM_CFG_REPEAT_MS, 0, 0, 0, 0, 0⟩])) ∧
        (d.alm.wins = [] → d.flag Bar.ALM_STATUS_FULL = true → e.flash = d.flash ∧
          e.get Bar.ALM_STATUS_LOST = min (d.get Bar.ALM_STATUS_LOST + 1) 65535) ∧
        (d.alm.wins = [w] → sameEvent w.key x = true → x.opNs < w.endNs →
          e.alm.wins = [w.add x] ∧ e.flash = d.flash ∧ e.regs = d.regs)) ∧
    (s.isRunning → d.alm.wins = [w] → w.endNs ≤ d.opNow → d.alm.inq = [] → room →
      Completes (.repeatWindowEnd 0) s fun e => e.alm.wins = [] ∧
        (w.count = 0 → e.flash = d.flash ∧ e.regs = d.regs) ∧
        (w.count ≠ 0 → wrote e w.event ∧ keeps e (recBase + 64 * n) 64)) ∧
    (s.isRunning → d.almRuns = true → d.alm.ckptDue ≤ d.now →
      Completes .checkpointTimer s fun e => ckpt e ∧ e.alm.ckptDue = d.alm.ckptDue + d.ckptPeriod ∧ e.regs = d.regs) ∧
    (s.isReady → d.alm.ckptNext < 1024 →
      Completes .flush s fun e => ckpt e ∧
        (d.alm.wins = [w] → room → e.alm.wins = [] ∧ (w.count ≠ 0 → wrote e w.event))) ∧
    (s.isRunning → d.almRuns = true → d.alm.sampleDue ≤ d.now →
      Completes .histogramSample s fun e =>
        e.alm.sampleDue = d.alm.sampleDue + d.samplePeriod ∧ e.alm.corrTap = 0 ∧ e.alm.nmuTap = 0 ∧ e.flash = d.flash ∧
        ∀ h, h < 8 → ∀ (z : Int) (b : Nat), d.samples[h]? = some (some (z, b)) → b < 16 ∧
          (∀ q, q < 16 → e.get Bar.ALM_HIST_COUNT h q =
            min (d.get Bar.ALM_HIST_COUNT h q + (if q = b then 1 else 0)) (2 ^ 32 - 1)) ∧
          e.get Bar.ALM_EXT_MAX h = (if first h ∨ sext32 (d.get Bar.ALM_EXT_MAX h) < z then (z % 2 ^ 32).toNat
            else d.get Bar.ALM_EXT_MAX h) ∧
          e.get Bar.ALM_EXT_MIN h = (if first h ∨ z < sext32 (d.get Bar.ALM_EXT_MIN h) then (z % 2 ^ 32).toNat
            else d.get Bar.ALM_EXT_MIN h)) ∧
    (s.isReady → writesAsPf0 who = true → d.flag Bar.ALM_STATUS_ERASING = false →
      Completes (.erase who) s fun e =>
        e.flag Bar.ALM_STATUS_ERASING = true ∧ e.flash = d.flash ∧ RegsBut [Bar.ALM_STATUS.base] d e) ∧
    (s.isRunning → d.flag Bar.ALM_STATUS_ERASING = true →
      Completes .eraseDone s fun e =>
        e.flag Bar.ALM_STATUS_ERASING = false ∧ e.get Bar.ALM_STATUS_NEXT = 1 ∧ e.get Bar.ALM_STATUS_LOST = 0 ∧
        e.flag Bar.ALM_STATUS_FULL = false ∧ keeps e recBase (64 * recSlots) ∧
        (e.flashBytes recBase 2 = [0xA5, 0x5A]) ∧ (e.flashBytes (recBase + 24) 2 = [BitVec.ofNat 8 Blk.alm, 1]) ∧
        ∀ p, recBase + 64 ≤ p → p < recBase + 64 * recSlots → flashRead e.flash p = 0xFF) ∧
    (s.isReady →
      Completes .histClear s fun e => e.flash = d.flash ∧ e.alm = d.alm ∧
        ∀ h, h < 8 → e.word Bar.ALM_EXT h = 0 ∧ ∀ b, b < 16 → e.get Bar.ALM_HIST_COUNT h b = 0) ∧
    (s.isReady → writesAsPf0 who = true →
      Completes (.almRdData who) s fun e =>
        e.out = d.out ++ [.readData who Bar.ALM_RD_DATA.base 8 (leNat (d.flashBytes (base + off) 8))] ∧
        e.get Bar.ALM_RD_CTL_OFFSET = min (off + 8) top ∧ RegsBut [Bar.ALM_RD_CTL.base] d e ∧ e.flash = d.flash) ∧
    (s.isRunning → 4 ≤ d.get Bar.GEN_BOOT_STAGE → d.flag Bar.WDP_CFG_ENABLE = true →
      d.flag Bar.WDP_STATUS_RUNNING = false → d.wdp.nextNs ≤ d.now →
      Completes .weedingPassStart s fun e =>
        e.wdp.startNs = d.now ∧ e.wdp.nextNs = (d.now / d.passPeriod + 1) * d.passPeriod ∧ e.wdp.failed = false ∧
        e.flag Bar.WDP_STATUS_RUNNING = (d.passUnits.any fun y => d.inService y.1 y.2) ∧
        (∀ c m, c < 16 → fresh.nextUnit 0 c = some m → (d.unit m).state = 0 →
          m ∈ e.wdp.held ∧ (e.get Bar.CLU_STATUS_WEEDING c).testBit (m % 16) = true)) ∧
    (tested → r = .pass →
      Completes (.weedingUnitTest k u r) s fun e =>
        (k, u) ∉ e.wdp.left ∧ e.get Bar.WDP_STATUS_FAILS = d.get Bar.WDP_STATUS_FAILS ∧
        e.flag Bar.WDP_STATUS_RUNNING = others ∧
        (others = false → e.get Bar.WDP_STATUS_PASSES = min (d.get Bar.WDP_STATUS_PASSES + 1) (2 ^ 32 - 1) ∧
          e.flag Bar.MBR_STATUS_TESTED = (!d.wdp.failed || d.flag Bar.MBR_STATUS_TESTED))) ∧
    (tested → r ≠ .pass →
      Completes (.weedingUnitTest k u r) s fun e =>
        e.get Bar.WDP_STATUS_FAILS = min (d.get Bar.WDP_STATUS_FAILS + 1) 65535 ∧
        e.flag Bar.MBR_STATUS_TESTED = false ∧
        (r = .coreFail → (e.get Bar.CLU_STATUS_DISABLED (u / 16)).testBit (u % 16) = true) ∧
        (r = .engineFail → Records d e Blk.wdp 0x01 ∧ (kvGet? e.power.holds Blk.wdp).isSome = true) ∧
        (∀ q, r = .storeFail q → e.store.bad.contains (65536 * u + q % 65536) = true ∧ Records d e Blk.wdp 0x01) ∧
        (∀ q, r = .bankRows [q] → k = 1 →
          (d.get Bar.CLU_BANK_SPARES_LEFT (u / 64) (u % 64) ≠ 0 →
            e.get Bar.CLU_BANK_SPARES_LEFT (u / 64) (u % 64) = d.get Bar.CLU_BANK_SPARES_LEFT (u / 64) (u % 64) - 1) ∧
          (d.get Bar.CLU_BANK_SPARES_LEFT (u / 64) (u % 64) = 0 → e.bankState (.cluster (u / 64) (u % 64)) = 3)) ∧
        (r = .cellFail → d.get Bar.TRL_CELLS_SPARE u ≠ 0 →
          e.get Bar.TRL_CELLS_SPARE u = d.get Bar.TRL_CELLS_SPARE u - 1)) ∧
    (s.isRunning → d.flag Bar.WDP_STATUS_RUNNING = true → d.wdp.starved = false →
      d.wdp.startNs + max 1 (d.get Bar.WDP_CFG_STARVE_PASSES) * d.passPeriod ≤ d.now →
      Completes .weedingStarve s fun e =>
        e.flag Bar.WDP_STATUS_STARVED = true ∧ e.wdp.starved = true ∧ e.wdp.left = d.wdp.left ∧
        Records d e Blk.wdp 0x02) ∧
    (s.isReady → (∀ m, m ∈ d.wdp.held → m < 256) →
      Completes .wdpDisable s fun e =>
        e.flag Bar.WDP_CFG_ENABLE = false ∧ e.flag Bar.WDP_STATUS_RUNNING = false ∧ e.wdp.left = [] ∧ e.wdp.held = [] ∧
        ∀ m, m ∈ d.wdp.held → (e.get Bar.CLU_STATUS_WEEDING (m / 16)).testBit (m % 16) = false) ∧
    (s.isReady → writesAsPf0 who = true → slice v 31 16 = 0xCA1B → slice v 7 0 = 1 →
      d.flag Bar.WDP_CAL_STATUS_DONE = true →
      Completes (.calWrite who v) s fun e => e.pool = d.pool ∧ RegsBut [Bar.WDP_CAL_STATUS.base] d e ∧
        if d.inObjects 0 src 0x8B0 ∧ calOk d.boot.serial block ∧ ¬ d.rangePoisoned src 0x8B0 then
          e.flag Bar.WDP_CAL_STATUS_DONE = false ∧ e.boot.calWrite = some block ∧ keeps e calBase 65536
        else e.get Bar.WDP_CAL_STATUS_STATUS = Code.access ∧ e.flash = d.flash ∧ e.boot = d.boot) ∧
    (s.isRunning → d.boot.calWrite = some bs →
      Completes .calibrationWriteDone s fun e =>
        e.flashBytes calBase bs.length = bs ∧ keeps e calBase bs.length ∧ e.boot.calWrite = none ∧
        e.flag Bar.WDP_CAL_STATUS_DONE = true ∧ e.get Bar.WDP_CAL_STATUS_STATUS = Code.ok ∧
        e.get Bar.WDP_CAL_STATUS_WRITES = min (d.get Bar.WDP_CAL_STATUS_WRITES + 1) 255 ∧ Records d e Blk.wdp 0x04)

/-- The step of the block: with a command at the front of the queue it is `exec` of that command on the queue's rest; with
none waiting, it lets one nanosecond pass (a DESIGN CHOICE of the model, assumption 3): without PWR_OK nothing changes, and
with it the time base of R37 counts one and the fuses, the waiting commands and, after a trip, everything else stay. -/
def Obligations.StepRunsTheFrontCommand : Prop :=
  ∀ (s : State) (c : Instr) (rest : List Instr),
    step { s with pending := c :: rest } = exec c { s with pending := rest } ∧
    (s.pending = [] → ∃ d : Dev, step s = .next { s with dev := d } ∧
      (s.dev.power.pwrOk = false → d = s.dev) ∧
      (s.dev.power.pwrOk = true → s.dev.power.tripped = true → d = { s.dev with now := s.dev.now + 1 }))

/-- R403, R426, R427, R480: every command in every state is taken to a next state, leaves the waiting commands alone, and
moves the fuses only forward: the lifecycle and MIN_SVN never fall, the tamper count never falls before its end, a programmed
credential slot keeps its key and role and stays revoked, the identity stays; so what the fuses have reached holds after
every step. Choices of the model in it: assumption 8. -/
def Obligations.EveryCommandIsTakenAndFusesOnlyAdvance : Prop :=
  (∀ (c : Instr) (s : State), ∃ (z : Fuses) (d : Dev),
    exec c s = .next { s with fuses := z, dev := d } ∧ s.fuses.leadsTo z) ∧
  ∀ (z : Fuses) (s t : State), z.leadsTo s.fuses → step s = .next t → z.leadsTo t.fuses

/-- R242, R243, R244: decode and encode agree over the whole instruction set: the word of an instruction, with every operand
at every value that its fields allow, decodes to that instruction for the unit that fetches it, and the word of whatever a
word decodes to decodes to the same; a word of a MAJOR above 0x13, or of MAJOR 0, is undefined for every unit.
Choices of the model in it: assumption 44. -/
def Obligations.DecodeAndEncodeAgree : Prop :=
  (∀ (i : Instr) (w : W64), encodeInstr i = some w → (∀ u x, i ≠ .undefOp u x) → ∃ u, decodeInstr u w = i) ∧
  (∀ (u : UnitId) (v w : W64), encodeInstr (decodeInstr u v) = some w → decodeInstr u w = decodeInstr u v) ∧
  ∀ (u : UnitId) (v : W64), majorOf v = 0 ∨ 0x13 < majorOf v → decodeInstr u v = .undefOp u v

end StatedOfTheBlock
end

