-- ==== Sys2Proof/Laws/Regs.lean ====
section
/-! SUPPORT. What a write of a register or of one of its fields does to every read: the same field, another field of the
same register, another register. -/

namespace Sys2Proof.Machine

/-! ## Bit fields -/

theorem testBit_slice (w hi lo k : Nat) : (slice w hi lo).testBit k = (decide (k < hi + 1 - lo) && w.testBit (lo + k)) := by
  simp [slice, Nat.testBit_mod_two_pow, Nat.testBit_shiftRight]

theorem testBit_splice (w hi lo x k : Nat) :
    (splice w hi lo x).testBit k =
      if lo ≤ k ∧ k < hi + 1 then x.testBit (k - lo) else w.testBit k := by
  simp only [splice, Nat.testBit_xor, Nat.testBit_shiftLeft, testBit_slice, Nat.testBit_mod_two_pow]
  by_cases h : lo ≤ k
  · have e : lo + (k - lo) = k := by omega
    by_cases h2 : k < hi + 1
    · have h3 : k - lo < hi + 1 - lo := by omega
      simp [h, h2, h3, e]
    · have h3 : ¬ (k - lo < hi + 1 - lo) := by omega
      simp [h2, h3]
  · simp [h]

theorem slice_lt (w hi lo : Nat) : slice w hi lo < 2 ^ (hi + 1 - lo) := Nat.mod_lt _ (Nat.two_pow_pos _)

/-- A field reads what was written to it, in its width. -/
theorem slice_splice_same (w hi lo x : Nat) : slice (splice w hi lo x) hi lo = x % 2 ^ (hi + 1 - lo) := by
  apply Nat.eq_of_testBit_eq
  intro k
  rw [testBit_slice, testBit_splice, Nat.testBit_mod_two_pow]
  by_cases h : k < hi + 1 - lo
  · have h1 : lo ≤ lo + k ∧ lo + k < hi + 1 := by omega
    simp [h, h1]
  · simp [h]

/-- A field keeps its value when a disjoint one is written. -/
theorem slice_splice_disjoint (w hi lo x hi2 lo2 : Nat) (h : hi2 < lo ∨ hi < lo2) :
    slice (splice w hi lo x) hi2 lo2 = slice w hi2 lo2 := by
  apply Nat.eq_of_testBit_eq
  intro k
  rw [testBit_slice, testBit_splice, testBit_slice]
  by_cases hk : k < hi2 + 1 - lo2
  · have h1 : ¬ (lo ≤ lo2 + k ∧ lo2 + k < hi + 1) := by omega
    simp only [if_neg h1]
  · simp [hk]

/-! ## Finite maps -/

@[simp] theorem kvGet?_nil {α : Type} (j : Nat) : kvGet? ([] : Kv α) j = none := rfl

@[simp] theorem kvGet?_kvPut_same {α : Type} (m : Kv α) (j : Nat) (x : α) : kvGet? (kvPut m j x) j = some x := by
  induction m with
  | nil => simp [kvPut, kvGet?]
  | cons e t ih =>
    obtain ⟨k, v⟩ := e
    by_cases h : k = j
    · simp [kvPut, kvGet?, h]
    · by_cases h2 : j < k
      · simp [kvPut, kvGet?, h, h2]
      · simp [kvPut, kvGet?, h, h2, ih]

theorem kvGet?_kvPut_ne {α : Type} (m : Kv α) (i j : Nat) (x : α) (h : i ≠ j) : kvGet? (kvPut m i x) j = kvGet? m j := by
  induction m with
  | nil => simp [kvPut, kvGet?, h]
  | cons e t ih =>
    obtain ⟨k, v⟩ := e
    by_cases h1 : k = i
    · subst h1; simp [kvPut, kvGet?, h]
    · by_cases h2 : i < k
      · simp [kvPut, kvGet?, h, h1, h2]
      · by_cases h3 : k = j
        · subst h3; simp [kvPut, kvGet?, h1, h2]
        · simp [kvPut, kvGet?, h1, h2, h3, ih]

@[simp] theorem kvGetD_kvPut_same {α : Type} (m : Kv α) (j : Nat) (x z : α) : kvGetD (kvPut m j x) j z = x := by
  simp [kvGetD]

theorem kvGetD_kvPut_ne {α : Type} (m : Kv α) (i j : Nat) (x z : α) (h : i ≠ j) :
    kvGetD (kvPut m i x) j z = kvGetD m j z := by
  simp [kvGetD, kvGet?_kvPut_ne m i j x h]

@[simp] theorem kvGet?_kvDel_same {α : Type} (m : Kv α) (j : Nat) : kvGet? (kvDel m j) j = none := by
  induction m with
  | nil => rfl
  | cons e t ih =>
    obtain ⟨k, v⟩ := e
    by_cases h : k = j
    · simp [kvDel, h] at ih ⊢; exact ih
    · simp [kvDel, h, kvGet?] at ih ⊢; exact ih

theorem kvGet?_kvDel_ne {α : Type} (m : Kv α) (i j : Nat) (h : i ≠ j) : kvGet? (kvDel m i) j = kvGet? m j := by
  induction m with
  | nil => rfl
  | cons e t ih =>
    obtain ⟨k, v⟩ := e
    by_cases h1 : k = i
    · subst h1; simp [kvDel, kvGet?, h] at ih ⊢; exact ih
    · by_cases h2 : k = j
      · subst h2; simp [kvDel, h1, kvGet?]
      · simp [kvDel, h1, kvGet?, h2] at ih ⊢; exact ih

/-! ## Registers -/

@[simp] theorem word_putWord_same (d : Dev) (r : Reg) (x i j : Nat) : (d.putWord r x i j).word r i j = x := by
  simp [Dev.word, Dev.putWord]

/-- A register write leaves every register at another offset as it was. -/
theorem word_putWord_ne (d : Dev) (r q : Reg) (x i j k l : Nat) (h : r.key i j ≠ q.key k l) :
    (d.putWord r x i j).word q k l = d.word q k l := by
  simp [Dev.word, Dev.putWord, kvGetD_kvPut_ne _ _ _ _ _ h]

/-- A field reads what was written to it. -/
@[simp] theorem get_set_same (d : Dev) (f : Fld) (x i j : Nat) :
    (d.set f x i j).get f i j = x % 2 ^ (f.hi + 1 - f.lo) := by
  simp [Dev.get, Dev.set, slice_splice_same]

/-- A field that shares no bit with the one written keeps its value. -/
theorem get_set_disjoint (d : Dev) (f g : Fld) (x i j : Nat) (hr : f.reg = g.reg) (h : g.hi < f.lo ∨ f.hi < g.lo) :
    (d.set f x i j).get g i j = d.get g i j := by
  simp [Dev.get, Dev.set, ← hr, slice_splice_disjoint _ _ _ _ _ _ h]

/-- A field of a register at another offset keeps its value. -/
theorem get_set_ne (d : Dev) (f g : Fld) (x i j k l : Nat) (h : f.reg.key i j ≠ g.reg.key k l) :
    (d.set f x i j).get g k l = d.get g k l := by
  simp [Dev.get, Dev.set, word_putWord_ne _ _ _ _ _ _ _ _ h]

theorem get_putWord_ne (d : Dev) (r : Reg) (g : Fld) (x i j k l : Nat) (h : r.key i j ≠ g.reg.key k l) :
    (d.putWord r x i j).get g k l = d.get g k l := by
  simp [Dev.get, word_putWord_ne _ _ _ _ _ _ _ _ h]

theorem get_bump_same (d : Dev) (f : Fld) (n i j : Nat) :
    (d.bump f n i j).get f i j = min (d.get f i j + n) (2 ^ (f.hi + 1 - f.lo) - 1) := by
  have : 0 < 2 ^ (f.hi + 1 - f.lo) := Nat.two_pow_pos _
  simp only [Dev.bump, get_set_same]
  exact Nat.mod_eq_of_lt (by omega)

theorem get_bump_ne (d : Dev) (f g : Fld) (n i j k l : Nat) (h : f.reg.key i j ≠ g.reg.key k l) :
    (d.bump f n i j).get g k l = d.get g k l := get_set_ne _ _ _ _ _ _ _ _ h

theorem get_drop_ne (d : Dev) (f g : Fld) (n i j k l : Nat) (h : f.reg.key i j ≠ g.reg.key k l) :
    (d.drop f n i j).get g k l = d.get g k l := get_set_ne _ _ _ _ _ _ _ _ h

/-- A field is less than two to its width. -/
theorem get_lt (d : Dev) (f : Fld) (i j : Nat) : d.get f i j < 2 ^ (f.hi + 1 - f.lo) := slice_lt _ _ _

end Sys2Proof.Machine
end

