-- ==== Sys2Proof/Laws/State.lean ====
section
/-! SUPPORT. What each update leaves alone: one lemma per field and update. -/

namespace Sys2Proof.Machine

/-! ## The state -/

@[simp] theorem onDev_fuses (s : State) (f : Dev → Dev) : (s.onDev f).fuses = s.fuses := rfl
@[simp] theorem onDev_pending (s : State) (f : Dev → Dev) : (s.onDev f).pending = s.pending := rfl
@[simp] theorem onDev_dev (s : State) (f : Dev → Dev) : (s.onDev f).dev = f s.dev := rfl
@[simp] theorem live_fuses (s : State) (f : Dev → Dev) : (s.live f).fuses = s.fuses := by unfold State.live; split <;> rfl
@[simp] theorem live_pending (s : State) (f : Dev → Dev) : (s.live f).pending = s.pending := by
  unfold State.live; split <;> rfl
@[simp] theorem host_fuses (s : State) (f : Dev → Dev) : (s.host f).fuses = s.fuses := by unfold State.host; split <;> rfl
@[simp] theorem host_pending (s : State) (f : Dev → Dev) : (s.host f).pending = s.pending := by
  unfold State.host; split <;> rfl
@[simp] theorem window_fuses (s : State) (w : Nat) (f : Dev → Dev) : (s.window w f).fuses = s.fuses := by
  unfold State.window; split
  · exact host_fuses s f
  · split <;> rfl
@[simp] theorem window_pending (s : State) (w : Nat) (f : Dev → Dev) : (s.window w f).pending = s.pending := by
  unfold State.window; split
  · exact host_pending s f
  · split <;> rfl
@[simp] theorem hostBy_fuses (s : State) (who : Requester) (f : Dev → Dev) : (s.hostBy who f).fuses = s.fuses := by
  cases who <;> simp only [State.hostBy, host_fuses] <;> split <;> rfl
@[simp] theorem hostBy_pending (s : State) (who : Requester) (f : Dev → Dev) : (s.hostBy who f).pending = s.pending := by
  cases who <;> simp only [State.hostBy, host_pending] <;> split <;> rfl

/-- A running package takes the effect. -/
theorem live_running (s : State) (f : Dev → Dev) (h : s.dev.runs = true) : s.live f = s.onDev f := by simp [State.live, h]
/-- A package that does not run stays as it is. -/
theorem live_stopped (s : State) (f : Dev → Dev) (h : s.dev.runs = false) : s.live f = s := by simp [State.live, h]

/-! ## The device -/

@[simp] theorem putWord_now (d : Dev) (r : Reg) (x i j : Nat) : (d.putWord r x i j).now = d.now := rfl
@[simp] theorem putWord_pieces (d : Dev) (r : Reg) (x i j : Nat) : (d.putWord r x i j).pieces = d.pieces := rfl
@[simp] theorem putWord_power (d : Dev) (r : Reg) (x i j : Nat) : (d.putWord r x i j).power = d.power := rfl
@[simp] theorem putWord_ep (d : Dev) (r : Reg) (x i j : Nat) : (d.putWord r x i j).ep = d.ep := rfl
@[simp] theorem putWord_allot (d : Dev) (r : Reg) (x i j : Nat) : (d.putWord r x i j).allot = d.allot := rfl
@[simp] theorem putWord_flash (d : Dev) (r : Reg) (x i j : Nat) : (d.putWord r x i j).flash = d.flash := rfl
@[simp] theorem putWord_alm (d : Dev) (r : Reg) (x i j : Nat) : (d.putWord r x i j).alm = d.alm := rfl
@[simp] theorem putWord_wdp (d : Dev) (r : Reg) (x i j : Nat) : (d.putWord r x i j).wdp = d.wdp := rfl
@[simp] theorem putWord_mgt (d : Dev) (r : Reg) (x i j : Nat) : (d.putWord r x i j).mgt = d.mgt := rfl
@[simp] theorem putWord_boot (d : Dev) (r : Reg) (x i j : Nat) : (d.putWord r x i j).boot = d.boot := rfl
@[simp] theorem putWord_ports (d : Dev) (r : Reg) (x i j : Nat) : (d.putWord r x i j).ports = d.ports := rfl
@[simp] theorem putWord_laneWins (d : Dev) (r : Reg) (x i j : Nat) : (d.putWord r x i j).laneWins = d.laneWins := rfl
@[simp] theorem putWord_laneNoise (d : Dev) (r : Reg) (x i j : Nat) : (d.putWord r x i j).laneNoise = d.laneNoise := rfl
@[simp] theorem putWord_tim (d : Dev) (r : Reg) (x i j : Nat) : (d.putWord r x i j).tim = d.tim := rfl
@[simp] theorem putWord_trl (d : Dev) (r : Reg) (x i j : Nat) : (d.putWord r x i j).trl = d.trl := rfl
@[simp] theorem putWord_outbox (d : Dev) (r : Reg) (x i j : Nat) : (d.putWord r x i j).outbox = d.outbox := rfl
@[simp] theorem putWord_inbox (d : Dev) (r : Reg) (x i j : Nat) : (d.putWord r x i j).inbox = d.inbox := rfl
@[simp] theorem putWord_reqs (d : Dev) (r : Reg) (x i j : Nat) : (d.putWord r x i j).reqs = d.reqs := rfl
@[simp] theorem putWord_copies (d : Dev) (r : Reg) (x i j : Nat) : (d.putWord r x i j).copies = d.copies := rfl
@[simp] theorem putWord_nextCopy (d : Dev) (r : Reg) (x i j : Nat) : (d.putWord r x i j).nextCopy = d.nextCopy := rfl
@[simp] theorem putWord_pool (d : Dev) (r : Reg) (x i j : Nat) : (d.putWord r x i j).pool = d.pool := rfl
@[simp] theorem putWord_banks (d : Dev) (r : Reg) (x i j : Nat) : (d.putWord r x i j).banks = d.banks := rfl
@[simp] theorem putWord_nmus (d : Dev) (r : Reg) (x i j : Nat) : (d.putWord r x i j).nmus = d.nmus := rfl
@[simp] theorem putWord_coh (d : Dev) (r : Reg) (x i j : Nat) : (d.putWord r x i j).coh = d.coh := rfl
@[simp] theorem putWord_ver (d : Dev) (r : Reg) (x i j : Nat) : (d.putWord r x i j).ver = d.ver := rfl
@[simp] theorem putWord_units (d : Dev) (r : Reg) (x i j : Nat) : (d.putWord r x i j).units = d.units := rfl
@[simp] theorem putWord_store (d : Dev) (r : Reg) (x i j : Nat) : (d.putWord r x i j).store = d.store := rfl
@[simp] theorem putWord_sess (d : Dev) (r : Reg) (x i j : Nat) : (d.putWord r x i j).sess = d.sess := rfl
@[simp] theorem putWord_eng (d : Dev) (r : Reg) (x i j : Nat) : (d.putWord r x i j).eng = d.eng := rfl
@[simp] theorem putWord_sec (d : Dev) (r : Reg) (x i j : Nat) : (d.putWord r x i j).sec = d.sec := rfl
@[simp] theorem putWord_mbr (d : Dev) (r : Reg) (x i j : Nat) : (d.putWord r x i j).mbr = d.mbr := rfl
@[simp] theorem putWord_free (d : Dev) (r : Reg) (x i j : Nat) : (d.putWord r x i j).free = d.free := rfl
@[simp] theorem putWord_out (d : Dev) (r : Reg) (x i j : Nat) : (d.putWord r x i j).out = d.out := rfl

@[simp] theorem set_now (d : Dev) (f : Fld) (x i j : Nat) : (d.set f x i j).now = d.now := rfl
@[simp] theorem set_pieces (d : Dev) (f : Fld) (x i j : Nat) : (d.set f x i j).pieces = d.pieces := rfl
@[simp] theorem set_power (d : Dev) (f : Fld) (x i j : Nat) : (d.set f x i j).power = d.power := rfl
@[simp] theorem set_ep (d : Dev) (f : Fld) (x i j : Nat) : (d.set f x i j).ep = d.ep := rfl
@[simp] theorem set_allot (d : Dev) (f : Fld) (x i j : Nat) : (d.set f x i j).allot = d.allot := rfl
@[simp] theorem set_flash (d : Dev) (f : Fld) (x i j : Nat) : (d.set f x i j).flash = d.flash := rfl
@[simp] theorem set_alm (d : Dev) (f : Fld) (x i j : Nat) : (d.set f x i j).alm = d.alm := rfl
@[simp] theorem set_wdp (d : Dev) (f : Fld) (x i j : Nat) : (d.set f x i j).wdp = d.wdp := rfl
@[simp] theorem set_mgt (d : Dev) (f : Fld) (x i j : Nat) : (d.set f x i j).mgt = d.mgt := rfl
@[simp] theorem set_boot (d : Dev) (f : Fld) (x i j : Nat) : (d.set f x i j).boot = d.boot := rfl
@[simp] theorem set_ports (d : Dev) (f : Fld) (x i j : Nat) : (d.set f x i j).ports = d.ports := rfl
@[simp] theorem set_laneWins (d : Dev) (f : Fld) (x i j : Nat) : (d.set f x i j).laneWins = d.laneWins := rfl
@[simp] theorem set_laneNoise (d : Dev) (f : Fld) (x i j : Nat) : (d.set f x i j).laneNoise = d.laneNoise := rfl
@[simp] theorem set_tim (d : Dev) (f : Fld) (x i j : Nat) : (d.set f x i j).tim = d.tim := rfl
@[simp] theorem set_trl (d : Dev) (f : Fld) (x i j : Nat) : (d.set f x i j).trl = d.trl := rfl
@[simp] theorem set_outbox (d : Dev) (f : Fld) (x i j : Nat) : (d.set f x i j).outbox = d.outbox := rfl
@[simp] theorem set_inbox (d : Dev) (f : Fld) (x i j : Nat) : (d.set f x i j).inbox = d.inbox := rfl
@[simp] theorem set_reqs (d : Dev) (f : Fld) (x i j : Nat) : (d.set f x i j).reqs = d.reqs := rfl
@[simp] theorem set_copies (d : Dev) (f : Fld) (x i j : Nat) : (d.set f x i j).copies = d.copies := rfl
@[simp] theorem set_nextCopy (d : Dev) (f : Fld) (x i j : Nat) : (d.set f x i j).nextCopy = d.nextCopy := rfl
@[simp] theorem set_pool (d : Dev) (f : Fld) (x i j : Nat) : (d.set f x i j).pool = d.pool := rfl
@[simp] theorem set_banks (d : Dev) (f : Fld) (x i j : Nat) : (d.set f x i j).banks = d.banks := rfl
@[simp] theorem set_nmus (d : Dev) (f : Fld) (x i j : Nat) : (d.set f x i j).nmus = d.nmus := rfl
@[simp] theorem set_coh (d : Dev) (f : Fld) (x i j : Nat) : (d.set f x i j).coh = d.coh := rfl
@[simp] theorem set_ver (d : Dev) (f : Fld) (x i j : Nat) : (d.set f x i j).ver = d.ver := rfl
@[simp] theorem set_units (d : Dev) (f : Fld) (x i j : Nat) : (d.set f x i j).units = d.units := rfl
@[simp] theorem set_store (d : Dev) (f : Fld) (x i j : Nat) : (d.set f x i j).store = d.store := rfl
@[simp] theorem set_sess (d : Dev) (f : Fld) (x i j : Nat) : (d.set f x i j).sess = d.sess := rfl
@[simp] theorem set_eng (d : Dev) (f : Fld) (x i j : Nat) : (d.set f x i j).eng = d.eng := rfl
@[simp] theorem set_sec (d : Dev) (f : Fld) (x i j : Nat) : (d.set f x i j).sec = d.sec := rfl
@[simp] theorem set_mbr (d : Dev) (f : Fld) (x i j : Nat) : (d.set f x i j).mbr = d.mbr := rfl
@[simp] theorem set_free (d : Dev) (f : Fld) (x i j : Nat) : (d.set f x i j).free = d.free := rfl
@[simp] theorem set_out (d : Dev) (f : Fld) (x i j : Nat) : (d.set f x i j).out = d.out := rfl

@[simp] theorem bump_now (d : Dev) (f : Fld) (n i j : Nat) : (d.bump f n i j).now = d.now := rfl
@[simp] theorem bump_pieces (d : Dev) (f : Fld) (n i j : Nat) : (d.bump f n i j).pieces = d.pieces := rfl
@[simp] theorem bump_power (d : Dev) (f : Fld) (n i j : Nat) : (d.bump f n i j).power = d.power := rfl
@[simp] theorem bump_ep (d : Dev) (f : Fld) (n i j : Nat) : (d.bump f n i j).ep = d.ep := rfl
@[simp] theorem bump_allot (d : Dev) (f : Fld) (n i j : Nat) : (d.bump f n i j).allot = d.allot := rfl
@[simp] theorem bump_flash (d : Dev) (f : Fld) (n i j : Nat) : (d.bump f n i j).flash = d.flash := rfl
@[simp] theorem bump_alm (d : Dev) (f : Fld) (n i j : Nat) : (d.bump f n i j).alm = d.alm := rfl
@[simp] theorem bump_wdp (d : Dev) (f : Fld) (n i j : Nat) : (d.bump f n i j).wdp = d.wdp := rfl
@[simp] theorem bump_mgt (d : Dev) (f : Fld) (n i j : Nat) : (d.bump f n i j).mgt = d.mgt := rfl
@[simp] theorem bump_boot (d : Dev) (f : Fld) (n i j : Nat) : (d.bump f n i j).boot = d.boot := rfl
@[simp] theorem bump_ports (d : Dev) (f : Fld) (n i j : Nat) : (d.bump f n i j).ports = d.ports := rfl
@[simp] theorem bump_laneWins (d : Dev) (f : Fld) (n i j : Nat) : (d.bump f n i j).laneWins = d.laneWins := rfl
@[simp] theorem bump_laneNoise (d : Dev) (f : Fld) (n i j : Nat) : (d.bump f n i j).laneNoise = d.laneNoise := rfl
@[simp] theorem bump_tim (d : Dev) (f : Fld) (n i j : Nat) : (d.bump f n i j).tim = d.tim := rfl
@[simp] theorem bump_trl (d : Dev) (f : Fld) (n i j : Nat) : (d.bump f n i j).trl = d.trl := rfl
@[simp] theorem bump_outbox (d : Dev) (f : Fld) (n i j : Nat) : (d.bump f n i j).outbox = d.outbox := rfl
@[simp] theorem bump_inbox (d : Dev) (f : Fld) (n i j : Nat) : (d.bump f n i j).inbox = d.inbox := rfl
@[simp] theorem bump_reqs (d : Dev) (f : Fld) (n i j : Nat) : (d.bump f n i j).reqs = d.reqs := rfl
@[simp] theorem bump_copies (d : Dev) (f : Fld) (n i j : Nat) : (d.bump f n i j).copies = d.copies := rfl
@[simp] theorem bump_nextCopy (d : Dev) (f : Fld) (n i j : Nat) : (d.bump f n i j).nextCopy = d.nextCopy := rfl
@[simp] theorem bump_pool (d : Dev) (f : Fld) (n i j : Nat) : (d.bump f n i j).pool = d.pool := rfl
@[simp] theorem bump_banks (d : Dev) (f : Fld) (n i j : Nat) : (d.bump f n i j).banks = d.banks := rfl
@[simp] theorem bump_nmus (d : Dev) (f : Fld) (n i j : Nat) : (d.bump f n i j).nmus = d.nmus := rfl
@[simp] theorem bump_coh (d : Dev) (f : Fld) (n i j : Nat) : (d.bump f n i j).coh = d.coh := rfl
@[simp] theorem bump_ver (d : Dev) (f : Fld) (n i j : Nat) : (d.bump f n i j).ver = d.ver := rfl
@[simp] theorem bump_units (d : Dev) (f : Fld) (n i j : Nat) : (d.bump f n i j).units = d.units := rfl
@[simp] theorem bump_store (d : Dev) (f : Fld) (n i j : Nat) : (d.bump f n i j).store = d.store := rfl
@[simp] theorem bump_sess (d : Dev) (f : Fld) (n i j : Nat) : (d.bump f n i j).sess = d.sess := rfl
@[simp] theorem bump_eng (d : Dev) (f : Fld) (n i j : Nat) : (d.bump f n i j).eng = d.eng := rfl
@[simp] theorem bump_sec (d : Dev) (f : Fld) (n i j : Nat) : (d.bump f n i j).sec = d.sec := rfl
@[simp] theorem bump_mbr (d : Dev) (f : Fld) (n i j : Nat) : (d.bump f n i j).mbr = d.mbr := rfl
@[simp] theorem bump_free (d : Dev) (f : Fld) (n i j : Nat) : (d.bump f n i j).free = d.free := rfl
@[simp] theorem bump_out (d : Dev) (f : Fld) (n i j : Nat) : (d.bump f n i j).out = d.out := rfl

@[simp] theorem drop_now (d : Dev) (f : Fld) (n i j : Nat) : (d.drop f n i j).now = d.now := rfl
@[simp] theorem drop_pieces (d : Dev) (f : Fld) (n i j : Nat) : (d.drop f n i j).pieces = d.pieces := rfl
@[simp] theorem drop_power (d : Dev) (f : Fld) (n i j : Nat) : (d.drop f n i j).power = d.power := rfl
@[simp] theorem drop_ep (d : Dev) (f : Fld) (n i j : Nat) : (d.drop f n i j).ep = d.ep := rfl
@[simp] theorem drop_allot (d : Dev) (f : Fld) (n i j : Nat) : (d.drop f n i j).allot = d.allot := rfl
@[simp] theorem drop_flash (d : Dev) (f : Fld) (n i j : Nat) : (d.drop f n i j).flash = d.flash := rfl
@[simp] theorem drop_alm (d : Dev) (f : Fld) (n i j : Nat) : (d.drop f n i j).alm = d.alm := rfl
@[simp] theorem drop_wdp (d : Dev) (f : Fld) (n i j : Nat) : (d.drop f n i j).wdp = d.wdp := rfl
@[simp] theorem drop_mgt (d : Dev) (f : Fld) (n i j : Nat) : (d.drop f n i j).mgt = d.mgt := rfl
@[simp] theorem drop_boot (d : Dev) (f : Fld) (n i j : Nat) : (d.drop f n i j).boot = d.boot := rfl
@[simp] theorem drop_ports (d : Dev) (f : Fld) (n i j : Nat) : (d.drop f n i j).ports = d.ports := rfl
@[simp] theorem drop_laneWins (d : Dev) (f : Fld) (n i j : Nat) : (d.drop f n i j).laneWins = d.laneWins := rfl
@[simp] theorem drop_laneNoise (d : Dev) (f : Fld) (n i j : Nat) : (d.drop f n i j).laneNoise = d.laneNoise := rfl
@[simp] theorem drop_tim (d : Dev) (f : Fld) (n i j : Nat) : (d.drop f n i j).tim = d.tim := rfl
@[simp] theorem drop_trl (d : Dev) (f : Fld) (n i j : Nat) : (d.drop f n i j).trl = d.trl := rfl
@[simp] theorem drop_outbox (d : Dev) (f : Fld) (n i j : Nat) : (d.drop f n i j).outbox = d.outbox := rfl
@[simp] theorem drop_inbox (d : Dev) (f : Fld) (n i j : Nat) : (d.drop f n i j).inbox = d.inbox := rfl
@[simp] theorem drop_reqs (d : Dev) (f : Fld) (n i j : Nat) : (d.drop f n i j).reqs = d.reqs := rfl
@[simp] theorem drop_copies (d : Dev) (f : Fld) (n i j : Nat) : (d.drop f n i j).copies = d.copies := rfl
@[simp] theorem drop_nextCopy (d : Dev) (f : Fld) (n i j : Nat) : (d.drop f n i j).nextCopy = d.nextCopy := rfl
@[simp] theorem drop_pool (d : Dev) (f : Fld) (n i j : Nat) : (d.drop f n i j).pool = d.pool := rfl
@[simp] theorem drop_banks (d : Dev) (f : Fld) (n i j : Nat) : (d.drop f n i j).banks = d.banks := rfl
@[simp] theorem drop_nmus (d : Dev) (f : Fld) (n i j : Nat) : (d.drop f n i j).nmus = d.nmus := rfl
@[simp] theorem drop_coh (d : Dev) (f : Fld) (n i j : Nat) : (d.drop f n i j).coh = d.coh := rfl
@[simp] theorem drop_ver (d : Dev) (f : Fld) (n i j : Nat) : (d.drop f n i j).ver = d.ver := rfl
@[simp] theorem drop_units (d : Dev) (f : Fld) (n i j : Nat) : (d.drop f n i j).units = d.units := rfl
@[simp] theorem drop_store (d : Dev) (f : Fld) (n i j : Nat) : (d.drop f n i j).store = d.store := rfl
@[simp] theorem drop_sess (d : Dev) (f : Fld) (n i j : Nat) : (d.drop f n i j).sess = d.sess := rfl
@[simp] theorem drop_eng (d : Dev) (f : Fld) (n i j : Nat) : (d.drop f n i j).eng = d.eng := rfl
@[simp] theorem drop_sec (d : Dev) (f : Fld) (n i j : Nat) : (d.drop f n i j).sec = d.sec := rfl
@[simp] theorem drop_mbr (d : Dev) (f : Fld) (n i j : Nat) : (d.drop f n i j).mbr = d.mbr := rfl
@[simp] theorem drop_free (d : Dev) (f : Fld) (n i j : Nat) : (d.drop f n i j).free = d.free := rfl
@[simp] theorem drop_out (d : Dev) (f : Fld) (n i j : Nat) : (d.drop f n i j).out = d.out := rfl

@[simp] theorem emit_now (d : Dev) (e : OutEvent) : (d.emit e).now = d.now := rfl
@[simp] theorem emit_regs (d : Dev) (e : OutEvent) : (d.emit e).regs = d.regs := rfl
@[simp] theorem emit_pieces (d : Dev) (e : OutEvent) : (d.emit e).pieces = d.pieces := rfl
@[simp] theorem emit_power (d : Dev) (e : OutEvent) : (d.emit e).power = d.power := rfl
@[simp] theorem emit_ep (d : Dev) (e : OutEvent) : (d.emit e).ep = d.ep := rfl
@[simp] theorem emit_allot (d : Dev) (e : OutEvent) : (d.emit e).allot = d.allot := rfl
@[simp] theorem emit_flash (d : Dev) (e : OutEvent) : (d.emit e).flash = d.flash := rfl
@[simp] theorem emit_alm (d : Dev) (e : OutEvent) : (d.emit e).alm = d.alm := rfl
@[simp] theorem emit_wdp (d : Dev) (e : OutEvent) : (d.emit e).wdp = d.wdp := rfl
@[simp] theorem emit_mgt (d : Dev) (e : OutEvent) : (d.emit e).mgt = d.mgt := rfl
@[simp] theorem emit_boot (d : Dev) (e : OutEvent) : (d.emit e).boot = d.boot := rfl
@[simp] theorem emit_ports (d : Dev) (e : OutEvent) : (d.emit e).ports = d.ports := rfl
@[simp] theorem emit_laneWins (d : Dev) (e : OutEvent) : (d.emit e).laneWins = d.laneWins := rfl
@[simp] theorem emit_laneNoise (d : Dev) (e : OutEvent) : (d.emit e).laneNoise = d.laneNoise := rfl
@[simp] theorem emit_tim (d : Dev) (e : OutEvent) : (d.emit e).tim = d.tim := rfl
@[simp] theorem emit_trl (d : Dev) (e : OutEvent) : (d.emit e).trl = d.trl := rfl
@[simp] theorem emit_outbox (d : Dev) (e : OutEvent) : (d.emit e).outbox = d.outbox := rfl
@[simp] theorem emit_inbox (d : Dev) (e : OutEvent) : (d.emit e).inbox = d.inbox := rfl
@[simp] theorem emit_reqs (d : Dev) (e : OutEvent) : (d.emit e).reqs = d.reqs := rfl
@[simp] theorem emit_copies (d : Dev) (e : OutEvent) : (d.emit e).copies = d.copies := rfl
@[simp] theorem emit_nextCopy (d : Dev) (e : OutEvent) : (d.emit e).nextCopy = d.nextCopy := rfl
@[simp] theorem emit_pool (d : Dev) (e : OutEvent) : (d.emit e).pool = d.pool := rfl
@[simp] theorem emit_banks (d : Dev) (e : OutEvent) : (d.emit e).banks = d.banks := rfl
@[simp] theorem emit_nmus (d : Dev) (e : OutEvent) : (d.emit e).nmus = d.nmus := rfl
@[simp] theorem emit_coh (d : Dev) (e : OutEvent) : (d.emit e).coh = d.coh := rfl
@[simp] theorem emit_ver (d : Dev) (e : OutEvent) : (d.emit e).ver = d.ver := rfl
@[simp] theorem emit_units (d : Dev) (e : OutEvent) : (d.emit e).units = d.units := rfl
@[simp] theorem emit_store (d : Dev) (e : OutEvent) : (d.emit e).store = d.store := rfl
@[simp] theorem emit_sess (d : Dev) (e : OutEvent) : (d.emit e).sess = d.sess := rfl
@[simp] theorem emit_eng (d : Dev) (e : OutEvent) : (d.emit e).eng = d.eng := rfl
@[simp] theorem emit_sec (d : Dev) (e : OutEvent) : (d.emit e).sec = d.sec := rfl
@[simp] theorem emit_mbr (d : Dev) (e : OutEvent) : (d.emit e).mbr = d.mbr := rfl
@[simp] theorem emit_free (d : Dev) (e : OutEvent) : (d.emit e).free = d.free := rfl

@[simp] theorem setUnit_now (d : Dev) (k : Nat) (u : UnitSt) : (d.setUnit k u).now = d.now := rfl
@[simp] theorem setUnit_regs (d : Dev) (k : Nat) (u : UnitSt) : (d.setUnit k u).regs = d.regs := rfl
@[simp] theorem setUnit_pieces (d : Dev) (k : Nat) (u : UnitSt) : (d.setUnit k u).pieces = d.pieces := rfl
@[simp] theorem setUnit_power (d : Dev) (k : Nat) (u : UnitSt) : (d.setUnit k u).power = d.power := rfl
@[simp] theorem setUnit_ep (d : Dev) (k : Nat) (u : UnitSt) : (d.setUnit k u).ep = d.ep := rfl
@[simp] theorem setUnit_allot (d : Dev) (k : Nat) (u : UnitSt) : (d.setUnit k u).allot = d.allot := rfl
@[simp] theorem setUnit_flash (d : Dev) (k : Nat) (u : UnitSt) : (d.setUnit k u).flash = d.flash := rfl
@[simp] theorem setUnit_alm (d : Dev) (k : Nat) (u : UnitSt) : (d.setUnit k u).alm = d.alm := rfl
@[simp] theorem setUnit_wdp (d : Dev) (k : Nat) (u : UnitSt) : (d.setUnit k u).wdp = d.wdp := rfl
@[simp] theorem setUnit_mgt (d : Dev) (k : Nat) (u : UnitSt) : (d.setUnit k u).mgt = d.mgt := rfl
@[simp] theorem setUnit_boot (d : Dev) (k : Nat) (u : UnitSt) : (d.setUnit k u).boot = d.boot := rfl
@[simp] theorem setUnit_ports (d : Dev) (k : Nat) (u : UnitSt) : (d.setUnit k u).ports = d.ports := rfl
@[simp] theorem setUnit_laneWins (d : Dev) (k : Nat) (u : UnitSt) : (d.setUnit k u).laneWins = d.laneWins := rfl
@[simp] theorem setUnit_laneNoise (d : Dev) (k : Nat) (u : UnitSt) : (d.setUnit k u).laneNoise = d.laneNoise := rfl
@[simp] theorem setUnit_tim (d : Dev) (k : Nat) (u : UnitSt) : (d.setUnit k u).tim = d.tim := rfl
@[simp] theorem setUnit_trl (d : Dev) (k : Nat) (u : UnitSt) : (d.setUnit k u).trl = d.trl := rfl
@[simp] theorem setUnit_outbox (d : Dev) (k : Nat) (u : UnitSt) : (d.setUnit k u).outbox = d.outbox := rfl
@[simp] theorem setUnit_inbox (d : Dev) (k : Nat) (u : UnitSt) : (d.setUnit k u).inbox = d.inbox := rfl
@[simp] theorem setUnit_reqs (d : Dev) (k : Nat) (u : UnitSt) : (d.setUnit k u).reqs = d.reqs := rfl
@[simp] theorem setUnit_copies (d : Dev) (k : Nat) (u : UnitSt) : (d.setUnit k u).copies = d.copies := rfl
@[simp] theorem setUnit_nextCopy (d : Dev) (k : Nat) (u : UnitSt) : (d.setUnit k u).nextCopy = d.nextCopy := rfl
@[simp] theorem setUnit_pool (d : Dev) (k : Nat) (u : UnitSt) : (d.setUnit k u).pool = d.pool := rfl
@[simp] theorem setUnit_banks (d : Dev) (k : Nat) (u : UnitSt) : (d.setUnit k u).banks = d.banks := rfl
@[simp] theorem setUnit_nmus (d : Dev) (k : Nat) (u : UnitSt) : (d.setUnit k u).nmus = d.nmus := rfl
@[simp] theorem setUnit_coh (d : Dev) (k : Nat) (u : UnitSt) : (d.setUnit k u).coh = d.coh := rfl
@[simp] theorem setUnit_ver (d : Dev) (k : Nat) (u : UnitSt) : (d.setUnit k u).ver = d.ver := rfl
@[simp] theorem setUnit_store (d : Dev) (k : Nat) (u : UnitSt) : (d.setUnit k u).store = d.store := rfl
@[simp] theorem setUnit_sess (d : Dev) (k : Nat) (u : UnitSt) : (d.setUnit k u).sess = d.sess := rfl
@[simp] theorem setUnit_eng (d : Dev) (k : Nat) (u : UnitSt) : (d.setUnit k u).eng = d.eng := rfl
@[simp] theorem setUnit_sec (d : Dev) (k : Nat) (u : UnitSt) : (d.setUnit k u).sec = d.sec := rfl
@[simp] theorem setUnit_mbr (d : Dev) (k : Nat) (u : UnitSt) : (d.setUnit k u).mbr = d.mbr := rfl
@[simp] theorem setUnit_free (d : Dev) (k : Nat) (u : UnitSt) : (d.setUnit k u).free = d.free := rfl
@[simp] theorem setUnit_out (d : Dev) (k : Nat) (u : UnitSt) : (d.setUnit k u).out = d.out := rfl

@[simp] theorem modUnit_now (d : Dev) (k : Nat) (g : UnitSt → UnitSt) : (d.modUnit k g).now = d.now := rfl
@[simp] theorem modUnit_regs (d : Dev) (k : Nat) (g : UnitSt → UnitSt) : (d.modUnit k g).regs = d.regs := rfl
@[simp] theorem modUnit_pieces (d : Dev) (k : Nat) (g : UnitSt → UnitSt) : (d.modUnit k g).pieces = d.pieces := rfl
@[simp] theorem modUnit_power (d : Dev) (k : Nat) (g : UnitSt → UnitSt) : (d.modUnit k g).power = d.power := rfl
@[simp] theorem modUnit_ep (d : Dev) (k : Nat) (g : UnitSt → UnitSt) : (d.modUnit k g).ep = d.ep := rfl
@[simp] theorem modUnit_allot (d : Dev) (k : Nat) (g : UnitSt → UnitSt) : (d.modUnit k g).allot = d.allot := rfl
@[simp] theorem modUnit_flash (d : Dev) (k : Nat) (g : UnitSt → UnitSt) : (d.modUnit k g).flash = d.flash := rfl
@[simp] theorem modUnit_alm (d : Dev) (k : Nat) (g : UnitSt → UnitSt) : (d.modUnit k g).alm = d.alm := rfl
@[simp] theorem modUnit_wdp (d : Dev) (k : Nat) (g : UnitSt → UnitSt) : (d.modUnit k g).wdp = d.wdp := rfl
@[simp] theorem modUnit_mgt (d : Dev) (k : Nat) (g : UnitSt → UnitSt) : (d.modUnit k g).mgt = d.mgt := rfl
@[simp] theorem modUnit_boot (d : Dev) (k : Nat) (g : UnitSt → UnitSt) : (d.modUnit k g).boot = d.boot := rfl
@[simp] theorem modUnit_ports (d : Dev) (k : Nat) (g : UnitSt → UnitSt) : (d.modUnit k g).ports = d.ports := rfl
@[simp] theorem modUnit_laneWins (d : Dev) (k : Nat) (g : UnitSt → UnitSt) : (d.modUnit k g).laneWins = d.laneWins := rfl
@[simp] theorem modUnit_laneNoise (d : Dev) (k : Nat) (g : UnitSt → UnitSt) : (d.modUnit k g).laneNoise = d.laneNoise := rfl
@[simp] theorem modUnit_tim (d : Dev) (k : Nat) (g : UnitSt → UnitSt) : (d.modUnit k g).tim = d.tim := rfl
@[simp] theorem modUnit_trl (d : Dev) (k : Nat) (g : UnitSt → UnitSt) : (d.modUnit k g).trl = d.trl := rfl
@[simp] theorem modUnit_outbox (d : Dev) (k : Nat) (g : UnitSt → UnitSt) : (d.modUnit k g).outbox = d.outbox := rfl
@[simp] theorem modUnit_inbox (d : Dev) (k : Nat) (g : UnitSt → UnitSt) : (d.modUnit k g).inbox = d.inbox := rfl
@[simp] theorem modUnit_reqs (d : Dev) (k : Nat) (g : UnitSt → UnitSt) : (d.modUnit k g).reqs = d.reqs := rfl
@[simp] theorem modUnit_copies (d : Dev) (k : Nat) (g : UnitSt → UnitSt) : (d.modUnit k g).copies = d.copies := rfl
@[simp] theorem modUnit_nextCopy (d : Dev) (k : Nat) (g : UnitSt → UnitSt) : (d.modUnit k g).nextCopy = d.nextCopy := rfl
@[simp] theorem modUnit_pool (d : Dev) (k : Nat) (g : UnitSt → UnitSt) : (d.modUnit k g).pool = d.pool := rfl
@[simp] theorem modUnit_banks (d : Dev) (k : Nat) (g : UnitSt → UnitSt) : (d.modUnit k g).banks = d.banks := rfl
@[simp] theorem modUnit_nmus (d : Dev) (k : Nat) (g : UnitSt → UnitSt) : (d.modUnit k g).nmus = d.nmus := rfl
@[simp] theorem modUnit_coh (d : Dev) (k : Nat) (g : UnitSt → UnitSt) : (d.modUnit k g).coh = d.coh := rfl
@[simp] theorem modUnit_ver (d : Dev) (k : Nat) (g : UnitSt → UnitSt) : (d.modUnit k g).ver = d.ver := rfl
@[simp] theorem modUnit_store (d : Dev) (k : Nat) (g : UnitSt → UnitSt) : (d.modUnit k g).store = d.store := rfl
@[simp] theorem modUnit_sess (d : Dev) (k : Nat) (g : UnitSt → UnitSt) : (d.modUnit k g).sess = d.sess := rfl
@[simp] theorem modUnit_eng (d : Dev) (k : Nat) (g : UnitSt → UnitSt) : (d.modUnit k g).eng = d.eng := rfl
@[simp] theorem modUnit_sec (d : Dev) (k : Nat) (g : UnitSt → UnitSt) : (d.modUnit k g).sec = d.sec := rfl
@[simp] theorem modUnit_mbr (d : Dev) (k : Nat) (g : UnitSt → UnitSt) : (d.modUnit k g).mbr = d.mbr := rfl
@[simp] theorem modUnit_free (d : Dev) (k : Nat) (g : UnitSt → UnitSt) : (d.modUnit k g).free = d.free := rfl
@[simp] theorem modUnit_out (d : Dev) (k : Nat) (g : UnitSt → UnitSt) : (d.modUnit k g).out = d.out := rfl

@[simp] theorem setAllot_now (d : Dev) (a : Nat) (x : Allot) : (d.setAllot a x).now = d.now := rfl
@[simp] theorem setAllot_regs (d : Dev) (a : Nat) (x : Allot) : (d.setAllot a x).regs = d.regs := rfl
@[simp] theorem setAllot_pieces (d : Dev) (a : Nat) (x : Allot) : (d.setAllot a x).pieces = d.pieces := rfl
@[simp] theorem setAllot_power (d : Dev) (a : Nat) (x : Allot) : (d.setAllot a x).power = d.power := rfl
@[simp] theorem setAllot_ep (d : Dev) (a : Nat) (x : Allot) : (d.setAllot a x).ep = d.ep := rfl
@[simp] theorem setAllot_flash (d : Dev) (a : Nat) (x : Allot) : (d.setAllot a x).flash = d.flash := rfl
@[simp] theorem setAllot_alm (d : Dev) (a : Nat) (x : Allot) : (d.setAllot a x).alm = d.alm := rfl
@[simp] theorem setAllot_wdp (d : Dev) (a : Nat) (x : Allot) : (d.setAllot a x).wdp = d.wdp := rfl
@[simp] theorem setAllot_mgt (d : Dev) (a : Nat) (x : Allot) : (d.setAllot a x).mgt = d.mgt := rfl
@[simp] theorem setAllot_boot (d : Dev) (a : Nat) (x : Allot) : (d.setAllot a x).boot = d.boot := rfl
@[simp] theorem setAllot_ports (d : Dev) (a : Nat) (x : Allot) : (d.setAllot a x).ports = d.ports := rfl
@[simp] theorem setAllot_laneWins (d : Dev) (a : Nat) (x : Allot) : (d.setAllot a x).laneWins = d.laneWins := rfl
@[simp] theorem setAllot_laneNoise (d : Dev) (a : Nat) (x : Allot) : (d.setAllot a x).laneNoise = d.laneNoise := rfl
@[simp] theorem setAllot_tim (d : Dev) (a : Nat) (x : Allot) : (d.setAllot a x).tim = d.tim := rfl
@[simp] theorem setAllot_trl (d : Dev) (a : Nat) (x : Allot) : (d.setAllot a x).trl = d.trl := rfl
@[simp] theorem setAllot_outbox (d : Dev) (a : Nat) (x : Allot) : (d.setAllot a x).outbox = d.outbox := rfl
@[simp] theorem setAllot_inbox (d : Dev) (a : Nat) (x : Allot) : (d.setAllot a x).inbox = d.inbox := rfl
@[simp] theorem setAllot_reqs (d : Dev) (a : Nat) (x : Allot) : (d.setAllot a x).reqs = d.reqs := rfl
@[simp] theorem setAllot_copies (d : Dev) (a : Nat) (x : Allot) : (d.setAllot a x).copies = d.copies := rfl
@[simp] theorem setAllot_nextCopy (d : Dev) (a : Nat) (x : Allot) : (d.setAllot a x).nextCopy = d.nextCopy := rfl
@[simp] theorem setAllot_pool (d : Dev) (a : Nat) (x : Allot) : (d.setAllot a x).pool = d.pool := rfl
@[simp] theorem setAllot_banks (d : Dev) (a : Nat) (x : Allot) : (d.setAllot a x).banks = d.banks := rfl
@[simp] theorem setAllot_nmus (d : Dev) (a : Nat) (x : Allot) : (d.setAllot a x).nmus = d.nmus := rfl
@[simp] theorem setAllot_coh (d : Dev) (a : Nat) (x : Allot) : (d.setAllot a x).coh = d.coh := rfl
@[simp] theorem setAllot_ver (d : Dev) (a : Nat) (x : Allot) : (d.setAllot a x).ver = d.ver := rfl
@[simp] theorem setAllot_units (d : Dev) (a : Nat) (x : Allot) : (d.setAllot a x).units = d.units := rfl
@[simp] theorem setAllot_store (d : Dev) (a : Nat) (x : Allot) : (d.setAllot a x).store = d.store := rfl
@[simp] theorem setAllot_sess (d : Dev) (a : Nat) (x : Allot) : (d.setAllot a x).sess = d.sess := rfl
@[simp] theorem setAllot_eng (d : Dev) (a : Nat) (x : Allot) : (d.setAllot a x).eng = d.eng := rfl
@[simp] theorem setAllot_sec (d : Dev) (a : Nat) (x : Allot) : (d.setAllot a x).sec = d.sec := rfl
@[simp] theorem setAllot_mbr (d : Dev) (a : Nat) (x : Allot) : (d.setAllot a x).mbr = d.mbr := rfl
@[simp] theorem setAllot_free (d : Dev) (a : Nat) (x : Allot) : (d.setAllot a x).free = d.free := rfl
@[simp] theorem setAllot_out (d : Dev) (a : Nat) (x : Allot) : (d.setAllot a x).out = d.out := rfl

@[simp] theorem alert_now (d : Dev) (b : Nat) : (d.alert b).now = d.now := rfl
@[simp] theorem alert_regs (d : Dev) (b : Nat) : (d.alert b).regs = d.regs := rfl
@[simp] theorem alert_pieces (d : Dev) (b : Nat) : (d.alert b).pieces = d.pieces := rfl
@[simp] theorem alert_ep (d : Dev) (b : Nat) : (d.alert b).ep = d.ep := rfl
@[simp] theorem alert_allot (d : Dev) (b : Nat) : (d.alert b).allot = d.allot := rfl
@[simp] theorem alert_flash (d : Dev) (b : Nat) : (d.alert b).flash = d.flash := rfl
@[simp] theorem alert_alm (d : Dev) (b : Nat) : (d.alert b).alm = d.alm := rfl
@[simp] theorem alert_wdp (d : Dev) (b : Nat) : (d.alert b).wdp = d.wdp := rfl
@[simp] theorem alert_mgt (d : Dev) (b : Nat) : (d.alert b).mgt = d.mgt := rfl
@[simp] theorem alert_boot (d : Dev) (b : Nat) : (d.alert b).boot = d.boot := rfl
@[simp] theorem alert_ports (d : Dev) (b : Nat) : (d.alert b).ports = d.ports := rfl
@[simp] theorem alert_laneWins (d : Dev) (b : Nat) : (d.alert b).laneWins = d.laneWins := rfl
@[simp] theorem alert_laneNoise (d : Dev) (b : Nat) : (d.alert b).laneNoise = d.laneNoise := rfl
@[simp] theorem alert_tim (d : Dev) (b : Nat) : (d.alert b).tim = d.tim := rfl
@[simp] theorem alert_trl (d : Dev) (b : Nat) : (d.alert b).trl = d.trl := rfl
@[simp] theorem alert_outbox (d : Dev) (b : Nat) : (d.alert b).outbox = d.outbox := rfl
@[simp] theorem alert_inbox (d : Dev) (b : Nat) : (d.alert b).inbox = d.inbox := rfl
@[simp] theorem alert_reqs (d : Dev) (b : Nat) : (d.alert b).reqs = d.reqs := rfl
@[simp] theorem alert_copies (d : Dev) (b : Nat) : (d.alert b).copies = d.copies := rfl
@[simp] theorem alert_nextCopy (d : Dev) (b : Nat) : (d.alert b).nextCopy = d.nextCopy := rfl
@[simp] theorem alert_pool (d : Dev) (b : Nat) : (d.alert b).pool = d.pool := rfl
@[simp] theorem alert_banks (d : Dev) (b : Nat) : (d.alert b).banks = d.banks := rfl
@[simp] theorem alert_nmus (d : Dev) (b : Nat) : (d.alert b).nmus = d.nmus := rfl
@[simp] theorem alert_coh (d : Dev) (b : Nat) : (d.alert b).coh = d.coh := rfl
@[simp] theorem alert_ver (d : Dev) (b : Nat) : (d.alert b).ver = d.ver := rfl
@[simp] theorem alert_units (d : Dev) (b : Nat) : (d.alert b).units = d.units := rfl
@[simp] theorem alert_store (d : Dev) (b : Nat) : (d.alert b).store = d.store := rfl
@[simp] theorem alert_sess (d : Dev) (b : Nat) : (d.alert b).sess = d.sess := rfl
@[simp] theorem alert_eng (d : Dev) (b : Nat) : (d.alert b).eng = d.eng := rfl
@[simp] theorem alert_sec (d : Dev) (b : Nat) : (d.alert b).sec = d.sec := rfl
@[simp] theorem alert_mbr (d : Dev) (b : Nat) : (d.alert b).mbr = d.mbr := rfl
@[simp] theorem alert_free (d : Dev) (b : Nat) : (d.alert b).free = d.free := rfl
@[simp] theorem alert_out (d : Dev) (b : Nat) : (d.alert b).out = d.out := rfl

@[simp] theorem sendPlain_now (d : Dev) (p : TPort) (f : Frame) : (d.sendPlain p f).now = d.now := rfl
@[simp] theorem sendPlain_regs (d : Dev) (p : TPort) (f : Frame) : (d.sendPlain p f).regs = d.regs := rfl
@[simp] theorem sendPlain_pieces (d : Dev) (p : TPort) (f : Frame) : (d.sendPlain p f).pieces = d.pieces := rfl
@[simp] theorem sendPlain_power (d : Dev) (p : TPort) (f : Frame) : (d.sendPlain p f).power = d.power := rfl
@[simp] theorem sendPlain_ep (d : Dev) (p : TPort) (f : Frame) : (d.sendPlain p f).ep = d.ep := rfl
@[simp] theorem sendPlain_allot (d : Dev) (p : TPort) (f : Frame) : (d.sendPlain p f).allot = d.allot := rfl
@[simp] theorem sendPlain_flash (d : Dev) (p : TPort) (f : Frame) : (d.sendPlain p f).flash = d.flash := rfl
@[simp] theorem sendPlain_alm (d : Dev) (p : TPort) (f : Frame) : (d.sendPlain p f).alm = d.alm := rfl
@[simp] theorem sendPlain_wdp (d : Dev) (p : TPort) (f : Frame) : (d.sendPlain p f).wdp = d.wdp := rfl
@[simp] theorem sendPlain_mgt (d : Dev) (p : TPort) (f : Frame) : (d.sendPlain p f).mgt = d.mgt := rfl
@[simp] theorem sendPlain_boot (d : Dev) (p : TPort) (f : Frame) : (d.sendPlain p f).boot = d.boot := rfl
@[simp] theorem sendPlain_ports (d : Dev) (p : TPort) (f : Frame) : (d.sendPlain p f).ports = d.ports := rfl
@[simp] theorem sendPlain_laneWins (d : Dev) (p : TPort) (f : Frame) : (d.sendPlain p f).laneWins = d.laneWins := rfl
@[simp] theorem sendPlain_laneNoise (d : Dev) (p : TPort) (f : Frame) : (d.sendPlain p f).laneNoise = d.laneNoise := rfl
@[simp] theorem sendPlain_tim (d : Dev) (p : TPort) (f : Frame) : (d.sendPlain p f).tim = d.tim := rfl
@[simp] theorem sendPlain_trl (d : Dev) (p : TPort) (f : Frame) : (d.sendPlain p f).trl = d.trl := rfl
@[simp] theorem sendPlain_inbox (d : Dev) (p : TPort) (f : Frame) : (d.sendPlain p f).inbox = d.inbox := rfl
@[simp] theorem sendPlain_reqs (d : Dev) (p : TPort) (f : Frame) : (d.sendPlain p f).reqs = d.reqs := rfl
@[simp] theorem sendPlain_copies (d : Dev) (p : TPort) (f : Frame) : (d.sendPlain p f).copies = d.copies := rfl
@[simp] theorem sendPlain_nextCopy (d : Dev) (p : TPort) (f : Frame) : (d.sendPlain p f).nextCopy = d.nextCopy := rfl
@[simp] theorem sendPlain_pool (d : Dev) (p : TPort) (f : Frame) : (d.sendPlain p f).pool = d.pool := rfl
@[simp] theorem sendPlain_banks (d : Dev) (p : TPort) (f : Frame) : (d.sendPlain p f).banks = d.banks := rfl
@[simp] theorem sendPlain_nmus (d : Dev) (p : TPort) (f : Frame) : (d.sendPlain p f).nmus = d.nmus := rfl
@[simp] theorem sendPlain_coh (d : Dev) (p : TPort) (f : Frame) : (d.sendPlain p f).coh = d.coh := rfl
@[simp] theorem sendPlain_ver (d : Dev) (p : TPort) (f : Frame) : (d.sendPlain p f).ver = d.ver := rfl
@[simp] theorem sendPlain_units (d : Dev) (p : TPort) (f : Frame) : (d.sendPlain p f).units = d.units := rfl
@[simp] theorem sendPlain_store (d : Dev) (p : TPort) (f : Frame) : (d.sendPlain p f).store = d.store := rfl
@[simp] theorem sendPlain_sess (d : Dev) (p : TPort) (f : Frame) : (d.sendPlain p f).sess = d.sess := rfl
@[simp] theorem sendPlain_eng (d : Dev) (p : TPort) (f : Frame) : (d.sendPlain p f).eng = d.eng := rfl
@[simp] theorem sendPlain_sec (d : Dev) (p : TPort) (f : Frame) : (d.sendPlain p f).sec = d.sec := rfl
@[simp] theorem sendPlain_mbr (d : Dev) (p : TPort) (f : Frame) : (d.sendPlain p f).mbr = d.mbr := rfl
@[simp] theorem sendPlain_free (d : Dev) (p : TPort) (f : Frame) : (d.sendPlain p f).free = d.free := rfl
@[simp] theorem sendPlain_out (d : Dev) (p : TPort) (f : Frame) : (d.sendPlain p f).out = d.out := rfl

@[simp] theorem setSes_now (d : Dev) (id : Nat) (f : SesFld) (x : Nat) : (d.setSes id f x).now = d.now := rfl
@[simp] theorem setSes_regs (d : Dev) (id : Nat) (f : SesFld) (x : Nat) : (d.setSes id f x).regs = d.regs := rfl
@[simp] theorem setSes_pieces (d : Dev) (id : Nat) (f : SesFld) (x : Nat) : (d.setSes id f x).pieces = d.pieces := rfl
@[simp] theorem setSes_power (d : Dev) (id : Nat) (f : SesFld) (x : Nat) : (d.setSes id f x).power = d.power := rfl
@[simp] theorem setSes_ep (d : Dev) (id : Nat) (f : SesFld) (x : Nat) : (d.setSes id f x).ep = d.ep := rfl
@[simp] theorem setSes_allot (d : Dev) (id : Nat) (f : SesFld) (x : Nat) : (d.setSes id f x).allot = d.allot := rfl
@[simp] theorem setSes_flash (d : Dev) (id : Nat) (f : SesFld) (x : Nat) : (d.setSes id f x).flash = d.flash := rfl
@[simp] theorem setSes_alm (d : Dev) (id : Nat) (f : SesFld) (x : Nat) : (d.setSes id f x).alm = d.alm := rfl
@[simp] theorem setSes_wdp (d : Dev) (id : Nat) (f : SesFld) (x : Nat) : (d.setSes id f x).wdp = d.wdp := rfl
@[simp] theorem setSes_mgt (d : Dev) (id : Nat) (f : SesFld) (x : Nat) : (d.setSes id f x).mgt = d.mgt := rfl
@[simp] theorem setSes_boot (d : Dev) (id : Nat) (f : SesFld) (x : Nat) : (d.setSes id f x).boot = d.boot := rfl
@[simp] theorem setSes_ports (d : Dev) (id : Nat) (f : SesFld) (x : Nat) : (d.setSes id f x).ports = d.ports := rfl
@[simp] theorem setSes_laneWins (d : Dev) (id : Nat) (f : SesFld) (x : Nat) : (d.setSes id f x).laneWins = d.laneWins := rfl
@[simp] theorem setSes_laneNoise (d : Dev) (id : Nat) (f : SesFld) (x : Nat) : (d.setSes id f x).laneNoise = d.laneNoise := rfl
@[simp] theorem setSes_tim (d : Dev) (id : Nat) (f : SesFld) (x : Nat) : (d.setSes id f x).tim = d.tim := rfl
@[simp] theorem setSes_trl (d : Dev) (id : Nat) (f : SesFld) (x : Nat) : (d.setSes id f x).trl = d.trl := rfl
@[simp] theorem setSes_outbox (d : Dev) (id : Nat) (f : SesFld) (x : Nat) : (d.setSes id f x).outbox = d.outbox := rfl
@[simp] theorem setSes_inbox (d : Dev) (id : Nat) (f : SesFld) (x : Nat) : (d.setSes id f x).inbox = d.inbox := rfl
@[simp] theorem setSes_reqs (d : Dev) (id : Nat) (f : SesFld) (x : Nat) : (d.setSes id f x).reqs = d.reqs := rfl
@[simp] theorem setSes_copies (d : Dev) (id : Nat) (f : SesFld) (x : Nat) : (d.setSes id f x).copies = d.copies := rfl
@[simp] theorem setSes_nextCopy (d : Dev) (id : Nat) (f : SesFld) (x : Nat) : (d.setSes id f x).nextCopy = d.nextCopy := rfl
@[simp] theorem setSes_pool (d : Dev) (id : Nat) (f : SesFld) (x : Nat) : (d.setSes id f x).pool = d.pool := rfl
@[simp] theorem setSes_banks (d : Dev) (id : Nat) (f : SesFld) (x : Nat) : (d.setSes id f x).banks = d.banks := rfl
@[simp] theorem setSes_nmus (d : Dev) (id : Nat) (f : SesFld) (x : Nat) : (d.setSes id f x).nmus = d.nmus := rfl
@[simp] theorem setSes_coh (d : Dev) (id : Nat) (f : SesFld) (x : Nat) : (d.setSes id f x).coh = d.coh := rfl
@[simp] theorem setSes_ver (d : Dev) (id : Nat) (f : SesFld) (x : Nat) : (d.setSes id f x).ver = d.ver := rfl
@[simp] theorem setSes_units (d : Dev) (id : Nat) (f : SesFld) (x : Nat) : (d.setSes id f x).units = d.units := rfl
@[simp] theorem setSes_store (d : Dev) (id : Nat) (f : SesFld) (x : Nat) : (d.setSes id f x).store = d.store := rfl
@[simp] theorem setSes_eng (d : Dev) (id : Nat) (f : SesFld) (x : Nat) : (d.setSes id f x).eng = d.eng := rfl
@[simp] theorem setSes_sec (d : Dev) (id : Nat) (f : SesFld) (x : Nat) : (d.setSes id f x).sec = d.sec := rfl
@[simp] theorem setSes_mbr (d : Dev) (id : Nat) (f : SesFld) (x : Nat) : (d.setSes id f x).mbr = d.mbr := rfl
@[simp] theorem setSes_free (d : Dev) (id : Nat) (f : SesFld) (x : Nat) : (d.setSes id f x).free = d.free := rfl
@[simp] theorem setSes_out (d : Dev) (id : Nat) (f : SesFld) (x : Nat) : (d.setSes id f x).out = d.out := rfl

/-! ## Programs' units -/

@[simp] theorem unit_setUnit_same (d : Dev) (k : Nat) (u : UnitSt) : (d.setUnit k u).unit k = u := by
  simp [Dev.unit, Dev.setUnit]

theorem unit_setUnit_ne (d : Dev) (j k : Nat) (u : UnitSt) (h : j ≠ k) : (d.setUnit j u).unit k = d.unit k := by
  simp [Dev.unit, Dev.setUnit, kvGetD_kvPut_ne _ _ _ _ _ h]

@[simp] theorem unit_modUnit_same (d : Dev) (k : Nat) (g : UnitSt → UnitSt) : (d.modUnit k g).unit k = g (d.unit k) := by
  simp [Dev.modUnit]

end Sys2Proof.Machine
end

