-- ==== Sys2Proof/Laws/Execute.lean ====
section
/-! SUPPORT. What one instruction does: the fetch of an issued instruction, and what its engine's answer makes of the
device. -/

namespace Sys2Proof.Machine

@[simp] theorem unit_setUnit (d : Dev) (k : Nat) (u : UnitSt) : (d.setUnit k u).unit k = u := by
  simp [Dev.unit, Dev.setUnit]
@[simp] theorem unit_modUnit (d : Dev) (k : Nat) (g : UnitSt → UnitSt) : (d.modUnit k g).unit k = g (d.unit k) := by
  simp [Dev.modUnit]
theorem kvPut_kvPut {α : Type} (m : Kv α) (j : Nat) (x y : α) : kvPut (kvPut m j x) j y = kvPut m j y := by
  induction m with
  | nil => simp [kvPut]
  | cons e t ih =>
    obtain ⟨k, v⟩ := e
    by_cases h1 : k = j
    · simp [kvPut, h1]
    · by_cases h2 : j < k
      · simp [kvPut, h1, h2]
      · simp [kvPut, h1, h2, ih]
@[simp] theorem setUnit_setUnit (d : Dev) (k : Nat) (u v : UnitSt) : (d.setUnit k u).setUnit k v = d.setUnit k v := by
  simp [Dev.setUnit, kvPut_kvPut]
@[simp] theorem modUnit_modUnit (d : Dev) (k : Nat) (f g : UnitSt → UnitSt) :
    (d.modUnit k f).modUnit k g = d.modUnit k (fun u => g (f u)) := by
  simp [Dev.modUnit]

/-- An engine without queued instructions has nothing to do. -/
theorem drain_idle (d : Dev) (k : Nat) (h : (d.unit k).queues = []) : d.drain k = d := by simp [Dev.drain, h]

theorem word_modUnit (d : Dev) (k : Nat) (g : UnitSt → UnitSt) (r : Reg) (i j : Nat) :
    (d.modUnit k g).word r i j = d.word r i j := rfl
theorem get_modUnit (d : Dev) (k : Nat) (g : UnitSt → UnitSt) (f : Fld) (i j : Nat) :
    (d.modUnit k g).get f i j = d.get f i j := rfl
theorem ready_modUnit (d : Dev) (k : Nat) (g : UnitSt → UnitSt) : (d.modUnit k g).ready = d.ready := rfl
theorem unit_fetched (d : Dev) (k : Nat) : (d.fetched k).unit k = { d.unit k with lastPc := (d.unit k).pc } := by
  simp [Dev.fetched]

theorem fetches_modUnit (d : Dev) (k : Nat) (g : UnitSt → UnitSt) (hs : (g (d.unit k)).state = (d.unit k).state)
    (hf : (g (d.unit k)).final = (d.unit k).final) (hh : (g (d.unit k)).halted = (d.unit k).halted) :
    (d.modUnit k g).fetches k = d.fetches k := by
  simp [Dev.fetches, ready_modUnit, hs, hf, hh]

theorem codeLen_modUnit (d : Dev) (k : Nat) (g : UnitSt → UnitSt) (hi : (g (d.unit k)).inv = (d.unit k).inv) :
    (d.modUnit k g).codeLen k = d.codeLen k := by
  simp [Dev.codeLen, get_modUnit, hi]

/-- The fetch of an issued instruction that its unit executes. -/
theorem fetch_issued (d : Dev) (u : UnitId) (a : Avail) (x : Instr) (h : d.issues u x) (ha : a.on (unitKey u) = true) :
    d.fetch u a x = (true, d.fetched (unitKey u)) := by
  obtain ⟨_, hf, hq, hb, hd, _⟩ := h
  have hk : (d.fetched (unitKey u)).codeKey (unitKey u) (d.unit (unitKey u)).pc
      = d.codeKey (unitKey u) (d.unit (unitKey u)).pc := by
    simp only [Dev.codeKey, unit_fetched]; rfl
  have hs : (d.fetched (unitKey u)).store = d.store := rfl
  have hl : (d.modUnit (unitKey u) fun v => { v with lastPc := (d.unit (unitKey u)).pc }) = d.fetched (unitKey u) := by
    simp [Dev.fetched, Dev.modUnit]
  simp only [Dev.fetch, drain_idle d _ hq, hf, hl, hs, hk, hb, hd, ha]
  simp

/-- An issued instruction whose effect the SQ or its engine completes at once. -/
theorem run_go (d : Dev) (u : UnitId) (e : Nat) (a : Avail) (x : Instr) (f : Dev → Nat → Act) (g : Dev → Dev)
    (h : d.issues u x) (ha : a.on (unitKey u) = true)
    (hf : f (d.fetched (unitKey u)) (unitKey u) = .go (g (d.fetched (unitKey u))))
    (hq : ((g (d.fetched (unitKey u))).unit (unitKey u)).queues = [])
    (hg : (g (d.fetched (unitKey u))).fetches (unitKey u) = true)
    (hl : (g (d.fetched (unitKey u))).codeLen (unitKey u) = d.codeLen (unitKey u)) :
    d.run u e a x f = d.advanced (unitKey u) g := by
  have h0 := h
  obtain ⟨_, _, hqq, _, _, hlen⟩ := h0
  have hu := unit_fetched d (unitKey u)
  have hque : ((d.fetched (unitKey u)).unit (unitKey u)).queues = [] := by rw [hu]; exact hqq
  have hpc : ((d.fetched (unitKey u)).unit (unitKey u)).pc = (d.unit (unitKey u)).pc := by rw [hu]
  have hheld : ∀ n, ((d.fetched (unitKey u)).unit (unitKey u)).held n x = false := by
    intro n; simp [UnitSt.held, UnitSt.queued, hque]
  have hqe : ((d.fetched (unitKey u)).unit (unitKey u)).queue e = [] := by simp [UnitSt.queue, hque, kvGetD]
  have hfin : (d.fetched (unitKey u)).finish (unitKey u) e x (.go (g (d.fetched (unitKey u)))) =
      d.advanced (unitKey u) g := by
    have hb : (0:Int) ≤ Int.ofNat (d.unit (unitKey u)).pc + 1 ∧
        Int.ofNat (d.unit (unitKey u)).pc + 1 < Int.ofNat (d.codeLen (unitKey u)) := by
      simp only [Int.ofNat_eq_natCast]; omega
    have ht : (Int.ofNat (d.unit (unitKey u)).pc + 1).toNat = (d.unit (unitKey u)).pc + 1 := by
      simp only [Int.ofNat_eq_natCast]; omega
    simp only [Dev.finish, Dev.moveTo, hpc, hg, hl]
    rw [if_neg (by simp), if_pos hb, ht]
    rfl
  have hdr : (d.advanced (unitKey u) g).drain (unitKey u) = d.advanced (unitKey u) g :=
    drain_idle _ _ (by simp [Dev.advanced, hq])
  simp only [Dev.run, fetch_issued d u a x h ha, Dev.pass, hheld, hqe, hf]
  by_cases he : e = 0
  · subst he; simp [hfin, hdr]
  · simp [he, hfin, hdr]

/-- The same for an effect on the unit alone that keeps its queues and leaves it fetching. -/
theorem run_mod (d : Dev) (u : UnitId) (e : Nat) (a : Avail) (x : Instr) (f : Dev → Nat → Act) (g : UnitSt → UnitSt)
    (h : d.issues u x) (ha : a.on (unitKey u) = true)
    (hf : f (d.fetched (unitKey u)) (unitKey u) = .go ((d.fetched (unitKey u)).modUnit (unitKey u) g))
    (hg : ∀ v, (g v).queues = v.queues ∧ (g v).state = v.state ∧ (g v).final = v.final ∧ (g v).halted = v.halted ∧
      (g v).inv = v.inv) :
    d.run u e a x f = d.advanced (unitKey u) fun d => d.modUnit (unitKey u) g := by
  have h0 := h
  obtain ⟨_, hfe, hq, _, _, _⟩ := h0
  apply run_go d u e a x f (fun d => d.modUnit (unitKey u) g) h ha hf
  · simp [(hg _).1, unit_fetched, hq]
  · rw [fetches_modUnit _ _ _ (hg _).2.1 (hg _).2.2.1 (hg _).2.2.2.1]
    simpa [Dev.fetched, fetches_modUnit] using hfe
  · rw [codeLen_modUnit _ _ _ (hg _).2.2.2.2]
    simp [Dev.fetched, codeLen_modUnit]

end Sys2Proof.Machine
end

