-- ==== Sys2Proof/Laws/Memory.lean ====
section
/-! SUPPORT. Bytes of memory: a read after a write, and that every memory operation keeps the canonical form
(addresses rise strictly, no entry holds what an unlisted address reads as). -/

namespace Sys2Proof.Machine

/-! ## Read after write -/

theorem memRead_memWrite_same (m : List Host.Cell) (a : Nat) (b : Byte) : memRead (memWrite m a b) a = b := by
  by_cases h : b = 0
  · simp [memWrite, memRead, h, kvGetD, kvGet?_kvDel_same]
  · rw [memWrite, if_neg h, memRead, kvGetD_kvPut_same]

theorem memRead_memWrite_ne (m : List Host.Cell) (a c : Nat) (b : Byte) (hc : a ≠ c) :
    memRead (memWrite m a b) c = memRead m c := by
  by_cases h : b = 0
  · simp [memWrite, memRead, h, kvGetD, kvGet?_kvDel_ne _ _ _ hc]
  · rw [memWrite, if_neg h, memRead, kvGetD_kvPut_ne _ _ _ _ _ hc, memRead]

/-- Bytes outside the range that is written keep their values. -/
theorem memRead_memWrites_outside (m : List Host.Cell) (a c : Nat) (bs : List Byte) (h : c < a ∨ a + bs.length ≤ c) :
    memRead (memWrites m a bs) c = memRead m c := by
  induction bs generalizing m a with
  | nil => rfl
  | cons b bs ih =>
    simp only [List.length_cons] at h
    rw [memWrites, ih _ _ (by omega), memRead_memWrite_ne _ _ _ _ (by omega)]

/-- A byte inside the range that is written reads as written. -/
theorem memRead_memWrites_inside (m : List Host.Cell) (a i : Nat) (bs : List Byte) (h : i < bs.length) :
    memRead (memWrites m a bs) (a + i) = bs.getD i 0 := by
  induction bs generalizing m a i with
  | nil => simp at h
  | cons b bs ih =>
    cases i with
    | zero =>
      rw [memWrites, memRead_memWrites_outside _ _ _ _ (by omega)]
      simp [memRead_memWrite_same]
    | succ i =>
      have e : a + (i + 1) = (a + 1) + i := by omega
      rw [memWrites, e, ih _ _ _ (by simpa using h)]
      simp

/-! ## The canonical form -/

/-- Addresses rise strictly and no entry holds 0, as a statement over the list. -/
theorem memWf_iff (m : List Host.Cell) :
    memWf m = true ↔ m.Pairwise (fun x y => x.1 < y.1) ∧ ∀ x ∈ m, x.2 ≠ 0 := by
  induction m with
  | nil => simp [memWf]
  | cons c t ih =>
    cases t with
    | nil => simp [memWf]
    | cons e t =>
      simp only [memWf, Bool.and_eq_true, bne_iff_ne, ne_eq, decide_eq_true_eq, ih]
      constructor
      · rintro ⟨⟨h1, h2⟩, hp, hz⟩
        refine ⟨List.pairwise_cons.2 ⟨?_, hp⟩, ?_⟩
        · intro x hx
          rcases List.mem_cons.1 hx with rfl | hx
          · exact h2
          · exact Nat.lt_trans h2 ((List.pairwise_cons.1 hp).1 x hx)
        · intro x hx
          rcases List.mem_cons.1 hx with rfl | hx
          · exact h1
          · exact hz x hx
      · rintro ⟨hp, hz⟩
        have hp' := List.pairwise_cons.1 hp
        exact ⟨⟨hz c (by simp), hp'.1 e (by simp)⟩, hp'.2, fun x hx => hz x (by simp [hx])⟩

theorem mem_kvPut {α : Type} (m : Kv α) (a : Nat) (b : α) (x : Nat × α) (h : x ∈ kvPut m a b) : x = (a, b) ∨ x ∈ m := by
  induction m with
  | nil => simp [kvPut] at h; exact .inl h
  | cons e t ih =>
    obtain ⟨k, v⟩ := e
    by_cases h1 : k = a
    · simp [kvPut, h1] at h
      rcases h with h | h
      · exact .inl h
      · exact .inr (by simp [h])
    · by_cases h2 : a < k
      · simp [kvPut, h1, h2] at h
        rcases h with h | h | h
        · exact .inl h
        · exact .inr (by simp [h])
        · exact .inr (by simp [h])
      · simp [kvPut, h1, h2] at h
        rcases h with h | h
        · exact .inr (by simp [h])
        · rcases ih h with h | h
          · exact .inl h
          · exact .inr (by simp [h])

/-- A map with rising keys keeps them when an entry is written. -/
theorem pairwise_kvPut {α : Type} (m : Kv α) (a : Nat) (b : α) (h : m.Pairwise fun x y => x.1 < y.1) :
    (kvPut m a b).Pairwise fun x y => x.1 < y.1 := by
  induction m with
  | nil => simp [kvPut]
  | cons e t ih =>
    obtain ⟨k, v⟩ := e
    have hp := List.pairwise_cons.1 h
    by_cases h1 : k = a
    · subst h1
      simp only [kvPut, if_true]
      exact List.pairwise_cons.2 ⟨hp.1, hp.2⟩
    · by_cases h2 : a < k
      · simp only [kvPut, h1, h2, if_true, if_false]
        refine List.pairwise_cons.2 ⟨?_, h⟩
        intro x hx
        rcases List.mem_cons.1 hx with rfl | hx
        · exact h2
        · exact Nat.lt_trans h2 (hp.1 x hx)
      · simp only [kvPut, h1, h2, if_false]
        refine List.pairwise_cons.2 ⟨?_, ih hp.2⟩
        intro x hx
        rcases mem_kvPut _ _ _ _ hx with rfl | hx
        · show k < a; omega
        · exact hp.1 x hx

theorem memWrite_wf (m : List Host.Cell) (a : Nat) (b : Byte) (h : memWf m = true) : memWf (memWrite m a b) = true := by
  rw [memWf_iff] at h ⊢
  by_cases hb : b = 0
  · simp only [memWrite, hb, if_true, kvDel]
    exact ⟨h.1.filter _, fun x hx => h.2 x (List.mem_filter.1 hx).1⟩
  · simp only [memWrite, hb, if_false]
    refine ⟨pairwise_kvPut _ _ _ h.1, fun x hx => ?_⟩
    rcases mem_kvPut _ _ _ _ hx with rfl | hx
    · exact hb
    · exact h.2 x hx

theorem memWrites_wf (m : List Host.Cell) (a : Nat) (bs : List Byte) (h : memWf m = true) :
    memWf (memWrites m a bs) = true := by
  induction bs generalizing m a with
  | nil => exact h
  | cons b bs ih => exact ih _ _ (memWrite_wf _ _ _ h)

theorem memClear_wf (m : List Host.Cell) (a n : Nat) (h : memWf m = true) : memWf (memClear m a n) = true := by
  rw [memWf_iff] at h ⊢
  exact ⟨h.1.filter _, fun x hx => h.2 x (List.mem_filter.1 hx).1⟩

theorem memCopy_wf (m : List Host.Cell) (src dst n : Nat) (h : memWf m = true) : memWf (memCopy m src dst n) = true := by
  have go : ∀ (l acc : List Host.Cell), memWf acc = true →
      memWf (l.foldl (fun acc c => memWrite acc (c.1 - src + dst) c.2) acc) = true := by
    intro l
    induction l with
    | nil => exact fun _ h => h
    | cons c t ih => exact fun acc h => ih _ (memWrite_wf _ _ _ h)
  exact go _ _ (memClear_wf _ _ _ h)

end Sys2Proof.Machine
end

