-- ==== Sys2Proof/WellFormed.lean ====
section
/-! DEFINITION. Well-formed commands: every operand in the range that the manual gives it. An ill-formed command is one
that no agent can send; its meaning is total all the same. -/

namespace Sys2Proof

/-- Header fields within their widths (R65), the payload as long as LEN says, a trailer exactly with FLAGS.ENC. -/
def Frame.wf (f : Frame) : Bool :=
  decide (f.type < 32) && decide (f.cls < 8) && decide (f.allot < 256) && decide (f.dstEp < 65536) &&
  decide (f.srcEp < 65536) && decide (f.tag < 65536) && decide (f.status < 256) && decide (f.flags < 256) &&
  decide (f.len ≤ 4096) && decide (f.mapEpoch < 2 ^ 32) && decide (f.mbrEpoch < 2 ^ 32) && decide (f.w5 < 2 ^ 32) &&
  decide (f.w6 < 2 ^ 32) && decide (f.w7 < 2 ^ 32) && f.payload.length == f.len &&
  f.trailer.length == (if f.flags.testBit 1 then 16 else 0)

/-- 256 cores (R11), one Gardener for each of two dies. -/
def UnitId.wf : UnitId → Bool
  | .core n => decide (n < 256)
  | .gardener die => decide (die < 2)

def Requester.wf : Requester → Bool
  | .pf0 => true
  | .gardener die => decide (die < 2)
  | .iferic _ => true
  | .vf a => decide (1 ≤ a) && decide (a < 256)

/-- 192 fabric lanes, 16 clusters, two dies. -/
def TPort.wf : TPort → Bool
  | .fabric lane => decide (lane < 192)
  | .cluster c => decide (c < 16)
  | .memSide die => decide (die < 2)
  | .bridge die => decide (die < 2)

def BankId.wf : BankId → Bool
  | .cluster c b => decide (c < 16) && decide (b < 64)
  | .core c k i => decide (c < 16) && decide (k < 16) && decide (i < 8)

/-- A command window, or a descriptor of eight 32-bit words (R171). -/
def NmuSrc.wf : NmuSrc → Bool
  | .window w => decide (w < 3)
  | .logic ws => ws.length == 8 && ws.all fun x => decide (x < 2 ^ 32)

/-- The operands of a command are in range, and a frame is of the type that its row names. -/
def Instr.wf : Instr → Bool
  | .add u _ _ _ _ => u.wf
  | .sub u _ _ _ _ => u.wf
  | .mul u _ _ _ _ => u.wf
  | .div u _ _ _ _ => u.wf
  | .and u _ _ _ _ => u.wf
  | .or u _ _ _ _ => u.wf
  | .xor u _ _ _ _ => u.wf
  | .sll u _ _ _ _ => u.wf
  | .srl u _ _ _ _ => u.wf
  | .sra u _ _ _ _ => u.wf
  | .slt u _ _ _ _ => u.wf
  | .sltu u _ _ _ _ => u.wf
  | .li u _ _ => u.wf
  | .lih u _ _ => u.wf
  | .bCc u _ _ _ _ => u.wf
  | .bpany u _ _ => u.wf
  | .bl u _ _ => u.wf
  | .jr u _ _ => u.wf
  | .endProg u _ _ => u.wf
  | .fault u _ => u.wf
  | .nop u => u.wf
  | .ld u _ _ _ _ => u.wf
  | .st u _ _ _ _ => u.wf
  | .vld u _ _ _ _ => u.wf
  | .vst u _ _ _ _ => u.wf
  | .vldH u _ _ _ => u.wf
  | .vstH u _ _ _ => u.wf
  | .tld u _ _ => u.wf
  | .tst u _ _ => u.wf
  | .tstH u _ _ => u.wf
  | .tzero u _ => u.wf
  | .badd u _ _ _ _ _ => u.wf
  | .bfadd u _ _ _ _ => u.wf
  | .bswap u _ _ _ _ _ => u.wf
  | .vadd u _ _ _ _ _ _ => u.wf
  | .vsub u _ _ _ _ _ _ => u.wf
  | .vmul u _ _ _ _ _ _ => u.wf
  | .vfma u _ _ _ _ _ _ _ => u.wf
  | .vmax u _ _ _ _ _ _ => u.wf
  | .vmin u _ _ _ _ _ _ => u.wf
  | .vbcast u _ _ _ _ _ => u.wf
  | .vsel u _ _ _ _ _ _ => u.wf
  | .vcmpCc u _ _ _ _ _ _ _ => u.wf
  | .vmovS u _ _ _ _ => u.wf
  | .vins u _ _ _ _ => u.wf
  | .vtrow u _ _ _ _ _ => u.wf
  | .pand u _ _ _ _ => u.wf
  | .por u _ _ _ _ => u.wf
  | .pnot u _ _ _ => u.wf
  | .vexp u _ _ _ _ _ => u.wf
  | .vrcp u _ _ _ _ _ => u.wf
  | .vredmax u _ _ _ _ _ => u.wf
  | .vredsum u _ _ _ _ _ => u.wf
  | .vredamax u _ _ _ _ _ => u.wf
  | .mma u _ _ _ _ _ _ _ _ _ => u.wf
  | .tscale u _ _ => u.wf
  | .tadd u _ _ => u.wf
  | .vq u _ _ _ _ => u.wf
  | .vdq u _ _ _ _ => u.wf
  | .vqerr u _ _ _ _ => u.wf
  | .abias u _ _ _ _ _ _ _ => u.wf
  | .astat u _ _ _ _ _ _ => u.wf
  | .aprune u _ _ _ _ _ _ => u.wf
  | .cpin u _ _ _ _ _ => u.wf
  | .cpout u _ _ _ _ _ _ _ => u.wf
  | .cppp u _ _ _ _ _ => u.wf
  | .patom u _ _ _ _ _ => u.wf
  | .nmu u _ _ _ => u.wf
  | .wacq u _ _ _ => u.wf
  | .wrel u _ _ => u.wf
  | .put u _ _ _ _ => u.wf
  | .take u _ _ _ _ => u.wf
  | .wait u _ _ _ _ _ => u.wf
  | .aset u _ _ _ => u.wf
  | .aget u _ _ => u.wf
  | .rake u _ _ => u.wf
  | .sieve u _ _ => u.wf
  | .rpart u _ _ _ => u.wf
  | .sappend u _ _ _ => u.wf
  | .sblk u _ _ _ => u.wf
  | .sinfo u _ _ => u.wf
  | .sprune u _ _ => u.wf
  | .ropen u _ _ _ => u.wf
  | .rclose u _ _ _ _ => u.wf
  | .rpub u _ _ _ _ _ => u.wf
  | .xcfg u _ _ => u.wf
  | .xstat u _ => u.wf
  | .rdsctx u _ _ _ => u.wf
  | .rdpstat u _ => u.wf
  | .wrpstat u _ _ => u.wf
  | .rdflt u _ => u.wf
  | .rdtime u _ => u.wf
  | .rdwrate u _ => u.wf
  | .rgrd u _ _ _ _ => u.wf
  | .rgwr u _ _ _ _ => u.wf
  | .undefOp u _ => u.wf
  | .powerOn => true
  | .timeBaseLock => true
  | .startUpMemoryDone _ => true
  | .startUpMarchDone c _ _ => decide (c < 16)
  | .powerOff => true
  | .endpointReset => true
  | .pf0Flr => true
  | .vfFlr a => decide (a < 256)
  | .tdiUnlock a => decide (a < 256)
  | .reload who _ => who.wf
  | .commitSvn who => who.wf
  | .registerWrite who _ _ _ => who.wf
  | .rcRead who _ _ => who.wf
  | .timNowRead who => who.wf
  | .genIntWrite who _ => who.wf
  | .alertHoldExpiry block => decide (block < 20)
  | .measuringWindowEnd _ => true
  | .dieSyncLost _ => true
  | .supplyMonitorSample site _ _ => decide (site < 64)
  | .vddAonOutOfRange => true
  | .vddRetLoss => true
  | .powerSample _ => true
  | .avsUpdate => true
  | .avsStep => true
  | .refclkLoss => true
  | .refclkReturn => true
  | .tamperAssert => true
  | .cellUncorrectable die _ => decide (die < 2)
  | .portEnable p => decide (p < 192)
  | .portDisable p => decide (p < 192)
  | .trainingFramesDetected p _ => decide (p < 192)
  | .laneTrainingDone p _ => decide (p < 192)
  | .laneMapAgreed p _ _ => decide (p < 192)
  | .measureDone p _ => decide (p < 192)
  | .capabilityReceived p _ => decide (p < 192)
  | .portAccept p => decide (p < 192)
  | .bringupStepTimeout p => decide (p < 192)
  | .portRetrain p => decide (p < 192)
  | .laneDegrading lane _ => decide (lane < 192)
  | .lossOfSignal lane => decide (lane < 192)
  | .uncorrectableCodeword lane _ => decide (lane < 192)
  | .resyncMarker p cls _ => decide (p < 192) && decide (cls < 8)
  | .partnerCreditReceived p cls _ => decide (p < 192) && decide (cls < 8)
  | .frameAdmission ingress f => ingress.wf && f.wf
  | .frameTailArrival die _ _ _ => decide (die < 2)
  | .egressSend port => port.wf
  | .trlPortLlWrite p _ => decide (p < 192)
  | .read die src f => decide (die < 2) && src.wf && f.wf && f.type == 0x0
  | .write f => f.wf && f.type == 0x1
  | .atomic die src f => decide (die < 2) && src.wf && f.wf && f.type == 0x2
  | .combineEntryGrant die _ => decide (die < 2)
  | .cowCopyDone _ => true
  | .readResp f => f.wf && f.type == 0x3
  | .writeAck f => f.wf && f.type == 0x4
  | .copyDataPush f => f.wf && f.type == 0xc
  | .copyDataPull f => f.wf && f.type == 0xc
  | .evictNotice f => f.wf && f.type == 0x11
  | .nak f => f.wf && f.type == 0x12
  | .requestTimeout tag => decide (tag < 65536)
  | .invoke f => f.wf && f.type == 0x5
  | .invokeAssemblyTimeout core => decide (core < 256)
  | .warm f => f.wf && f.type == 0x8
  | .warmHoldExpiry session => decide (session < 65536)
  | .lend f => f.wf && f.type == 0x10
  | .withdraw f => f.wf && f.type == 0x10
  | .withdrawComplete entry => decide (entry < 1024)
  | .rdShared f => f.wf && f.type == 0x9
  | .rdOwn f => f.wf && f.type == 0x9
  | .upgrade f => f.wf && f.type == 0x9
  | .snoopResp f => f.wf && f.type == 0xa
  | .writeback f => f.wf && f.type == 0xb
  | .snoopTimeout tag => decide (tag < 65536)
  | .reclaim agent => decide (agent < 1024)
  | .reclaimWalkDone agent => decide (agent < 1024)
  | .cohAgentWrite agent _ => decide (agent < 1024)
  | .recall w => decide (w < 3)
  | .recallDone w => decide (w < 3)
  | .reducePart f => f.wf && f.type == 0xd
  | .heartbeat f => f.wf && f.type == 0xe
  | .suspect f => f.wf && f.type == 0xf
  | .propose f => f.wf && f.type == 0xf
  | .accept f => f.wf && f.type == 0xf
  | .reject f => f.wf && f.type == 0xf
  | .commit f => f.wf && f.type == 0xf
  | .epochJoin f => f.wf && f.type == 0xf
  | .fetch f => f.wf && f.type == 0xf
  | .map f => f.wf && f.type == 0xf
  | .pushRow f => f.wf && f.type == 0x1
  | .pushRecord f => f.wf && f.type == 0x1
  | .pushClose f => f.wf && f.type == 0x1
  | .pushCopy f => f.wf && f.type == 0x1
  | .pushCopyDone f => f.wf && f.type == 0x1
  | .memSpanWrite i _ => decide (i < 512)
  | .stackFailure stack channel => decide (stack < 12) && decide (channel < 32)
  | .cxlEnable link => decide (link < 8)
  | .cxlLinkReady link _ => decide (link < 8)
  | .cxlDisable link => decide (link < 8)
  | .cxlDrainDone link => decide (link < 8)
  | .cxlLinkFailure link => decide (link < 8)
  | .objectCreate w => decide (w < 3)
  | .objectDestroy w => decide (w < 3)
  | .setPolicy w => decide (w < 3)
  | .promote w => decide (w < 3)
  | .demote w => decide (w < 3)
  | .window w => decide (w < 3)
  | .pageCopyDone _ => true
  | .windowLayerLoaded win _ => decide (win < 64)
  | .bankOwnershipWrite bank _ => bank.wf
  | .bankHandoverDone bank => bank.wf
  | .coldFrameEntry bank => bank.wf
  | .coldFrameWakeDone bank => bank.wf
  | .marchStart c _ => decide (c < 16)
  | .marchDone c _ _ => decide (c < 16)
  | .tbtStart _ => true
  | .tbtDone _ => true
  | .nmuFill src => src.wf
  | .nmuCopy src => src.wf
  | .nmuCompare src => src.wf
  | .nmuReduce src => src.wf
  | .nmuAtomic src => src.wf
  | .nmuBurstGrant n _ => decide (n < 384)
  | .nmuBurstEnd n => decide (n < 384)
  | .refreshDue n => decide (n < 384)
  | .nmuCommandComplete _ => true
  | .createRegion w => decide (w < 3)
  | .destroyRegion w => decide (w < 3)
  | .regionOpen w => decide (w < 3)
  | .regionClose w => decide (w < 3)
  | .versionRetireDone r slot => decide (r < 4096) && decide (slot < 16)
  | .publish w => decide (w < 3)
  | .publishRecallDone r => decide (r < 4096)
  | .load w => decide (w < 3)
  | .loadComplete w => decide (w < 3)
  | .unload w => decide (w < 3)
  | .dispatch core => decide (core < 256)
  | .resultSend core => decide (core < 256)
  | .runLimitExpiry core => decide (core < 256)
  | .sessionCreate w => decide (w < 3)
  | .sessionClose w => decide (w < 3)
  | .sessionCloseComplete session => decide (session < 65536)
  | .setPlan w => decide (w < 3)
  | .sessionRead w => decide (w < 3)
  | .pruneRecordApply session => decide (session < 65536)
  | .expanderBlockDecoded core => decide (core < 256)
  | .expEgrWrite i _ => decide (i < 64)
  | .rksGrpWrite g _ => decide (g < 4096)
  | .abandon g => decide (g < 4096)
  | .roundTimeout g => decide (g < 4096)
  | .rakeRowComplete c => decide (c < 16)
  | .sieveComplete c => decide (c < 16)
  | .altEnable a => decide (a < 256)
  | .altDisable a => decide (a < 256)
  | .allotmentResetStart a => decide (a < 256)
  | .allotmentResetEnd a => decide (a < 256)
  | .notifyPop a => decide (a < 256)
  | .notifyTokenRefill a => decide (a < 256)
  | .vectorUnmask entry => decide (entry < 2048)
  | .mapInstall => true
  | .drainWindowEnd => true
  | .lifecycleDeploy who _ => who.wf
  | .lifecycleReturn who _ => who.wf
  | .returnFillsDone => true
  | .getVersion _ => true
  | .getCapabilities _ _ => true
  | .negotiateAlgorithms _ _ => true
  | .getDigests _ _ => true
  | .getCertificate _ _ _ _ => true
  | .challenge _ _ => true
  | .getMeasurements _ _ _ _ => true
  | .keyExchange _ _ _ => true
  | .finish _ _ _ => true
  | .spdmHeartbeat _ => true
  | .keyUpdate _ _ => true
  | .endSession _ => true
  | .chunkSend _ _ _ _ => true
  | .chunkGet _ _ => true
  | .getReport _ a _ => decide (a < 256)
  | .provisionFabric _ a _ _ => decide (a < 256)
  | .roll _ a => decide (a < 256)
  | .retireOld _ a => decide (a < 256)
  | .signatureDone => true
  | .spdmAnswerExpiry ep => decide (ep < 65536)
  | .tenantRemove who a => who.wf && decide (a < 256)
  | .credProgram i => decide (i < 16)
  | .credRevoke i => decide (i < 16)
  | .ifrHello lane _ _ _ => decide (lane < 2)
  | .ifrAuth _ _ => true
  | .ifrAuthTimeout _ => true
  | .ifrClose _ => true
  | .ifrSessionIdle _ => true
  | .ifrRegRead _ _ _ _ => true
  | .ifrRegWrite _ _ _ _ _ => true
  | .ifrAlmanacRead _ _ _ _ => true
  | .ifrFwReload _ _ _ _ _ => true
  | .ifrAllotRemove _ _ a => decide (a < 256)
  | .ifrCredAdd _ _ _ _ _ => true
  | .ifrCredRevoke _ _ _ => true
  | .ifrLifecycle _ _ _ _ => true
  | .ifrReport _ _ a _ => decide (a < 256)
  | .heartbeatWindow => true
  | .deadDeclaration i => decide (i < 1024)
  | .proposalPhaseExpiry => true
  | .decideDeadline => true
  | .found => true
  | .join ep => decide (ep < 65536)
  | .joinTimeout => true
  | .rejoin => true
  | .sendMap => true
  | .attach w => decide (w < 3)
  | .attachComplete w => decide (w < 3)
  | .almanacEvent => true
  | .repeatWindowEnd _ => true
  | .checkpointTimer => true
  | .histogramSample => true
  | .erase who => who.wf
  | .eraseDone => true
  | .flush => true
  | .histClear => true
  | .almRdData who => who.wf
  | .weedingPassStart => true
  | .weedingUnitTest kind _ _ => decide (kind < 5)
  | .weedingStarve => true
  | .wdpDisable => true
  | .calWrite who _ => who.wf
  | .mgtLaneLinkUp lane _ => decide (lane < 2)
  | .mgtSpeedTryExpiry lane => decide (lane < 2)
  | .mgtNeighbourQuery lane _ => decide (lane < 2)
  | .ptpMessage lane _ => decide (lane < 2)
  | .ptpMasterLost => true
  | .ptpHoldoverExpiry => true
  | .dieSyncRegained _ => true
  | .vddAonRestored => true
  | .mgtLaneLinkLoss lane => decide (lane < 2)
  | .tdiConfigLocked a => decide (a < 256)
  | .tdiRun a => decide (a < 256)
  | .localCopyArrival _ _ => true
  | .snapshotWindow => true
  | .calibrationWriteDone => true
  | .reloadDone => true

end Sys2Proof
end

