-- ==== Sys2Proof/Tests/Slice0.lean ====
section
/-! SUPPORT. The model's own tests: ill-formed commands that WellFormed refuses, words decoded bit by bit, states that meet
the hypotheses of the statements, and single steps whose results are worked out by hand from the manual. -/

namespace Sys2Proof.Tests

set_option Elab.async false

open Sys2Proof Sys2Proof.Machine

/-! ## Small states -/

/-- A package that runs, in start-up, with changes. -/
def on (f : Dev → Dev) : State :=
  { State.reset with dev := f { Dev.reset with power := { Dev.reset.power with pwrOk := true } } }

/-- A package in READY. -/
def ready (f : Dev → Dev) : State := on fun d => f (d.set Bar.GEN_BOOT_STAGE 4)

/-- An invocation of allotment 0 from endpoint 9 with slot 0. -/
def inv0 : Inv :=
  { allot := 0, srcEp := 9, tag := 5, slot := 0, part := 0, sess := none, layer := 0, last := 0, step := 7, mapEpoch := 0
    mbrEpoch := 0, arrived := [0], bytes := 8, deadline := 0, replay := false, header := 0 }

/-- Core 0 runs a program of two words, of which the first is the instruction. -/
def running (x : Instr) (f : Dev → Dev := id) : State := ready fun d =>
  let d1 : Dev := { d with
    units := [(0, { UnitSt.idle with state := 2, inv := some inv0 })]
    store := { d.store with code := [(0, (encodeInstr x).getD 0)] } }
  f (d1.set Bar.CLU_SLOT_LENGTH 2 0)

/-- The Gardener of die 0 runs a program that begins with the instruction. -/
def gardens (x : Instr) (f : Dev → Dev := id) : State := ready fun d =>
  f { d with store := { d.store with code := [(65536 * 16, (encodeInstr x).getD 0)] } }

abbrev U : UnitId := .core 0
abbrev G : UnitId := .gardener 0

/-- Core 0's banks are OWNED by allotment 0. -/
def owned (d : Dev) : Dev :=
  (List.range 8).foldl (fun d i => d.setBankState 1 (.core 0 0 i)) (d.set Bar.CLU_CORE_OWN_ASSIGN 1 0 0)

/-- The first page of span 5. -/
def P : Nat := 5 * 2 ^ 24

/-- Span 5 is hosted here, with an object of one page of allotment 0 in frame 0 of tier 1. -/
def pooled (d : Dev) : Dev :=
  let d1 := ((d.set Bar.MEM_SPAN_VALID 1 0).set Bar.MEM_SPAN_SPAN 5 0).set Bar.MEM_OBJ_VALID 1 0
  let d2 := ((d1.set Bar.MEM_OBJ_BASE_PAGE P 0).set Bar.MEM_OBJ_PAGES 1 0).set Bar.MEM_OBJ_POLICY 1 0
  { d2 with pool := { d2.pool with
    objs := [0], pmap := [(P, 0)], nextPage := 1, used := [(0, 0)]
    pages := [(0, ⟨some 0, none, false, false, 1, 0, 0, 0⟩)] } }

/-- Registers of core 0. -/
def sregs (xs : List (Nat × Nat)) (d : Dev) : Dev :=
  d.modUnit 0 fun u => { u with s := xs.map fun e => (e.1, BitVec.ofNat 64 e.2) }

/-- What a command leaves. -/
def after (s : State) (c : Instr) : Dev := match exec c s with | .next t => t.dev | _ => s.dev

/-- `Dev.issues` as a test. -/
theorem issues_of (d : Dev) (u : UnitId) (x : Instr)
    (h : (d.runs && d.fetches (unitKey u) && (d.unit (unitKey u)).queues.isEmpty &&
      !d.store.bad.contains (d.codeKey (unitKey u) (d.unit (unitKey u)).pc) &&
      decide (decodeInstr u (d.codeWord (unitKey u)) = x) &&
      decide ((d.unit (unitKey u)).pc + 1 < d.codeLen (unitKey u))) = true) : d.issues u x := by
  simp only [Bool.and_eq_true, decide_eq_true_eq, List.isEmpty_iff, Bool.not_eq_true'] at h
  obtain ⟨⟨⟨⟨⟨a, b⟩, c⟩, e⟩, f⟩, g⟩ := h
  exact ⟨a, b, c, e, f, g⟩

/-- Bytes of scratchpad, of pool page P, and of a register's word list. -/
def spad (a : Nat) (bs : List Nat) (d : Dev) : Dev :=
  { d with banks := { d.banks with mem := memWrites d.banks.mem a (bs.map (BitVec.ofNat 8)) } }
def pool (a : Nat) (bs : List Nat) (d : Dev) : Dev :=
  { d with pool := { d.pool with mem := memWrites d.pool.mem a (bs.map (BitVec.ofNat 8)) } }

/-- An object of 32 pages in frames 0 to 31. -/
def pages32 (d : Dev) : Dev :=
  let d1 := (pooled d).set Bar.MEM_OBJ_PAGES 32 0
  { d1 with pool := { d1.pool with
    pmap := (List.range 32).map fun i => (P + i, i), nextPage := 32, used := (List.range 32).map fun i => (i, 0)
    pages := (List.range 32).map fun i => (i, ⟨some i, none, false, false, 1, 0, 0, 0⟩) } }

/-- Session 0 as CREATE enters it over that object: one layer, one head of 64 dimensions, CAP_POS 64. -/
def ses0 : List Nat := [2 ^ 61 + 2 ^ 45 + 2 ^ 36 + 2 ^ 28, 64 * 2 ^ 48 + 64 * 2 ^ 32, 0, 0, 0, 0, 0, 5 * 2 ^ 40]
def session (ws : List Nat) (d : Dev) : Dev := { pages32 d with sess := [(0, freshSess ws)] }

/-- The invocation of core 0 is one of session 0. -/
def ofSession (d : Dev) : Dev := d.modUnit 0 fun u => { u with inv := some { inv0 with sess := some 0 } }

/-! ## Hypotheses of the statements about instructions -/

/-- ScalarArithmeticWritesRd, SpecialRegistersReadAndWrite and the forms of others that ask for nothing but the issue, on a
core. -/
theorem hyp_issue_core : ∀ x ∈ [Instr.add U 1 2 3 4, .sub U 31 2 3 4, .mul U 1 2 3 4, .div U 1 2 0 0, .and U 1 2 3 4,
    .or U 1 2 3 4, .xor U 1 2 3 4, .sll U 1 2 0 64, .srl U 1 2 0 63, .sra U 1 2 0 64, .slt U 1 2 3 4, .sltu U 1 2 3 4,
    .li U 1 (2 ^ 44), .lih U 0 (2 ^ 44), .nop U, .bl U 1 1, .fault U 255, .undefOp U 0, .tzero U 7, .aset U 15 0 1, .aget U 1 15,
    .rdsctx U 1 0 8, .rdpstat U 1, .wrpstat U 0 1, .rdflt U 31, .rdtime U 1, .rdwrate U 1, .xcfg U 1 2, .xstat U 1,
    .tscale U 7 1, .tadd U 7 1], (running x).dev.issues U x := by
  intro x hx; apply issues_of; revert x; decide +kernel

/-- VectorInstructionsWriteActiveLanes, ReductionsFillEveryLane and TileQuantiseAndAttention. -/
theorem hyp_issue_vector : ∀ x ∈ [Instr.vadd U 2 31 2 3 7 true, .vsub U 3 1 2 3 0 false, .vmul U 2 1 2 3 0 false,
    .vfma U 2 1 2 3 4 0 false, .vmax U 2 1 2 3 0 false, .vmin U 2 1 2 3 0 false, .vbcast U 2 1 2 0 false,
    .vsel U 2 1 2 3 7 true, .vcmpCc U 2 7 2 3 0 false 6, .vmovS U 2 1 2 128, .vins U 2 1 2 127, .vtrow U 2 1 7 6 64,
    .pand U 2 1 2 3, .por U 2 1 2 3, .pnot U 2 0 2, .vexp U 2 1 2 0 false, .vrcp U 2 1 2 0 false, .vredmax U 2 1 2 0 false,
    .vredsum U 2 1 2 0 true, .vredamax U 2 1 2 0 false, .vq U 2 1 2 7, .vdq U 2 1 2 6, .vqerr U 2 1 2 0,
    .astat U 2 1 2 3 0 false, .aprune U 2 1 2 3 0 false], (running x).dev.issues U x := by
  intro x hx; apply issues_of; revert x; decide +kernel

/-- The instructions that a Gardener executes too. -/
theorem hyp_issue_gardener : ∀ x ∈ [Instr.add G 1 2 3 4, .nop G, .fault G 1, .undefOp G 0, .endProg G 0 0, .rdsctx G 1 0 1,
    .aget G 1 0, .rdtime G 1], (gardens x).dev.issues G x := by
  intro x hx; apply issues_of; revert x; decide +kernel

/-- InactiveLanesKeepTheirValue. -/
theorem hyp_lanes : (List.replicate 128 (1 : W32)).length = 128 ∧ (127 : Nat) < 128 := by simp

/-- BranchesMoveTheProgramCounter: taken at both ends of a program of two words, and not taken. -/
theorem hyp_branches :
    (∀ x ∈ [Instr.bCc U 0 0 0 0, .bCc U 0 0 1 1, .bCc U 0 0 4 1, .bCc U 0 0 6 0, .bCc U 0 0 2 0, .bCc U 0 0 3 1,
      .bCc U 0 0 5 1, .bpany U 0 1, .bpany U 1 1, .bl U 1 1, .jr U 0 1, .nop U], (running x).dev.issues U x) ∧
    (running (.bpany U 0 1)).dev.rp 0 0 ≠ 0 ∧ (running (.bpany U 1 1)).dev.rp 0 1 = 0 ∧
    (running (.nop U)).dev.codeLen 0 = 2 ∧ (running (.nop U)).dev.rs 0 0 = 0 := by
  refine ⟨?_, ?_⟩
  · intro x hx; apply issues_of; revert x; decide +kernel
  · decide +kernel

/-- EndDrainsTheCore: without a payload, and with one of the allotment's bytes. -/
theorem hyp_end :
    (running (.endProg U 0 0)).dev.issues U (.endProg U 0 0) ∧
    (running (.endProg U 1 2) (owned ∘ sregs [(1, 2 ^ 20 - 8), (2, 8)])).dev.issues U (.endProg U 1 2) ∧
    (running (.endProg U 1 2) (owned ∘ sregs [(1, 2 ^ 20 - 8), (2, 8)])).dev.spadOk 0 (2 ^ 20 - 8) 8 = true := by
  refine ⟨issues_of _ _ _ ?_, issues_of _ _ _ ?_, ?_⟩ <;> decide +kernel

/-- ScalarScratchpadAccess and VectorAndTileScratchpadAccess: the last bytes of a core's own scratchpad. -/
theorem hyp_scratchpad :
    (∀ x ∈ [Instr.ld U 1 2 3 0, .st U 2 1 3 0, .badd U 1 2 3 3 0, .bswap U 1 2 3 3 0],
      (running x (owned ∘ sregs [(2, 2 ^ 20 - 8)])).dev.issues U x ∧
      (running x (owned ∘ sregs [(2, 2 ^ 20 - 8)])).dev.spadReady 0 (2 ^ 20 - 8) 8) ∧
    (∀ x ∈ [Instr.bfadd U 1 0 3 0, .ld U 1 0 0 0],
      (running x owned).dev.issues U x ∧ (running x owned).dev.spadReady 0 0 4) ∧
    (∀ x ∈ [Instr.vld U 2 1 2 0, .vst U 2 1 2 511, .vldH U 2 1 2, .vstH U 2 1 2],
      (running x (owned ∘ sregs [(2, 2 ^ 20 - 512)])).dev.issues U x ∧
      (running x (owned ∘ sregs [(2, 2 ^ 20 - 512)])).dev.spadReady 0 (2 ^ 20 - 512) 512) ∧
    ∀ x ∈ [Instr.tld U 1 2, .tst U 1 2, .tstH U 1 2],
      (running x (owned ∘ sregs [(2, 2 ^ 20 - 16384)])).dev.issues U x ∧
      (running x (owned ∘ sregs [(2, 2 ^ 20 - 16384)])).dev.spadReady 0 (2 ^ 20 - 16384) 16384 ∧
      (running x owned).dev.slotLoading 0 (2 ^ 20 - 16384) 16384 = false := by
  simp only [Dev.spadReady]
  refine ⟨?_, ?_, ?_, ?_⟩ <;> intro x hx <;> refine ⟨issues_of _ _ _ ?_, ?_⟩ <;> revert x <;> decide +kernel

/-- ScratchpadStoreFrame: inside and outside the range, in a row that has failed, and on a Gardener. -/
theorem hyp_store_frame :
    let d := (on fun d => d.setBank (.core 0 0 0) { Bank.blank with failedRows := [1] }).dev
    d.rowFailed (coreBase 0 + 512) = true ∧ d.rowFailed (coreBase 0 + 511) = false ∧ 0 < 256 ∧ 256 ≤ 256 := by
  decide +kernel

/-- ScratchpadAccessFaultsOrWaits: outside the allotment, in a bank in cold frame, and in a region under test; a vector access
that ends beyond the core's own scratchpad. -/
theorem hyp_scratchpad_faults :
    (∀ x ∈ [Instr.ld U 1 0 3 0, .st U 0 1 3 0], (running x).dev.issues U x ∧ (running x).dev.spadOk 0 0 8 = false ∧
      ((running x).dev.unit 0).flt.testBit 111 = false) ∧
    (∀ x ∈ [Instr.vld U 2 1 0 0, .vst U 2 1 0 0, .vldH U 2 1 0, .vstH U 2 1 0, .tld U 1 0, .tst U 1 0, .tstH U 1 0,
      .badd U 1 0 3 3 0, .bfadd U 1 0 3 0, .bswap U 1 0 3 2 0],
      (running x).dev.issues U x ∧ (running x).dev.spadOk 0 0 4 = false ∧ (running x).dev.spadOk 0 0 16384 = false ∧
      ((running x).dev.unit 0).flt.testBit 111 = false) ∧
    (∀ x ∈ [Instr.ld U 1 0 3 0, .st U 0 1 3 0],
      let d := (running x fun d => { owned d with banks := { (owned d).banks with tbt := some (.core 0 0 0, 0) } }).dev
      d.issues U x ∧ d.spadOk 0 0 8 = true ∧ d.spadTested 0 0 8 = true) ∧
    ∀ x ∈ [Instr.ld U 1 0 3 0, .st U 0 1 3 0],
      (running x fun d => (owned d).setBankCold true (.core 0 0 0)).dev.spadTested 0 0 8 = false ∧
      (running x fun d => (owned d).setBankCold true (.core 0 0 0)).dev.issues U x ∧
      (running x fun d => (owned d).setBankCold true (.core 0 0 0)).dev.spadOk 0 0 8 = true ∧
      (running x fun d => (owned d).setBankCold true (.core 0 0 0)).dev.coldBanks 0 0 8 = [.core 0 0 0] := by
  refine ⟨?_, ?_, ?_, ?_⟩ <;> intro x hx
  · refine ⟨issues_of _ _ _ ?_, ?_⟩ <;> revert x <;> decide +kernel
  · refine ⟨issues_of _ _ _ ?_, ?_⟩ <;> revert x <;> decide +kernel
  · refine ⟨issues_of _ _ _ ?_, ?_⟩ <;> revert x <;> decide +kernel
  · refine ⟨?_, issues_of _ _ _ ?_, ?_⟩ <;> revert x <;> decide +kernel

/-- TileQuantiseAndAttention (abias), MmaMultipliesTiles and ExpanderStreamFeedsTheMx. -/
theorem hyp_matrix :
    (let x := Instr.abias U 2 1 2 3 4 0 false
     (running x owned).dev.issues U x ∧ (running x owned).dev.spadReady 0 0 16 ∧
     (biasHeader ((running x owned).dev.spadAt 0 0)).2.2.2.2 = 1 ∧ (running x owned).dev.spadReady 0 0 20) ∧
    (let x := Instr.mma U 1 2 3 4 6 0 true true false
     (running x owned).dev.issues U x ∧ (running x owned).dev.spadReady 0 0 4096 ∧
     (running x owned).dev.slotLoading 0 0 4096 = false) ∧
    (let x := Instr.mma U 1 2 3 4 0 2 true true false
     (running x owned).dev.issues U x ∧ (running x owned).dev.spadReady 0 0 128 ∧
     (running x owned).dev.slotLoading 0 0 128 = false ∧ ((running x owned).dev.stream 0).left = 0 ∧
     ((running x owned).dev.stream 0).bufs = []) ∧
    ∀ b ∈ [none, some ([] : List Byte)],
      let x := Instr.mma U 1 2 3 4 0 0 true true false
      let d := (running x fun d => (owned d).setStream 0 ⟨0, 1, 0, [b]⟩).dev
      d.issues U x ∧ (d.stream 0).bufs = [b] ∧ d.spadReady 0 0 128 ∧ d.slotLoading 0 0 128 = false ∧
      (d.fetched 0).blocksHeld 0 0 ((d.fetched 0).stream 0).next = false ∧
      (match (d.fetched 0).takeBlocks 0 1 [] with
        | .inl y => decide (y.1 = [b])
        | .inr _ => false) = true := by
  simp only [Dev.spadReady]
  refine ⟨⟨issues_of _ _ _ ?_, ?_⟩, ⟨issues_of _ _ _ ?_, ?_⟩, ⟨issues_of _ _ _ ?_, ?_⟩, ?_⟩
  rotate_left 6
  · intro b hb; refine ⟨issues_of _ _ _ ?_, ?_⟩ <;> revert b <;> decide +kernel
  all_goals decide +kernel

/-- BlocksDecodeAheadOfTheMx: both buffers full; a raw block, one of an invalid FORMAT and a poisoned one, ahead of one
buffer; a block that must wait. -/
theorem hyp_block_decoded :
    (let d := (ready fun d => d.setStream 255 ⟨0, 1, 0, [none, none]⟩).dev
     d.runs = true ∧ 255 < 256 ∧ 2 ≤ (d.stream 255).bufs.length) ∧
    (let d := (running (.nop U) fun d => (spad (coreBase 0) [2] (owned d)).setStream 0 ⟨0, 1, 0, [none]⟩).dev
     let x := d.stream 0
     x.bufs.length < 2 ∧ x.left ≠ 0 ∧ d.spadOk 0 x.next 16 = true ∧ d.spadOk 0 x.next (d.blockSize 0 x.next) = true ∧
     d.blocksHeld 0 1 x.next = false ∧ d.coldBanks 0 x.next (d.blockSize 0 x.next) = [] ∧ d.banks.flaws = [] ∧
     d.spadPoisoned (spadPlace 0 x.next) (d.blockSize 0 x.next) = false ∧ Exc16.format (d.spadAt 0 x.next) = 2) ∧
    (let d := (running (.nop U) fun d => (owned d).setStream 0 ⟨0, 1, 0, []⟩).dev
     let x := d.stream 0
     x.bufs.length < 2 ∧ x.left ≠ 0 ∧ d.spadOk 0 x.next 16 = true ∧ d.blockSize 0 x.next = 16 ∧
     d.blocksHeld 0 1 x.next = false ∧
     Exc16.decode (d.spadAt 0 x.next) = .fail Code.compressCode ∧ slice (d.unit 0).pstat 63 56 = 0) ∧
    (let d := (running (.nop U) fun d => { owned (d.setStream 0 ⟨0, 1, 0, []⟩) with
       banks := { (owned d).banks with poison := [coreBase 0 / 8] } }).dev
     let x := d.stream 0
     x.bufs.length < 2 ∧ x.left ≠ 0 ∧ d.spadOk 0 x.next (d.blockSize 0 x.next) = true ∧ d.blocksHeld 0 1 x.next = false ∧
     d.spadPoisoned (spadPlace 0 x.next) (d.blockSize 0 x.next) = true) ∧
    (let d := (running (.nop U) fun d => { owned (d.setStream 0 ⟨0, 1, 0, []⟩) with
       banks := { (owned d).banks with tbt := some (.core 0 0 0, 0) } }).dev
     d.runs = true ∧ d.blocksHeld 0 1 (d.stream 0).next = true) := by
  decide +kernel

/-- TokensAndCounters: a channel that becomes full, one token too many, the last tokens and one more, a counter that has
reached its goal, one that has not, and one that has failed. -/
theorem hyp_tokens :
    (∀ x ∈ [Instr.put U 0 1 0 3, .put U 0 1 0 4, .take U 0 1 0 252, .take U 0 1 0 253, .wait U 0 1 1 0 8, .wait U 0 1 1 0 9,
      .aset U 17 0 1, .aget U 1 17],
      (running x fun d => d.modUnit 0 fun u => { u with ch := [(1, 252)], a := [(1, 8)] }).dev.issues U x) ∧
    (let d := (running (.nop U) fun d => d.modUnit 0 fun u => { u with ch := [(1, 252)], a := [(1, 8)] }).dev
     kvGetD (d.unit 0).ch 1 0 + clampTo 1 255 3 ≤ 255 ∧ 255 < kvGetD (d.unit 0).ch 1 0 + clampTo 1 255 4 ∧
     clampTo 1 255 252 ≤ kvGetD (d.unit 0).ch 1 0 ∧ kvGetD (d.unit 0).ch 1 0 < clampTo 1 255 253 ∧
     (d.unit 0).pstat.testBit 33 = false ∧ 8 ≤ kvGetD (d.unit 0).a 1 0 ∧ kvGetD (d.unit 0).a 1 0 < 9 ∧ tokEng U 0 = 0 ∧
     (d.unit 0).outranked 1 (tokEng U 0) 252 = false) ∧
    (let d := (running (.take U 0 1 0 1) fun d => d.modUnit 0 fun u => { u with ch := [(1, 1)], takes := [(1, 2, 1)], takeTurn := [(1, 1)] }).dev
     clampTo 1 255 1 ≤ kvGetD (d.unit 0).ch 1 0 ∧ (d.unit 0).outranked 1 (tokEng U 0) 1 = true) ∧
    (let x := Instr.wait U 0 1 1 0 9
     let d := (running x fun d => d.modUnit 0 fun u => { u with pstat := 2 ^ 33 }).dev
     d.issues U x ∧ (d.unit 0).pstat.testBit 33 = true) := by
  refine ⟨?_, ?_, ?_, issues_of _ _ _ ?_, ?_⟩
  · intro x hx; apply issues_of; revert x; decide +kernel
  all_goals decide +kernel

/-- CopyInstructionsEnterTheEngine: ranges that end with their 4 KiB piece, and a pull from endpoint 7. -/
theorem hyp_copies :
    (∀ x ∈ [Instr.cpin U 1 1 2 3 4, .cpout U 1 2 1 3 4 0 0, .cppp U 1 2 2 3 4],
      let d := (running x (owned ∘ pooled ∘ sregs [(1, 0), (2, 65536 * P), (3, 4096)])).dev
      d.issues U x ∧ d.spadOk 0 0 4096 = true ∧ d.poolOk (d.unitAllot 0) (65536 * P) 4096 = true ∧
      65536 * P % 4096 + 4096 ≤ 4096 ∧ d.homed (65536 * P) = .here) ∧
    (let x := Instr.cpin U 1 1 2 3 3
     let d := (running x fun d => ((owned (sregs [(1, 0), (2, 2 ^ 40), (3, 4096)] d)).set Bar.MEM_HOME_VALID 1 1).set
       Bar.MEM_HOME_ENDPOINT 7 1).dev
     d.issues U x ∧ d.spadOk 0 0 4096 = true ∧ d.poolOk (d.unitAllot 0) (2 ^ 40) 4096 = true ∧
     d.homed (2 ^ 40) = .via 7 false ∧ d.heldBack 0 (d.unit 0).gen 7 = false ∧ (d.freeTag (unitTagRange 0) []).isSome = true) := by
  refine ⟨?_, issues_of _ _ _ ?_, ?_⟩
  · intro x hx; refine ⟨issues_of _ _ _ ?_, ?_⟩ <;> revert x <;> decide +kernel
  all_goals decide +kernel

/-- LocalCopyArrivalLands. -/
theorem hyp_local_copy :
    let c : Copy := { core := 0, gen := 0, ctr := 1, pc := 0, kind := 0, allot := 0, src := 65536 * P, dst := 0, len := 8, cls := 4
                      mcast := none, todo := [(0, 8)], ready := [], resent := [], ended := false, acked := [] }
    let d := (running (.nop U) fun d => { owned (pooled d) with copies := [(0, c)] }).dev
    d.runs = true ∧ kvGet? d.copies 0 = some c ∧ d.reqs = [] ∧ d.holds 0 0 = true ∧ d.homed c.src = .here ∧
    d.mayReadHere 0 c.src 8 = true ∧ d.readyRead c.src 8 = (true, d) ∧ d.rangePoisoned c.src 8 = false ∧
    banksOf (spadPlace 0 0) 8 = [.core 0 0 0] ∧ d.mayUse 0 (.core 0 0 0) = true ∧ d.bankCold (.core 0 0 0) = false ∧
    bankStart (.core 0 0 0) ≤ spadPlace 0 0 ∧ spadPlace 0 0 + 8 ≤ bankStart (.core 0 0 0) + bankSize (.core 0 0 0) ∧
    d.rowFailed (spadPlace 0 0 + 7) = false := by
  decide +kernel

/-- The other clauses of LocalCopyArrivalLands: a push and a pool copy whose piece is here, a read that waits for a page's
copy, and no copy. -/
def piece (kind : Nat) : Copy :=
  { core := 0, gen := 0, ctr := 1, pc := 0, kind := kind, allot := 0, src := if kind = 1 then 0 else 65536 * P
    dst := if kind = 0 then 0 else 65536 * P + 8, len := 8, cls := 4, mcast := none, todo := [(0, 8)], ready := [], resent := []
    ended := false, acked := [] }

theorem hyp_local_copy_clauses :
    (let c := piece 1
     let d := (running (.nop U) fun d => { owned (pooled d) with copies := [(0, c)] }).dev
     let src := d.copySource c 0 8
     kvGet? d.copies 0 = some c ∧ d.reqs = [] ∧ d.holds 0 0 = true ∧ d.homed c.dst = .here ∧
     d.spadTested 0 c.src 8 = false ∧ d.mayWriteHere 0 c.dst 8 = true ∧ src.2.2 = d ∧ (src.2.2.readyWrite c.dst 8).1 = 0) ∧
    (let c := piece 2
     let d := (running (.nop U) fun d => { owned (pooled d) with copies := [(0, c)] }).dev
     let got := (d.touch (pageOf c.src)).putCopy 0 { c with todo := [] }
     kvGet? d.copies 0 = some c ∧ d.homed c.src = .here ∧ d.homed c.dst = .here ∧ d.mayReadHere 0 c.src 8 = true ∧
     d.readyRead c.src 8 = (true, d) ∧ d.rangePoisoned c.src 8 = false ∧ d.mayWriteHere 0 c.dst 8 = true ∧
     (got.readyWrite c.dst 8).1 = 0) ∧
    (let c := piece 0
     let d := (running (.nop U) fun d => { ((owned (pooled d)).set Bar.COH_AGENT_VALID 1 0).set Bar.COH_AGENT_ENDPOINT 9 0 with
       copies := [(0, c)], coh := { d.coh with dir := [(512 * P, ⟨4, some 9, [], false, 0⟩)] } }).dev
     kvGet? d.copies 0 = some c ∧ d.homed c.src = .here ∧ d.mayReadHere 0 c.src 8 = true ∧ (d.readyRead c.src 8).1 = false) ∧
    kvGet? (running (.nop U)).dev.copies 0 = none := by
  refine ⟨?_, ?_, ?_, ?_⟩ <;> decide +kernel

/-- A window over the object, of one layer of one page in bank 0 of cluster 0. -/
def win1 (loaded : Bool) : Window :=
  { obj := 0, allot := 0, mask := 1, layers := 1, slice := 1, depth := 1, split := false, base := 0, enabled := true
    slots := [⟨if loaded then some 0 else none, 0, loaded, 0⟩] }
def windowed (d : Dev) : Dev :=
  let d1 := ((pooled d).set Bar.CLU_BANK_ASSIGN 1 0 0).set Bar.CLU_BANK_STATE 1 0 0
  { d1 with pool := { d1.pool with wins := [(63, win1 true)] } }

/-- AtomicNmuAndWindowInstructions: an atomic of an address here and of one at endpoint 7, a command that reduces a line,
acquires and releases of window 63. -/
theorem hyp_atomic_nmu_window :
    (∀ p ∈ [65536 * P, 2 ^ 40],
      let x := Instr.patom U 1 1 2 3 0
      let d := (running x fun d => ((owned (pooled (sregs [(1, 2 ^ 20 - 4), (2, p)] d))).set Bar.MEM_HOME_VALID 1 1).set
        Bar.MEM_HOME_ENDPOINT 7 1).dev
      d.issues U x ∧ d.spadOk 0 (2 ^ 20 - 4) 4 = true ∧ d.poolOk (d.unitAllot 0) p 4 = true ∧ d.homed p ≠ .nowhere ∧
      (d.freeTag (unitTagRange 0) []).isSome = true) ∧
    (let x := Instr.nmu U 1 1 2
     let d := (running x (spad (coreBase 0) [0, 0, 0, 4, 0, 5, 0, 0] ∘ owned ∘ pages32 ∘ sregs [(1, 0), (2, 2 ^ 20 - 32)])).dev
     let ws := nmuDesc (d.loadSpad 0 0 32).1 (d.unitAllot 0)
     d.issues U x ∧ d.spadReady 0 0 32 ∧ d.spadOk 0 (2 ^ 20 - 32) 32 = true ∧ d.nmuFull 16 = false ∧
     (d.loadSpad 0 0 32).2.2.nmuRefused 0 ws = none ∧ nmuOp ws = 4 ∧ nmuWrites ws = false) ∧
    (let x := Instr.wacq U 1 2 63
     let d := (running x windowed).dev
     d.issues U x ∧ d.programWindow 0 63 = some (win1 true) ∧ ((win1 true).acquire 0).isSome = true) ∧
    ∀ held ∈ [[(63, 0)], []],
      let x := Instr.wrel U 2 63
      let d := (running x fun d => (windowed d).modUnit 0 fun u => { u with wins := held }).dev
      d.issues U x ∧ d.programWindow 0 63 = some (win1 true) ∧ (d.unit 0).wins = held := by
  simp only [Dev.spadReady]
  refine ⟨?_, ⟨issues_of _ _ _ ?_, ?_⟩, ⟨issues_of _ _ _ ?_, ?_⟩, ?_⟩
  · intro x hx; refine ⟨issues_of _ _ _ ?_, ?_⟩ <;> revert x <;> decide +kernel
  rotate_left 4
  · intro x hx; refine ⟨issues_of _ _ _ ?_, ?_⟩ <;> revert x <;> decide +kernel
  all_goals decide +kernel

/-- Its other forms: an atomic that no package homes, and a command that fills a line of the allotment's object. -/
theorem hyp_atomic_nmu_forms :
    (let x := Instr.patom U 1 1 2 3 0
     let d := (running x (owned ∘ sregs [(1, 2 ^ 20 - 4), (2, 2 ^ 40)])).dev
     d.issues U x ∧ d.spadOk 0 (2 ^ 20 - 4) 4 = true ∧ d.poolOk (d.unitAllot 0) (2 ^ 40) 4 = true ∧ d.homed (2 ^ 40) = .nowhere) ∧
    (let x := Instr.nmu U 1 1 2
     let d := (running x (spad (coreBase 0) [0, 0, 0, 1, 0, 5, 0, 0] ∘ owned ∘ pages32 ∘ sregs [(1, 0), (2, 2 ^ 20 - 32)])).dev
     let ws := nmuDesc (d.loadSpad 0 0 32).1 (d.unitAllot 0)
     let got := (d.loadSpad 0 0 32).2.2
     d.issues U x ∧ d.spadReady 0 0 32 ∧ d.spadOk 0 (2 ^ 20 - 32) 32 = true ∧ d.nmuFull 16 = false ∧ nmuOp ws = 1 ∧
     got.inObjects (d.unitAllot 0) (nmuDst ws) (128 * got.nmuLines ws) = true ∧ nmuReads ws = false) := by
  simp only [Dev.spadReady]
  refine ⟨⟨issues_of _ _ _ ?_, ?_⟩, ⟨issues_of _ _ _ ?_, ?_⟩⟩ <;> decide +kernel

/-- PoolAccessFaults. -/
theorem hyp_pool_faults :
    (∀ x ∈ [Instr.cpin U 1 1 2 3 4, .cpout U 1 2 1 3 4 0 0],
     let d := (running x fun d => ((owned (sregs [(1, 0), (2, 65536 * P), (3, 1)] d)).set Bar.MEM_SPAN_VALID 1 0).set
       Bar.MEM_SPAN_SPAN 5 0).dev
     d.issues U x ∧ d.spadOk 0 0 1 = true ∧ d.poolOk (d.unitAllot 0) (65536 * P) 1 = false ∧
     (d.unit 0).flt.testBit 111 = false) ∧
    (let x := Instr.cppp U 1 1 2 3 4
     let d := (running x (pooled ∘ sregs [(1, 65536 * P), (2, 65536 * P + 65536), (3, 1)])).dev
     d.issues U x ∧ d.poolOk (d.unitAllot 0) (65536 * P) 1 = true ∧ d.poolOk (d.unitAllot 0) (65536 * P + 65536) 1 = false ∧
     (d.unit 0).flt.testBit 111 = false) ∧
    ∀ x ∈ [Instr.wacq U 1 2 63, .wrel U 2 63],
      (running x).dev.issues U x ∧ (running x).dev.programWindow 0 63 = none ∧ ((running x).dev.unit 0).flt.testBit 111 = false := by
  refine ⟨?_, ⟨issues_of _ _ _ ?_, ?_⟩, ?_⟩
  rotate_left 3
  · intro x hx; refine ⟨issues_of _ _ _ ?_, ?_⟩ <;> revert x <;> decide +kernel
  · intro x hx; refine ⟨issues_of _ _ _ ?_, ?_⟩ <;> revert x <;> decide +kernel
  all_goals decide +kernel

/-- A descriptor of core 0's program, in a phase. -/
def desc0 (phase : Nat) : Desc :=
  { core := 0, gen := 0, ctr := 1, pc := 0, allot := 0, words := [], row := 0, got := [], phase := phase, status := 0 }

/-- EngineInstructionsQueueDescriptors: the last place of a queue, a full queue, and an rpart behind another. -/
theorem hyp_engines :
    (∀ x ∈ [Instr.rake U 1 0, .sieve U 1 0],
      let d := (running x fun d => ((owned d).setRakes 0 (List.replicate 31 (desc0 0))).setSieves 0 (List.replicate 31 (desc0 0))).dev
      d.issues U x ∧ d.spadReady 0 0 96 ∧ d.spadReady 0 0 32 ∧ (d.rakes 0).length < 32 ∧ (d.sieves 0).length < 32) ∧
    (let x := Instr.rake U 1 0
     let d := (running x fun d => (owned d).setRakes 0 (List.replicate 32 (desc0 0))).dev
     d.issues U x ∧ d.spadReady 0 0 32 ∧ 32 ≤ (d.rakes 0).length) ∧
    (∀ x ∈ [Instr.sieve U 1 0, .rpart U 1 0 4095],
      let d := (running x fun d => ((owned d).setSieves 0 (List.replicate 32 (desc0 0))).setRparts 0
        (List.replicate 32 (desc0 1))).dev
      d.issues U x ∧ d.spadReady 0 0 96 ∧ d.spadReady 0 0 32 ∧ 32 ≤ (d.sieves 0).length ∧
      32 ≤ ((d.rparts 0).filter fun x => x.phase != 2).length) ∧
    (let x := Instr.rpart U 1 0 4095
     let d := (running x fun d => (owned d).setRparts 0 [desc0 1]).dev
     d.issues U x ∧ d.spadReady 0 0 32 ∧ d.eng.parts = [(0, [desc0 1])] ∧ (d.unit 0).gen = 0 ∧ d.eng.sends = []) := by
  simp only [Dev.spadReady]
  refine ⟨?_, ⟨issues_of _ _ _ ?_, ?_⟩, ?_, ⟨issues_of _ _ _ ?_, ?_⟩⟩
  · intro x hx; refine ⟨issues_of _ _ _ ?_, ?_⟩ <;> revert x <;> decide +kernel
  rotate_left 2
  · intro x hx; refine ⟨issues_of _ _ _ ?_, ?_⟩ <;> revert x <;> decide +kernel
  all_goals decide +kernel

/-- SessionInstructionsWithoutSession. -/
theorem hyp_no_session : ∀ x ∈ [Instr.sappend U 1 1 2, .sprune U 1 1, .sinfo U 1 8, .sblk U 31 1 2],
    (running x).dev.issues U x ∧ ((running x).dev.unit 0).session = none := by
  intro x hx; refine ⟨issues_of _ _ _ ?_, ?_⟩ <;> revert x <;> decide +kernel

/-- SessionInstructionsWithSession: the first token of a step of a fresh session. -/
theorem hyp_session :
    (∀ x ∈ [Instr.sinfo U 1 7, .sblk U 31 1 2, .sprune U 1 0, .sappend U 1 0 0],
      let d := (running x (ofSession ∘ session ses0 ∘ owned)).dev
      d.issues U x ∧ d.unitSession 0 = some 0 ∧ d.sesn 0 = some (freshSess ses0) ∧ (freshSess ses0).words.length = 8 ∧
      d.spadReady 0 0 256) ∧
    (let d := (running (.sappend U 1 0 0) (ofSession ∘ session ses0 ∘ owned)).dev
     let o := d.openTokens 0 1
     let ld := o.2.loadSpad 0 0 256
     o.1 * 1 * 4 * d.sesD 0 = 256 ∧ d.ses 0 Ses.T_OPEN = 0 ∧ (freshSess ses0).prunes.length < 256 ∧
     ((SesW.appendRows (ld.2.2, []) 0 0 0 ld.2.1 (rowOrder o.1 1) ld.1).map fun w => (ld.2.2.rangesReady w.2).1) = some 0) := by
  simp only [Dev.spadReady]
  refine ⟨?_, ?_⟩
  · intro x hx; refine ⟨issues_of _ _ _ ?_, ?_⟩ <;> revert x <;> decide +kernel
  all_goals decide +kernel

/-- Region 4095 of allotment 0 has version 1 in slot 15, opened once. -/
def region1 (d : Dev) : Dev :=
  let d1 := ((d.set Bar.VER_REGION_VALID 1 4095).set Bar.VER_REGION_CUR_VERSION 1 4095).set Bar.VER_REGION_CUR_SLOT 15 4095
  (d1.set Bar.VER_SLOT_OPENS 1 4095 15).set Bar.VER_SLOT_STATE 1 4095 15

/-- RegionInstructionsIssueCommands; the working object of a region to be published is filled by an NMU command. -/
theorem hyp_region_instructions :
    (∀ x ∈ [Instr.ropen U 1 1 2, .rclose U 1 1 2 3, .rpub U 1 1 2 3 0],
      let d := (running x (region1 ∘ owned ∘ sregs [(1, 2 ^ 20 - 8), (2, 4095), (3, 15)])).dev
      d.issues U x ∧ d.spadOk 0 (2 ^ 20 - 8) 8 = true ∧ kvGet? d.ver.pubs 4095 = none ∧ d.altState (d.unitAllot 0) = 1 ∧
      d.regionValid 4095 = true ∧ d.get Bar.VER_REGION_ALLOT 4095 = d.unitAllot 0 ∧
      d.get Bar.VER_REGION_CUR_VERSION 4095 ≠ 0 ∧ d.get Bar.VER_SLOT_OPENS 4095 15 < 16777215 ∧
      0 < d.get Bar.VER_SLOT_OPENS 4095 15 ∧ d.get Bar.VER_SLOT_STATE 4095 0 = 0) ∧
    (let c : NmuCmd := { words := [0x1000000, 0x500, 0, 0, 0, 1, 0, 0], src := 0, recAddr := 0, ctr := 0, gen := 0, left := [0], done := 0
                         cached := 0, poison := 0, mism := 0, first := none, parts := [], bad := false, late := false, held := [], hit := false }
     let d := (running (.rpub U 1 1 2 3 0) fun d => { region1 (owned (pooled (sregs [(2, 4095)] d))) with
       nmus := { d.nmus with cmds := [(0, c)] } }).dev
     d.issues U (.rpub U 1 1 2 3 0) ∧ d.drained 4095 = false) := by
  refine ⟨?_, issues_of _ _ _ ?_, ?_⟩
  · intro x hx; refine ⟨issues_of _ _ _ ?_, ?_⟩ <;> revert x <;> decide +kernel
  all_goals decide +kernel

/-- RegisterBlockInstructions. -/
theorem hyp_register_block : ∀ off ∈ [Bar.TIM_WMON_CTL.base, 0x100],
    ∀ x ∈ [Instr.rgrd G 1 0 2 (BitVec.ofNat 32 off), .rgwr G 0 2 2 (BitVec.ofNat 32 off)],
      (gardens x).dev.issues G x ∧ kvGet? (gardens x).dev.pieces.snap 1 = none := by
  intro off ho x hx
  refine ⟨issues_of _ _ _ ?_, ?_⟩ <;> revert x <;> revert off <;> decide +kernel

/-- StartUpRunsItsSteps: before power, at step 2, in the march of cluster 15 whose bank 63 has no spare or one, and with
every march done. Whether a signed image exists is up to the free value of the signature check. -/
theorem hyp_start_up :
    State.reset.dev.power.pwrOk = false ∧
    (let s := on id
     s.isRunning ∧ s.dev.flag Bar.TIM_STATUS_LOCK = false ∧ s.dev.get Bar.GEN_BOOT_STAGE = 0 ∧
     s.dev.power.refclkLost = false) ∧
    (∀ n ∈ [0, 1],
      let s := on fun d => (d.set Bar.GEN_BOOT_STAGE 3).set Bar.CLU_BANK_SPARES_LEFT n 15 63
      s.isRunning ∧ s.dev.get Bar.GEN_BOOT_STAGE = 3 ∧ s.dev.flag Bar.CLU_MARCH_STATUS_DONE 15 = false ∧
      s.dev.get Bar.CLU_BANK_SPARES_LEFT 15 63 = n) ∧
    (let s := on fun d => (List.range 16).foldl (fun d c => d.set Bar.CLU_MARCH_STATUS_DONE 1 c) (d.set Bar.GEN_BOOT_STAGE 3)
     s.isRunning ∧ s.dev.get Bar.GEN_BOOT_STAGE = 3 ∧ ∀ n, n < 16 → s.dev.flag Bar.CLU_MARCH_STATUS_DONE n = true) := by
  simp only [State.isRunning]; decide +kernel

/-- A core that still has its end to report for an invocation of allotment 255. -/
def ending (d : Dev) : Dev :=
  { d.set Bar.ALT_CFG_STATE 1 255 with
    units := [(255, { UnitSt.idle with state := 3, final := some 1, inv := some { inv0 with allot := 255 } })] }

/-- ResetDomains: nothing assigned; allotment 255 ACTIVE with a core that ends its invocation and its TDI in RUN; a TDI
in CONFIG_UNLOCKED and one in CONFIG_LOCKED. -/
theorem hyp_reset_domains :
    (on id).isRunning ∧ (on id).dev.ep.tdi = [] ∧ kvGetD (on id).dev.ep.tdi 255 0 = 0 ∧
    (let s := on fun d => ending { d with ep := { d.ep with tdi := [(255, 2)] } }
     s.isRunning ∧ s.dev.altState 255 = 1 ∧ s.dev.validGroups = [] ∧ kvGetD s.dev.ep.tdi 255 0 ≠ 0 ∧
     ∃ u i, s.dev.units = [(255, u)] ∧ u.state = 3 ∧ u.final.isSome = true ∧ u.inv = some i ∧ i.allot = 255) ∧
    (let s := on fun d => { d with ep := { d.ep with tdi := [(255, 1)] } }
     s.isRunning ∧ kvGetD s.dev.ep.tdi 255 0 = 1) := by
  simp only [State.isRunning]
  refine ⟨by decide +kernel, rfl, rfl, ⟨by decide +kernel, by decide +kernel, by decide +kernel, by decide,
    ⟨_, _, rfl, rfl, rfl, rfl, rfl⟩⟩, by decide +kernel, by decide⟩

/-- FirmwareReload: a write of RELOAD with no reload in progress, a reload to end, the owner and RECOVERY. -/
theorem hyp_reload :
    (let s := ready id
     s.dev.serves = true ∧ writesAsPf0 .pf0 = true ∧ (0xA0000000 : Nat).testBit 31 = true ∧
     s.dev.flag Bar.GEN_FW_STATUS_DONE = true ∧ s.isReady ∧ s.dev.ownerOrPf0 .pf0 = true) ∧
    (let s := ready fun d => { d with boot := { d.boot with reload := some ([], true) } }
     s.isRunning ∧ s.dev.boot.reload = some ([], true) ∧ checkImage [] s.fuses.minSvn = .inl 1) ∧
    (on fun d => d.set Bar.GEN_BOOT_STAGE 5).dev.get Bar.GEN_BOOT_STAGE = 5 := by
  simp only [State.isRunning, State.isReady]
  refine ⟨?_, ⟨?_, rfl, ?_⟩, ?_⟩
  rotate_left 2
  · simp [checkImage, leNat]
  all_goals decide +kernel

/-- RegisterAccessesReadAndWrite: a package in READY and a hold of block 19 that is not due. -/
theorem hyp_register_accesses :
    (ready id).isReady ∧
    (let s := ready fun d => { d with now := 999999, power := { d.power with holds := [(19, ⟨0, false⟩)] } }
     s.dev.serves = true ∧ kvGet? s.dev.power.holds 19 = some ⟨0, false⟩) := by
  simp only [State.isReady]; decide +kernel

/-- AlertHoldEndsWhenDue: on the millisecond, just before it, and without acknowledgement. -/
theorem hyp_alert_hold : ∀ p ∈ [(1000000, true), (999999, true), (1000000, false)],
    let s := ready fun d => { d with now := p.1, power := { d.power with holds := [(19, ⟨0, p.2⟩)] } }
    s.isRunning ∧ ∃ h, kvGet? s.dev.power.holds 19 = some h ∧ h.since = 0 ∧ h.acked = p.2 := by
  simp only [State.isRunning]
  intro p hp
  exact ⟨by revert p; decide +kernel, ⟨0, p.2⟩, rfl, rfl, rfl⟩

/-- MonitorsActOnWhatTheyMeasure: a running window monitor, a synchronised package, a sample of site 63 above every other,
one of site 31 outside the Cloche's range, and VDD_AON inside and outside its range. -/
theorem hyp_monitors :
    (let s := ready fun d => (d.set Bar.TIM_WMON_CTL_ENABLE 1).set Bar.TIM_STATUS_DIE_SYNC 1
     s.isRunning ∧ s.dev.flag Bar.TIM_WMON_CTL_ENABLE = true ∧ s.dev.flag Bar.TIM_STATUS_DIE_SYNC = true ∧
     (∀ i, i < 64 → i ≠ 63 → sext16 (s.dev.get Bar.PWR_VMON_TEMP i) ≤ 2000) ∧ s.dev.banks.clocheOut = [] ∧
     s.dev.power.aonOut = false) ∧
    (ready fun d => { d with power := { d.power with aonOut := true } }).dev.power.aonOut = true := by
  simp only [State.isRunning]; decide +kernel

/-- PowerClockAndTamper. -/
theorem hyp_power :
    (let s := ready fun d => { d with boot := { d.boot with avsTable := [(0, 750)] } }
     s.isRunning ∧ s.dev.flag Bar.PWR_AVS_MODE = false ∧ s.dev.boot.avsTable ≠ [] ∧ s.dev.power.refclkLost = false ∧
     s.dev.ep.tdi = [] ∧ (∀ p, p < 192 → s.dev.portState p ≠ 5 ∧ s.dev.portState p ≠ 7) ∧
     (∀ l, l < 8 → s.dev.get Bar.MEM_CXL_STATUS_STATE l = 0) ∧ (∀ a, a < 256 → 1 ≤ a → s.dev.altState a = 0) ∧
     s.dev.sec.coarseNs ≤ s.dev.now) ∧
    (let s := ready fun d => { d with power := { d.power with requested := 600, refclkLost := true } }
     s.isRunning ∧ s.dev.power.requested ≠ s.dev.avsGoal ∧ s.dev.power.refclkLost = true) := by
  simp only [State.isRunning]; decide +kernel

/-- ManagementLanesAndCalendarTime: lane 1 without a link, tried for 500 ms; with one, without a master and with one; and
HOLDOVER at its end. -/
theorem hyp_mgt_lanes :
    (let s := ready fun d => { d with now := 500000000 }
     s.isRunning ∧ s.dev.laneTries 1 = true ∧ 2 = (if s.dev.mgt.tryTen.getD 1 true then 2 else 1) ∧
     s.dev.mgt.tryNs.getD 1 0 + 500000000 ≤ s.dev.now) ∧
    (∀ m ∈ [none, some (7, 0)],
      let s := ready fun d => (({ d with mgt := { d.mgt with master := m } }.set Bar.MGT_LANE_LINK 1 1).set
        Bar.MGT_PTP_ENABLE 1).set Bar.MGT_PTP_DOMAIN 255
      s.isRunning ∧ s.dev.flag Bar.MGT_LANE_LINK 1 = true ∧ s.dev.flag Bar.MGT_PTP_ENABLE = true ∧
      255 = s.dev.get Bar.MGT_PTP_DOMAIN ∧ s.dev.mgt.master = m) ∧
    (let s := ready fun d => { d with now := 9, mgt := { d.mgt with holdEnd := 9 } }.set Bar.MGT_PTP_STATUS_STATE 3
     s.isRunning ∧ s.dev.get Bar.MGT_PTP_STATUS_STATE ≠ 2 ∧ s.dev.mgt.holdEnd ≠ 0 ∧ s.dev.mgt.holdEnd ≤ s.dev.now) := by
  simp only [State.isRunning]; decide +kernel

/-! ### What the statements say of the commands that find nothing to do -/

/-- RegisterAccessesReadAndWrite to NotificationsQueueAndSignal: the premises under which a command changes nothing, or does
no more than its general clause says. -/
theorem hyp_reset_otherwise :
    (∀ a, Requester.pf0 ≠ .vf a) ∧ (on id).isRunning ∧ (on id).dev.serves = false ∧ (on id).dev.boot.reload = none ∧ (on id).dev.power.pwrOk = true ∧
    (let s := ready fun d => d.set Bar.GEN_FW_STATUS_DONE 0
     s.dev.serves = true ∧ writesAsPf0 .pf0 = true ∧ s.dev.flag Bar.GEN_FW_STATUS_DONE = false) ∧
    writesAsPf0 (.vf 1) = false ∧ asPf0 .pf0 = true ∧
    (let s := ready fun d => d.set Bar.TIM_WMON_CTL_ENABLE 1
     s.isRunning ∧ s.dev.now < s.dev.winEnd ∧ s.dev.power.aonOut = false) ∧
    (let s := ready fun d => { d with now := 10000000 }.set Bar.TIM_WMON_CTL_ENABLE 1
     s.dev.flag Bar.TIM_WMON_CTL_ENABLE = true ∧ s.dev.winEnd ≤ s.dev.now) ∧
    (ready id).dev.flag Bar.TIM_STATUS_DIE_SYNC = false ∧
    allBanks.any (ready fun d => d.setBankCold true (.cluster 15 63)).dev.bankCold = true ∧
    (let s := ready id
     s.isReady ∧ s.dev.power.requested = s.dev.avsGoal ∧ s.dev.boot.avsTable = [] ∧ s.dev.power.refclkLost = false) ∧
    (ready fun d => { d with sec := { d.sec with coarseNs := 1 } }).dev.now < (ready fun d => { d with
      sec := { d.sec with coarseNs := 1 } }).dev.sec.coarseNs ∧
    State.reset.dev.runs = false := by
  simp only [State.isRunning, State.isReady]
  refine And.intro (fun a h => Requester.noConfusion h) ?_
  decide +kernel

/-- ManagementLanesAndCalendarTime, AllotmentsStartAndReset and NotificationsQueueAndSignal likewise. -/
theorem hyp_lanes_otherwise :
    (let s := ready fun d => { d with mgt := { d.mgt with master := some (3, 7) } }
     s.isRunning ∧ s.dev.flag Bar.MGT_LANE_LINK 1 = false ∧ s.dev.now < s.dev.mgt.tryNs.getD 1 0 + 500000000 ∧
     s.dev.mgt.holdEnd = 0 ∧ s.dev.queryMine 1 (.arp 5) = false ∧ s.dev.mgt.master = some (3, 7) ∧ 3 ≠ 4 ∧ 6 < 7 ∧ 7 ≤ 7) ∧
    (ready id).dev.mgt.master = none ∧
    (let s := ready fun d => (d.set Bar.MGT_LANE_LINK 1 1).set Bar.MGT_LANE_IPV4 5 1
     s.dev.laneTries 1 = false ∧ s.dev.flag Bar.MGT_LANE_LINK 1 = true ∧ s.dev.queryMine 1 (.arp 5) = true) ∧
    (let s := ready fun d => { d with sec := { d.sec with mslots := (List.range 512).map fun i => (i, (1, 0)) } }
     s.isReady ∧ s.fuses.lifecycle ≠ 3 ∧ s.dev.altState 255 = 0 ∧ s.dev.activeMslot 255 = none ∧
     kvFree s.dev.sec.mslots 512 = none) ∧
    (let s := ready fun d => { d with sec := { d.sec with mslots := [(3, (1, 255))] } }.set Bar.SEC_ALT_MSLOT 3 255
     s.isReady ∧ s.dev.activeMslot 255 = some 3) ∧
    (let s := ready ending
     s.isRunning ∧ s.dev.altState 255 ≠ 0 ∧ s.dev.altState 255 ≠ 2) ∧
    (let s := ready fun d => { d with now := 1000000, ep := { d.ep with pend := [] } }
     s.isReady ∧ s.isRunning ∧ (s.dev.allotSt 255).notes = [] ∧ (s.dev.allotSt 255).tokenMs < s.dev.now / 1000000 ∧
     s.dev.ep.pend.contains 2047 = false) ∧
    (ready id).dev.now / 1000000 ≤ ((ready id).dev.allotSt 255).tokenMs := by
  simp only [State.isRunning, State.isReady]; decide +kernel

/-- AllotmentsStartAndReset: tenant 255 DISABLED, outside RETURNED and in it; ACTIVE, with a core that ends its
invocation; and RESETTING with nothing of it left. -/
theorem hyp_allotments :
    (let s := ready fun d => { d with sec := { d.sec with mslots := [(0, (1, 0))] } }
     s.isReady ∧ s.fuses.lifecycle ≠ 3 ∧ s.dev.altState 255 = 0 ∧ s.dev.activeMslot 255 = none ∧
     kvFree s.dev.sec.mslots 512 = some 1) ∧
    (let s := { ready id with fuses := { (ready id).fuses with lifecycle := 3 } }
     s.isReady ∧ s.fuses.lifecycle = 3 ∧ s.dev.altState 255 = 0) ∧
    (let s := ready ending
     s.isReady ∧ s.dev.altState 255 = 1 ∧ s.dev.validGroups = [] ∧
     ∃ u i, s.dev.units = [(255, u)] ∧ u.state = 3 ∧ u.final.isSome = true ∧ u.inv = some i ∧ i.allot = 255) ∧
    (let s := ready fun d => (d.set Bar.ALT_CFG_STATE 2 255).set Bar.ALT_CFG_NMODE 0 255
     s.isRunning ∧ s.dev.altState 255 = 2 ∧ s.dev.units = [] ∧ s.dev.nmus.cmds = [] ∧ s.dev.ver.waiting = [] ∧
     s.dev.regionsOf 255 = [] ∧ s.dev.sessionsOf 255 = [] ∧ s.dev.trl = [] ∧ s.dev.banksLeft 255 = [] ∧
     (∀ j, j < 64 → s.dev.flag Bar.EXP_EGR_VALID j = false) ∧ s.dev.get Bar.ALT_CFG_NMODE 255 = 0) := by
  simp only [State.isRunning, State.isReady]
  refine ⟨?_, ?_, ⟨?_, ?_, ?_, ⟨_, _, rfl, rfl, rfl, rfl, rfl⟩⟩, ?_⟩ <;> decide +kernel

/-- A queue of notifications. -/
def noted (n : Nat) (d : Dev) : Dev :=
  (d.set Bar.ALT_CFG_NMODE 0 255).setAllot 255 { d.allotSt 255 with
    notes := (List.range n).map fun i => { code := 1, rep := 0, seq := i, arg := i, timeNs := 0, signalled := false, framed := false } }

/-- NotificationsQueueAndSignal: 63 records, 64 with and without an equal one, a pop, and vector 2040 pending for a
function whose messages are on. -/
theorem hyp_notifications :
    (let d := (ready (noted 63)).dev
     d.altState 255 ≠ 2 ∧ d.get Bar.ALT_CFG_NMODE 255 = 0 ∧ (d.allotSt 255).notes.length < 64) ∧
    (let s := ready (noted 64)
     s.isReady ∧ s.isRunning ∧ s.dev.altState 255 ≠ 2 ∧ s.dev.get Bar.ALT_CFG_NMODE 255 = 0 ∧
     64 ≤ (s.dev.allotSt 255).notes.length ∧ (∀ m ∈ (s.dev.allotSt 255).notes, m.code ≠ 1 ∨ m.arg ≠ 64) ∧
     (∃ m ∈ (s.dev.allotSt 255).notes, m.code = 1 ∧ m.arg = 63) ∧
     (s.dev.allotSt 255).notes = (s.dev.allotSt 255).notes.headD ⟨0, 0, 0, 0, 0, false, false⟩ :: (s.dev.allotSt 255).notes.tail) ∧
    (let s := ready fun d => { d with ep := { d.ep with pend := [2040], vfEnable := true, vfEn := [entryFn 2040] } }
     s.isRunning ∧ s.dev.ep.pend.contains 2040 = true ∧ s.dev.msixOn (entryFn 2040) = true ∧
     s.dev.msixFnMask (entryFn 2040) = false) := by
  simp only [State.isRunning, State.isReady]
  decide +kernel

/-- MapInstallsOpenADrainWindow: slot 1023 is IN at another endpoint; the window is over. -/
theorem hyp_map :
    let s := ready fun d => { ((d.set Bar.MBR_MEMBER_VALID 1 1023).set Bar.MBR_MEMBER_IN 1 1023).set Bar.MBR_MEMBER_ENDPOINT 7 1023 with
      now := 500000 }
    s.isReady ∧ s.isRunning ∧ s.dev.reqs = [] ∧ s.dev.isFenced = false ∧ s.dev.memIsIn 1023 = true ∧
    s.dev.memEp 1023 ≠ s.dev.myEp ∧ s.dev.get Bar.ALT_MAP_INSTALL_NS + 500000 ≤ s.dev.now := by
  simp only [State.isRunning, State.isReady]; decide +kernel

/-- Port p in a STATE and at a step of bring-up. -/
def port (p state step : Nat) (d : Dev) : Dev :=
  { d.set Bar.LNK_PORT_STATUS_STATE state p with ports := [(p, { d.port p with step := step })] }

/-- PortsComeUpStepByStep: port 184 with eight lanes, in each state; a lane map that agrees and one that does not; a
partner that is admitted and one that is held; and both reasons that ACCEPT ends. -/
theorem hyp_ports_up :
    (let s := ready id
     s.isReady ∧ s.dev.isLeader 184 = true ∧ s.dev.portState 184 = 0) ∧
    (let s := ready (port 184 1 1)
     s.isRunning ∧ s.dev.portState 184 = 1 ∧ s.dev.minLanes 184 ≤ 8) ∧
    (let s := ready (port 184 2 2)
     s.isRunning ∧ s.dev.portState 184 = 2 ∧ (s.dev.port 184).step = 2) ∧
    (let s := ready (port 184 2 3)
     s.isRunning ∧ s.dev.portState 184 = 2 ∧ (s.dev.port 184).step = 3 ∧ (s.dev.port 184).attempts < 2 ∧
     agreedWidth (s.dev.layoutWidth 184) 3 0 (s.dev.minLanes 184) = none ∧
     agreedWidth (s.dev.layoutWidth 184) 0 1 1 = some 0) ∧
    (let s := ready (port 184 3 4)
     s.isRunning ∧ s.dev.portState 184 = 3 ∧ (s.dev.port 184).step = 4) ∧
    (let s := ready (port 184 4 5)
     s.isRunning ∧ s.dev.portState 184 = 4 ∧ (s.dev.port 184).step = 5 ∧
     s.dev.holdReason 184 [[0x2100007, 99]] = 0 ∧ s.dev.holdReason 184 [[0x4100007, 99]] = 1) ∧
    ∀ r ∈ [4, 5],
      let s := ready fun d => (port 184 7 0 d).set Bar.LNK_PORT_STATUS_HOLD_REASON r 184
      s.isReady ∧ s.dev.portState 184 = 7 ∧ s.dev.get Bar.LNK_PORT_STATUS_HOLD_REASON 184 = r := by
  simp only [State.isRunning, State.isReady]; decide +kernel

/-- PortsFailAndRetrain: a step that has timed out at the second attempt and at the third; an ACTIVE and a HELD port with
two recent retrains; a FAILED port; a mapped lane of an ACTIVE port with and without AUTO_RETRAIN. -/
theorem hyp_ports_fail :
    (∀ a ∈ [1, 2],
      let s := ready fun d => { port 184 2 2 d with ports := [(184, { d.port 184 with step := 2, attempts := a })] }
      s.isRunning ∧ (s.dev.trel 1).held = [] ∧ s.dev.portState 184 = 2 ∧ (s.dev.port 184).step = 2 ∧
      (s.dev.port 184).deadline ≤ s.dev.now ∧ (s.dev.port 184).attempts = a) ∧
    (∀ n ∈ [5, 7],
      let s := ready fun d => { port 184 n 0 d with
        now := 1000000000, ports := [(184, { d.port 184 with retrains := [0, 1, 2] })] }
      s.isReady ∧ s.dev.portState 184 = n ∧
      ((s.dev.port 184).retrains.filter fun t => s.dev.now < t + 1000000000).length < 3) ∧
    (ready (port 184 8 0)).isReady ∧ (ready (port 184 8 0)).dev.portState 184 = 8 ∧
    (ready id).isReady ∧ (ready id).dev.isLeader 184 = true ∧
    ∀ n ∈ [0, 1],
      let s := ready fun d => ((port 184 5 0 d).set Bar.LNK_PORT_STATUS_LANE_MAP 1 184).set Bar.LNK_PORT_CFG_AUTO_RETRAIN n 184
      s.isRunning ∧ s.dev.portOfLane 184 = 184 ∧ s.dev.laneMapped 184 = true ∧ s.dev.portState 184 = 5 ∧
      s.dev.flag Bar.LNK_PORT_CFG_AUTO_RETRAIN 184 = (n == 1) := by
  simp only [State.isRunning, State.isReady]; decide +kernel

/-- A READ of endpoint 9 for 8 bytes at address 0, from endpoint 7. -/
def read9 : Frame :=
  { type := Ty.read, cls := 4, allot := 0, dstEp := 9, srcEp := 7, tag := 5, status := 0, flags := 0, len := 0, mapEpoch := 0
    mbrEpoch := 0, w5 := 0, w6 := 0, w7 := 8, payload := [], trailer := [], badTail := false }
def held9 (complete : Bool) : Held :=
  { id := 3, f := read9, ingress := .cluster 15, origin := .cluster 15, cells := 1, targets := [.fabric 184], started := []
    sent := false, complete := complete, bad := false, credited := false, note := none, repl := false, loc := none
    waits := false, link := none }

/-- The WRITE of eight bytes whose tail is awaited. -/
def heldTail : Held := { held9 false with f := { read9 with type := Ty.write, len := 8 } }

/-- TrellisCarriesFrames: a frame with exactly its credit and route; one whose tail is awaited; the head of the only
queue of port 184; ACTIVE at port 184 with one cell lost; a die with and without spare cells. -/
theorem hyp_trellis :
    (let s := ready fun d => ({ (port 184 5 0 d).set Bar.TRL_ROUTE_VALID 1 1 9 with
        trl := [(1, { emptyTrellis with advert := [(qCode (.fabric 184) 4, 1)] })] }.set Bar.TRL_ROUTE_BRIDGE 1 1 9).set
        Bar.TRL_CELLS_FREE 1 1
     s.isRunning ∧ s.dev.isLeader 184 = true ∧ s.dev.portState 184 = 5 ∧
     Frame.cells read9 ≤ kvGetD (s.dev.trel 1).advert (qCode (.fabric 184) 4) 0 ∧ malformed read9 = false ∧
     read9.mbrEpoch = s.dev.mbrEpoch ∧ s.dev.route (.fabric 184) read9 = .to [.bridge 1] false none ∧
     s.dev.laneNoise = [] ∧ s.dev.get Bar.QOS_POLICE_RATE 1 0 = 0 ∧ Frame.cells read9 ≤ s.dev.get Bar.TRL_CELLS_FREE 1) ∧
    (∀ n ∈ [7, 8],
     let s := ready fun d => { d with trl := [(1, { emptyTrellis with held := [heldTail] })] }
     s.isRunning ∧ (s.dev.trel 1).held = [heldTail] ∧ heldTail.f.len ≠ 0 ∧ heldTail.bad = false ∧ heldTail.targets ≠ [] ∧
     (List.replicate n (0 : Byte)).length = n) ∧
    (let s := ready fun d => { port 184 5 0 d with
        trl := [(1, { emptyTrellis with held := [held9 true], partner := [(qCode (.fabric 184) 4, 1)] })] }
     s.isRunning ∧ s.dev.canSend (.fabric 184) = true ∧
     ∃ t, s.dev.chooseClass (.fabric 184) = some (4, t) ∧ queueHead t (.fabric 184) 4 = some (held9 true) ∧ t.retired = []) ∧
    (let s := ready fun d => { port 184 5 0 d with trl := [(1, { emptyTrellis with rxCells := [(qCode (.fabric 184) 7, 8)] })] }
     s.isRunning ∧ s.dev.portState 184 = 5 ∧ kvGetD (s.dev.trel 1).rxCells (qCode (.fabric 184) 7) 0 < 9) ∧
    ∀ n ∈ [0, 1], let s := ready fun d => d.set Bar.TRL_CELLS_SPARE n 1
      s.isRunning ∧ s.dev.get Bar.TRL_CELLS_SPARE 1 = n := by
  simp only [State.isRunning]
  refine ⟨?_, ?_, ⟨?_, ?_, ⟨_, rfl, ?_⟩⟩, ?_⟩ <;> decide +kernel

/-- LosslessLimitsStayInBudget: the values of reset fit the budget of die 1, and so do the limits after the write. -/
theorem hyp_lossless :
    let d := (ready id).dev
    (ready id).isReady ∧ d.isLeader 184 = true ∧ d.llLimits 1 ≤ d.llBudget 1 ∧
    (∀ c ∈ [4, 5, 6, 7], 1 ≤ d.get (llField c) 184) ∧
    ((((d.set Bar.TRL_PORT_LL_TC4 1 184).set Bar.TRL_PORT_LL_TC5 1 184).set Bar.TRL_PORT_LL_TC6 1 184).set
      Bar.TRL_PORT_LL_TC7 4095 184).llLimits 1 ≤ d.llBudget 1 := by
  simp only [State.isReady]; decide +kernel

/-! ### What the statements say of the commands that find nothing to do -/

/-- PortsComeUpStepByStep, PortsFailAndRetrain and TrellisCarriesFrames: the premises of their other clauses. -/
theorem hyp_ports_otherwise :
    (let s := ready fun d => port 184 8 0 (d.set Bar.LNK_PORT_CFG_WIDTH 3 184)
     s.isReady ∧ s.isRunning ∧ s.dev.portState 184 ≠ 0 ∧ s.dev.portState 184 ≠ 1 ∧ s.dev.portState 184 ≠ 5 ∧
     (s.dev.port 184).step ≠ 2 ∧ (s.dev.trel 1).held = []) ∧
    (ready id).dev.isLeader 185 = false ∧ 3 < (ready fun d => d.set Bar.LNK_PORT_CFG_MIN_WIDTH 2 184).dev.minLanes 184 ∧
    (ready fun d => { port 184 2 2 d with ports := [(184, { d.port 184 with step := 2, deadline := 1 })] }).dev.now <
      ((ready fun d => { port 184 2 2 d with ports := [(184, { d.port 184 with step := 2, deadline := 1 })] }).dev.port 184).deadline ∧
    (ready fun d => { port 184 6 2 d with ports := [(184, { d.port 184 with step := 2, fast := true })] }).dev.portState 184 = 6 ∧
    (∀ acted ∈ [true, false],
      let s := ready fun d => ((port 184 5 0 d).set Bar.LNK_PORT_STATUS_LANE_MAP 1 184).setLaneWin 184
        { d.laneWin 184 with uncorr := d.get Bar.LNK_DEGRADE_CTL_UNCORR_MAX, acted := acted }
      s.dev.laneMapped 184 = true ∧ s.dev.get Bar.LNK_DEGRADE_CTL_UNCORR_MAX ≤ (s.dev.laneWin 184).uncorr ∧
      (s.dev.laneWin 184).acted = acted) ∧
    (ready id).dev.laneMapped 184 = false ∧
    (let h := { heldTail with ingress := TPort.fabric 184 }
     let s := ready fun d => { d with trl := [(1, { emptyTrellis with held := [h] })] }
     (s.dev.trel 1).held = [h] ∧ h.ingress = .fabric (s.dev.portOfLane 184) ∧ h.bad = false ∧ h.f.len ≠ 0) := by
  simp only [State.isRunning, State.isReady]; decide +kernel

theorem hyp_trellis_otherwise :
    (let s := ready id
     s.isRunning ∧ s.dev.isLeader 185 = false ∧ s.dev.isLeader 184 = true ∧ s.dev.laneNoise = [] ∧ s.dev.portState 184 ≠ 5 ∧
     s.dev.nextOut (.memSide 1) read9 ≠ some read9 ∧ s.dev.nextOut (.cluster 1) read9 ≠ some read9 ∧
     s.dev.canSend (.fabric 184) = false) ∧
    (∀ x ∈ [TPort.memSide 1, .cluster 1],
      let s := ready fun d => { d with outbox := [(x, read9)] }
      s.dev.nextOut x read9 = some read9) ∧
    (let s := ready fun d => { port 184 5 0 d with trl := [(1, { emptyTrellis with rxCells := [(qCode (.fabric 184) 7, 9)] })] }
     s.isRunning ∧ s.dev.portState 184 = 5 ∧ 9 ≤ kvGetD (s.dev.trel 1).rxCells (qCode (.fabric 184) 7) 0) ∧
    (ready fun d => { d with trl := [(1, { emptyTrellis with held := [heldTail] })] }).dev.trel 1 =
      { emptyTrellis with held := [heldTail] } := by
  simp only [State.isRunning]; decide +kernel

/-- A frame of endpoint 7 for address `off` of span 5. -/
def fr (type cls top off w7 : Nat) (bs : List Nat) : Frame :=
  { type := type, cls := cls, allot := 0, dstEp := 0, srcEp := 7, tag := 32768, status := 0, flags := 0, len := bs.length
    mapEpoch := 0, mbrEpoch := 0, w5 := top * 2 ^ 28 + 1280, w6 := off, w7 := w7, payload := bs.map (BitVec.ofNat 8)
    trailer := [], badTail := false }

/-- The object, and endpoint 7 as agent 1023. -/
def home (d : Dev) : Dev := ((pooled d).set Bar.COH_AGENT_VALID 1 1023).set Bar.COH_AGENT_ENDPOINT 7 1023
def dirOf (x : DirEnt) (d : Dev) : Dev := { d with coh := { d.coh with dir := [(P * 512, x)] } }
def inM : DirEnt := ⟨4, some 7, [], false, 0⟩

/-- MemoryFramesAreServedAtTheHome: a READ of 8 bytes, sound and poisoned; a WRITE and a pushed COPY_DATA that end with
their 4 KiB piece; an ATOMIC of the last word of the page; a WRITEBACK of endpoint 7, which holds line 0 in M; and a
combining entry of two READs and one of two FADDs. -/
theorem hyp_memory_frames :
    (∀ p ∈ [[], [0]], ∀ f ∈ [fr Ty.read 4 0 0 8 []],
      let s := ready fun d => { home d with pool := { (home d).pool with poison := p } }
      let d := s.dev
      s.isRunning ∧ f.type = Ty.read ∧ d.passes (.memSide 0) f ∧ inMailbox f = false ∧
      (d.flag Bar.SEC_ALT_FAB_EN f.allot = false ∧ d.homeIdle ∧ d.coh.dir = [] ∧
      d.nmus.burst = [] ∧ d.pool.flaws = [] ∧ d.egrView (Frame.addr f) = none ∧ d.mayServe f = true ∧ d.remotePage (pageOf (reqAddr f)) = false ∧ d.holdOf f = (.go, 0)) ∧
      d.rangePoisoned (reqAddr f) 8 = (p == [0])) ∧
    (∀ f ∈ [fr Ty.write 4 0 4088 0 (List.replicate 8 1), fr Ty.copyData 0 0 4088 0 (List.replicate 8 1),
        fr Ty.atomic 4 0 65532 (0 * 2 ^ 28) [1, 0, 0, 0]],
      let s := ready home
      let d := s.dev
      s.isRunning ∧ (f.type = Ty.write ∧ isPush f = false ∨ f.type = Ty.copyData ∧ Frame.copyFlag f = false ∨ f.type = Ty.atomic) ∧
      d.passes (.memSide (d.frameDie f)) f ∧ d.frameDie f = 0 ∧ inMailbox f = false ∧
      (d.flag Bar.SEC_ALT_FAB_EN f.allot = false ∧ d.homeIdle ∧ d.coh.dir = [] ∧
      d.nmus.burst = [] ∧ d.pool.flaws = [] ∧ d.egrView (Frame.addr f) = none ∧ d.mayServe f = true ∧ d.remotePage (pageOf (reqAddr f)) = false ∧ d.holdOf f = (.go, 0)) ∧
      d.frameOf (pageOf (reqAddr f)) = some 0 ∧ d.rangePoisoned (reqAddr f) (reqLen f) = false ∧ Frame.poisonBit f = false ∧
      f.payload.length = f.len ∧ reqAddr f % 4096 + f.len ≤ 4096) ∧
    (let f := fr Ty.writeback 6 0 0 0 (List.replicate 128 1)
     let s := ready (dirOf inM ∘ home)
     let d := s.dev
     s.isRunning ∧ f.type = Ty.writeback ∧ d.passes (.memSide (d.frameDie f)) f ∧ d.flag Bar.SEC_ALT_FAB_EN f.allot = false ∧
     d.homeIdle ∧ d.mayServe f = true ∧ d.heldBy (reqAddr f / 128) 4 f.srcEp ∧ d.remotePage (pageOf (reqAddr f)) = false ∧
     d.holdOf f = (.go, 0) ∧ d.frameOf (pageOf (reqAddr f)) = some 0 ∧ f.payload.length = 128 ∧ Frame.poisonBit f = false) ∧
    ∀ f ∈ [fr Ty.read 4 0 0 8 [], fr Ty.atomic 4 0 65532 0 [1, 0, 0, 0]],
      let s := ready fun d => { home d with coh := { d.coh with
        comb := [(0, ⟨0, 0, [(.cluster 1, f), (.memSide 0, { f with tag := 9 })]⟩)] } }
      let d := s.dev
      s.isRunning ∧ d.coh.txns = [] ∧ d.coh.waiting = [] ∧ d.coh.walks = [] ∧ d.coh.dir = [] ∧
      d.nmus.burst = [] ∧ d.pool.flaws = [] ∧ reqAddr f % 128 + reqLen f ≤ 128 ∧
      d.egrView (Frame.addr f) = none ∧ d.remotePage (pageOf (reqAddr f)) = false ∧ d.holdOf f = (.go, 0) ∧
      (f.type = Ty.read ∨ f.type = Ty.atomic ∧ atomOp f = 0 ∧ reqAddr f % reqLen f = 0 ∧
        d.frameOf (pageOf (reqAddr f)) = some 0 ∧ d.rangePoisoned (reqAddr f) (reqLen f) = false ∧ Frame.poisonBit f = false ∧
        f.payload.length = f.len) ∧
      ∀ q ∈ [(TPort.cluster 1, f), (.memSide 0, { f with tag := 9 })],
        q.2.type = f.type ∧ Frame.copyFlag q.2 = false ∧ Frame.poisonBit q.2 = false ∧ reqLen q.2 = reqLen f ∧
        d.flag Bar.SEC_ALT_FAB_EN q.2.allot = false := by
  simp only [State.isRunning, Dev.passes, Dev.homeIdle, Dev.heldBy]
  refine ⟨?_, ?_, ?_, ?_⟩ <;> decide +kernel

/-- A snoop of endpoint 7 for line 0, which it held in M, that the home sent for a capacity eviction. -/
def snooped (d : Dev) : Dev :=
  { dirOf inM (home d) with coh := { (dirOf inM (home d)).coh with
    txns := [(0, { die := 0, kind := .capacity, src := .memSide 0, f := fr Ty.snoop 6 0 0 0 [], members := []
                   lines := [P * 512], snoops := [⟨32768 + 4096 * 3, 7, P * 512, copInv, 0, true, false, false⟩], data := []
                   fwd := false, unsent := [], shared := false, remote := false })] } }

/-- A coherence request of endpoint 7 that the home takes. -/
def Asks (s : State) (f : Frame) : Prop :=
  s.isRunning ∧ f.type = Ty.snoop ∧ s.dev.passes (.memSide (s.dev.frameDie f)) f ∧
  s.dev.flag Bar.SEC_ALT_FAB_EN f.allot = false ∧ s.dev.homeIdle ∧ s.dev.nmus.burst = [] ∧ s.dev.pool.flaws = [] ∧
  s.dev.mayServe f = true ∧
  s.dev.remotePage (pageOf (reqAddr f)) = false ∧ s.dev.holdOf f = (.go, 0) ∧ s.dev.linePoisoned (reqAddr f / 128) = false

/-- CoherenceRequestsMoveLines, its requests: no holder, endpoint 8 in M, and the requester the one sharer. -/
theorem hyp_coherence_requests :
    (Asks (ready home) (fr Ty.snoop 6 1 0 0 []) ∧ frameCop (fr Ty.snoop 6 1 0 0 []) = 1 ∧ (ready home).dev.coh.dir = []) ∧
    (Asks (ready home) (fr Ty.snoop 6 2 0 0 []) ∧ frameCop (fr Ty.snoop 6 2 0 0 []) = 2) ∧
    (let s := ready fun d => ((dirOf ⟨4, some 8, [], false, 0⟩ (home d)).set Bar.COH_AGENT_VALID 1 1).set Bar.COH_AGENT_ENDPOINT 8 1
     let f := fr Ty.snoop 6 1 0 0 []
     Asks s f ∧ frameCop f = 1 ∧ 8 ≠ f.srcEp ∧ s.dev.heldBy (reqAddr f / 128) 4 8 ∧
     s.dev.flag Bar.SEC_ALT_FAB_EN (s.dev.allotOf (128 * (reqAddr f / 128))) = false) ∧
    (let s := ready (dirOf ⟨1, none, [7], false, 0⟩ ∘ home)
     let f := fr Ty.snoop 6 3 0 0 []
     Asks s f ∧ frameCop f = 3 ∧ s.dev.coh.dir = [(reqAddr f / 128, ⟨1, none, [f.srcEp], false, 0⟩)] ∧
     s.dev.agentOut f.srcEp = false) := by
  simp only [Asks, State.isRunning, Dev.passes, Dev.homeIdle, Dev.heldBy]
  refine ⟨?_, ?_, ?_, ?_⟩ <;> decide +kernel

/-- CoherenceRequestsMoveLines, its snoops: the answer of the holder in M and the expiry; agents, reclaims and recalls. -/
theorem hyp_coherence_snoops :
    (let s := ready snooped
     let d := s.dev
     let f := { fr Ty.snoopResp 6 0 0 0 (List.replicate 128 1) with tag := 32768 + 4096 * 3 }
     s.isRunning ∧ f.type = Ty.snoopResp ∧ d.passes (.memSide (tagDie f.tag)) f ∧
     (∃ t sn, d.coh.txns = [(0, t)] ∧ t.kind = .capacity ∧ t.fwd = false ∧ t.snoops = [sn] ∧ t.unsent = [] ∧ sn.wb = false ∧ sn.wasM = true ∧
       sn.cop = copInv ∧ d.heldBy sn.line 4 sn.agent ∧ d.frameOf (sn.line / 512) = some 0 ∧ sn.tag = f.tag ∧
       sn.agent = f.srcEp ∧ sn.line = Frame.addr f / 128 ∧ sn.deadline ≤ d.now ∧ d.agentIdx sn.agent = some 1023) ∧
     d.coh.waiting = [] ∧ d.coh.walks = [] ∧ f.payload.length = 128 ∧ Frame.poisonBit f = false) ∧
    ((ready id).isReady ∧ (ready id).dev.flag Bar.COH_AGENT_VALID 1023 = false ∧
      (ready id).dev.agentIdx (slice (2 ^ 127 + 7 * 2 ^ 96) 111 96) = none ∧ slice (2 ^ 127 + 7 * 2 ^ 96) 127 127 = 1 ∧
      slice (2 ^ 127 + 7 * 2 ^ 96) 126 126 = 0) ∧
    ((ready home).isReady ∧ (ready home).dev.flag Bar.COH_AGENT_VALID 1023 = true ∧ (ready home).dev.coh.txns = []) ∧
    (let s := ready fun d => { dirOf inM (home d) with coh := { (dirOf inM (home d)).coh with reclaims := [(1023, true)] } }
     s.isRunning ∧ s.dev.coh.reclaims = [(1023, true)] ∧ s.dev.homeIdle ∧
     s.dev.heldBy (P * 512) 4 (s.dev.get Bar.COH_AGENT_ENDPOINT 1023) ∧ s.dev.frameOf (P * 512 / 512) = some 0) := by
  simp only [State.isRunning, State.isReady, Dev.passes, Dev.homeIdle, Dev.heldBy]
  refine ⟨⟨?_, ?_, ?_, ⟨_, _, rfl, rfl, rfl, rfl, rfl, ?_⟩, ?_⟩, ?_, ?_, ?_⟩ <;> decide +kernel

/-- CoherenceRequestsMoveLines, its recalls: window 2, whose range ends with the line that endpoint 7 holds, and its end. -/
theorem hyp_recall :
    (let s := ready fun d => ((dirOf inM (home d)).set Bar.COH_RECALL_ARG_BASE_PAGE P 2).set Bar.COH_RECALL_ARG_PAGES 1 2
     let d := s.dev
     s.isReady ∧ (∀ x, x < 3 → d.flag Bar.COH_RECALL_CTL_DONE x = true) ∧ d.inReset (d.get Bar.COH_RECALL_ARG_ALLOT 2) = false ∧
     d.inObjects (d.get Bar.COH_RECALL_ARG_ALLOT 2) (65536 * d.get Bar.COH_RECALL_ARG_BASE_PAGE 2)
       (65536 * max 1 (d.get Bar.COH_RECALL_ARG_PAGES 2)) = true ∧
     d.homeIdle ∧ d.heldBy (P * 512) 4 7 ∧ 512 * d.get Bar.COH_RECALL_ARG_BASE_PAGE 2 ≤ P * 512 ∧
     P * 512 < 512 * (d.get Bar.COH_RECALL_ARG_BASE_PAGE 2 + max 1 (d.get Bar.COH_RECALL_ARG_PAGES 2)) ∧
     d.homeDie (128 * (P * 512)) = some 0 ∧ d.flag Bar.SEC_ALT_FAB_EN (d.allotOf (128 * (P * 512))) = false) ∧
    (let s := ready fun d => { d.set Bar.COH_RECALL_CTL_DONE 0 2 with coh := { d.coh with walks := [⟨.recall 2, false, [], true⟩] } }
     s.isRunning ∧ s.dev.flag Bar.COH_RECALL_CTL_DONE 2 = false ∧ s.dev.coh.txns = [] ∧
     s.dev.coh.walks = [⟨.recall 2, false, [], true⟩]) := by
  simp only [State.isRunning, State.isReady, Dev.homeIdle, Dev.heldBy]
  refine ⟨?_, ?_⟩ <;> decide +kernel

/-- The other clauses of MemoryFramesAreServedAtTheHome and CoherenceRequestsMoveLines: frames of another type, a snoop that is
not due, no snoop, and a walk that has not ended. -/
theorem hyp_home_otherwise :
    (let f := fr Ty.epoch 6 0 0 0 []
     f.type ≠ Ty.read ∧ f.type ≠ Ty.write ∧ f.type ≠ Ty.copyData ∧ f.type ≠ Ty.atomic ∧ f.type ≠ Ty.writeback ∧
     f.type ≠ Ty.snoop ∧ f.type ≠ Ty.snoopResp) ∧
    ((ready id).isReady ∧ (ready id).isRunning ∧ (ready id).dev.snoopByTag 5 = none ∧
      (ready id).dev.flag Bar.COH_RECALL_CTL_DONE 2 = true) ∧
    (∀ n ∈ [0, 1], let d := (ready fun d => let e := snooped d
         { e with coh := { e.coh with txns := e.coh.txns.map fun x => (x.1, { x.2 with snoops := x.2.snoops.map fun y =>
           { y with deadline := n } }) } }).dev
       (d.snoopByTag (32768 + 4096 * 3)).map (fun x => x.1) = some 0 ∧
       (d.snoopByTag (32768 + 4096 * 3)).map (fun x => decide (x.2.deadline ≤ d.now)) = some (n == 0)) ∧
    (let s := ready fun d => { d.set Bar.COH_RECALL_CTL_DONE 0 2 with coh := { d.coh with walks := [⟨.recall 2, false, [0], true⟩] } }
     s.dev.flag Bar.COH_RECALL_CTL_DONE 2 = false ∧ s.dev.walkDone (.recall 2) = false) := by
  simp only [State.isRunning, State.isReady]; decide +kernel

/-- The payload of LEND: local address, pages, operation. -/
def lendBytes (pages op : Nat) : List Nat := List.replicate 8 0 ++ [pages, 0, 0, 0, op] ++ List.replicate 19 0
/-- A policy-3 object of one page, and entry 0 of the lending table. -/
def lent (d : Dev) : Dev :=
  ((((home d).set Bar.MEM_OBJ_POLICY 3 0).set Bar.MEM_LEND_VALID 1 0).set Bar.MEM_LEND_PAGES 1 0).set Bar.MEM_LEND_LENDER_EP 7 0

/-- One physical page whose only frame is `h`. -/
def onePg (h : Nat) (d : Dev) : Dev :=
  { d with pool := { d.pool with pages := [(5, ⟨some h, none, false, false, 1, 0, 0, 0⟩)], used := [(h, 0)] } }

/-- SpansLendingWarmStacksAndLinks, spans and lending: entry 511 and a span that entry 0 has and one that none has; the
second lending; a withdrawal that matches, and its end. -/
theorem hyp_spans_lending :
    (∀ p ∈ [(5, true), (65534, false)],
      let s := ready pooled
      let v := 2 ^ 63 + p.1 * 2 ^ 32
      s.isReady ∧ slice v 63 63 = 1 ∧ slice v 47 32 ≠ 0xFFFF ∧
      (decide (∃ j ∈ List.range 512, j ≠ 511 ∧ s.dev.flag Bar.MEM_SPAN_VALID j = true ∧
        s.dev.get Bar.MEM_SPAN_SPAN j = slice v 47 32)) = p.2) ∧
    (let s := ready lent
     let d := s.dev
     let f := fr Ty.lend 4 0 0 0 (lendBytes 1 0)
     s.isRunning ∧ f.type = Ty.lend ∧ lendOp f ≠ 1 ∧ d.passes (.memSide (d.frameDie f)) f ∧
     d.flag Bar.SEC_ALT_FAB_EN f.allot = false ∧ d.viewSlot (pageOf (Frame.addr f)) = none ∧ d.lendOk f = true ∧
     (∀ j, j < 1 → d.flag Bar.MEM_LEND_VALID j = true) ∧ d.flag Bar.MEM_LEND_VALID 1 = false) ∧
    (let s := ready fun d => (lent d).set Bar.MEM_LEND_POOL_PAGE P 0
     let d := s.dev
     let f := fr Ty.lend 4 0 0 0 (lendBytes 1 1)
     s.isRunning ∧ f.type = Ty.lend ∧ lendOp f = 1 ∧ d.passes (.memSide (d.frameDie f)) f ∧
     d.flag Bar.MEM_LEND_VALID 0 = true ∧ (∀ j, j < 1024 → d.flag Bar.MEM_LEND_VALID j = true → j = 0) ∧
     kvGet? d.pool.withdraw 0 = none ∧ d.get Bar.MEM_LEND_POOL_PAGE 0 = pageOf (Frame.addr f) ∧
     d.get Bar.MEM_LEND_PAGES 0 = lendPages f ∧ d.get Bar.MEM_LEND_ALLOT 0 = f.allot ∧
     d.get Bar.MEM_LEND_LENDER_EP 0 = f.srcEp ∧ d.objOf (pageOf (Frame.addr f)) = some 0) ∧
    (let f := fr Ty.lend 4 0 0 0 (lendBytes 1 1)
     let s := ready fun d => { lent d with pool := { (lent d).pool with withdraw := [(1023, some (.memSide 0, f))] } }
     s.isRunning ∧ s.dev.pool.withdraw = [(1023, some (.memSide 0, f))] ∧ s.dev.lendBusy 1023 = false ∧
     s.dev.flag Bar.SEC_ALT_FAB_EN f.allot = false) := by
  simp only [State.isRunning, State.isReady, Dev.passes]
  refine ⟨?_, ?_, ?_, ?_⟩ <;> decide +kernel

/-- SpansLendingWarmStacksAndLinks, WARM: of a session in use, of a FREE one, and an expired hold. -/
theorem hyp_warm :
    (let s := ready (session ses0)
     let f := fr Ty.warm 4 0 0 0 []
     s.isRunning ∧ f.type = Ty.warm ∧ s.dev.passes (.memSide 0) { f with w5 := 0 } ∧ s.dev.ses 0 Ses.STATE ≠ 0 ∧
     s.dev.ses 0 Ses.ALLOT = f.allot ∧ ∀ x ∈ s.dev.objPages (s.dev.ses 0 Ses.CACHE_OBJ), s.dev.inT1 x = true) ∧
    (let s := ready id
     s.isRunning ∧ s.dev.passes (.memSide 0) { fr Ty.warm 4 0 0 0 [] with w5 := 0 } ∧ s.dev.ses 0 Ses.STATE = 0) ∧
    (let s := ready fun d => { d with pool := { d.pool with holds := [(0, 0)] } }
     s.isRunning ∧ s.dev.pool.holds = [(0, 0)] ∧ 0 ≤ s.dev.now ∧ s.dev.noPages) := by
  simp only [State.isRunning, Dev.passes, Dev.noPages]
  refine ⟨?_, ?_, ?_⟩ <;> decide +kernel

/-- SpansLendingWarmStacksAndLinks, stacks and links: the last frame of stack 11; link 7 in each state, and its frame. -/
theorem hyp_stacks_links :
    (let h := 11 * stackFrames
     let s := ready (onePg h)
     s.isRunning ∧ s.dev.pool.pages = [(5, ⟨some h, none, false, false, 1, 0, 0, 0⟩)] ∧ s.dev.pool.pmap = [] ∧
     s.dev.pool.copies = [] ∧ s.dev.pool.jobs = [] ∧ s.dev.pool.leaving = [] ∧ s.dev.coh.txns = [] ∧ s.dev.coh.waiting = [] ∧ s.dev.coh.walks = [] ∧ isT1 h = true ∧
     stackOf h = 11) ∧
    (∀ n ∈ [0, 1, 2, 3, 4, 5],
      let s := ready fun d => d.set Bar.MEM_CXL_STATUS_STATE n 7
      s.isReady ∧ s.isRunning ∧ s.dev.get Bar.MEM_CXL_STATUS_STATE 7 = n ∧ s.dev.noPages ∧ s.dev.coh.waiting = [] ∧
      s.dev.coh.walks = [] ∧ s.dev.linkUsed 7 = 0) ∧
    ∀ n ∈ [2, 3],
      let h := 2 ^ 32 + 7 * 2 ^ 28
      let s := ready fun d => (onePg h d).set Bar.MEM_CXL_STATUS_STATE n 7
      s.isRunning ∧ s.dev.get Bar.MEM_CXL_STATUS_STATE 7 = n ∧ isT1 h = false ∧ linkOf h = 7 ∧
      s.dev.pool.pages = [(5, ⟨some h, none, false, false, 1, 0, 0, 0⟩)] := by
  simp only [State.isRunning, State.isReady, Dev.noPages]
  refine ⟨?_, ?_, ?_⟩ <;> decide +kernel

/-- Window 2 of the object commands is free and holds the arguments. -/
def args (xs : List Nat) (d : Dev) : Dev := xs.zipIdx.foldl (fun d e => d.set Bar.MEM_OBJ_ARG_ARG e.1 2 e.2) d
def Free (s : State) : Prop :=
  s.isReady ∧ s.dev.flag Bar.MEM_OBJ_RESULT_DONE 2 = true ∧ s.dev.pool.jobs = [] ∧
  s.dev.pool.leaving = [] ∧ s.dev.coh.txns = [] ∧ s.dev.coh.waiting = [] ∧ s.dev.coh.walks = []
/-- Page P, with its home in tier 2. -/
def tier2 (c : Option Nat) (d : Dev) : Dev :=
  { pooled d with pool := { (pooled d).pool with pages := [(0, ⟨some (2 ^ 32), c, false, false, 1, 0, 0, 0⟩)], used := [(2 ^ 32, 0)] } }

/-- ObjectsMoveTheirPages, the commands of a window. -/
theorem hyp_object_commands :
    (let s := ready fun d => args [0, (P + 7) * 65536, 1] (pooled d)
     let d := s.dev
     let g := d.objArg 2 0
     Free s ∧ d.inReset (slice g 63 56) = false ∧ d.disabled (slice g 63 56) = false ∧ d.spansOk 0 (P + 7) 1 = true ∧
     d.overlapsObject (P + 7) 1 = false ∧ d.freeObj = some 1 ∧ slice g 25 24 = 0 ∧ slice (d.objArg 2 1) 55 16 = P + 7 ∧
     (d.allocPages (homeT1 0 (slice g 16 16)) (min 2 (slice g 29 28)) 0 (P + 7) 1 0).isSome = true) ∧
    (let s := ready fun d => args [3 * 2 ^ 24, (P + 7) * 65536, 1] (pooled d)
     Free s ∧ slice (s.dev.objArg 2 0) 25 24 = 3 ∧ s.dev.freeObj = some 1) ∧
    (let s := ready fun d => args [0] (pooled d)
     Free s ∧ slice (s.dev.objArg 2 0) 13 0 = 0 ∧ s.dev.objCheck 0 true = none ∧ s.dev.get Bar.MEM_OBJ_PAGES 0 = 1 ∧
     s.dev.pageBusy P = false) ∧
    (let s := ready fun d => args [0] { pooled d with pool := { (pooled d).pool with copies := [(0, ⟨0, 7, none, P, false⟩)] } }
     Free s ∧ s.dev.objCheck 0 true = none ∧ 0 < s.dev.get Bar.MEM_OBJ_PAGES 0 ∧ (s.dev.pageId P).isSome = true ∧
     s.dev.pageBusy P = true) ∧
    (let s := ready fun d => args [2 * 2 ^ 24] { pooled d with pool := { (pooled d).pool with pmap := [], pages := [] } }
     Free s ∧ s.dev.objCheck 0 true = none ∧ slice (s.dev.objArg 2 0) 25 24 ≠ 3 ∧ s.dev.get Bar.MEM_OBJ_POLICY 0 ≠ 3 ∧
     s.dev.noPages) ∧
    (∀ c ∈ [none, some 6],
      let s := ready fun d => args [0, 0, 1] (tier2 c d)
      let d := s.dev
      Free s ∧ d.objCheck 0 false = none ∧ d.get Bar.MEM_OBJ_BASE_PAGE 0 = P ∧ d.pool.pmap = [(P, 0)] ∧ d.pool.copies = [] ∧
      d.nmus.cmds = [] ∧ d.sess = [] ∧ d.get Bar.MEM_OBJ_POLICY 0 = 1 ∧ d.get Bar.MEM_OBJ_PAGES 0 = 1 ∧
      slice (d.objArg 2 1) 27 0 = 0 ∧ slice (d.objArg 2 2) 27 0 = 1 ∧ d.objOf P = some 0 ∧
      ((kvGet? d.pool.pages 0).map Page.copy) = some c ∧
      ((d.allocT1 (d.get Bar.MEM_OBJ_HOME_DIE 0) 0 (d.get Bar.MEM_OBJ_ALLOT 0)).map Prod.fst).isSome = true) ∧
    (let s := ready fun d => args [2 ^ 55 + 63 * 2 ^ 32, 2 ^ 48 + 2 ^ 32] ((windowed d).set Bar.MEM_OBJ_POLICY 2 0)
     let d := s.dev
     Free s ∧ d.objCheck 0 true = none ∧ slice (d.objArg 2 0) 55 55 = 1 ∧ d.disabled (d.get Bar.MEM_OBJ_ALLOT 0) = false ∧
     d.get Bar.MEM_OBJ_POLICY 0 = 2 ∧ d.windowOwned (d.windowOf 0 (d.objArg 2 1)) = true) ∧
    (let s := ready fun d => args [63 * 2 ^ 32] (windowed d)
     Free s ∧ slice (s.dev.objArg 2 0) 55 55 = 0 ∧ s.dev.pool.wins = [(slice (s.dev.objArg 2 0) 37 32, win1 true)] ∧
     (win1 true).slots.any WinSlot.loading = false) := by
  simp only [Free, State.isReady, Dev.noPages]
  refine ⟨?_, ?_, ?_, ?_, ?_, ?_, ?_, ?_⟩ <;> decide +kernel

/-- ObjectsMoveTheirPages, the ends of moves: a layer that loads, and copies of each kind to a free frame. -/
theorem hyp_object_moves :
    (let x := { win1 false with slots := [⟨some 0, 0, false, 0⟩] }
     let s := ready fun d => { windowed d with pool := { (windowed d).pool with wins := [(63, x)] } }
     s.isRunning ∧ s.dev.pool.wins = [(63, x)] ∧ x.slots[0]? = some ⟨some 0, 0, false, 0⟩ ∧ x.enabled = true ∧
     maskList x.mask = [0] ∧ x.split = false ∧ x.place 0 + 65536 * x.slice ≤ 2 ^ 24 ∧
     (∀ y ∈ banksOf (clusterBase 0 + x.place 0) (65536 * x.slice), s.dev.mayUse x.allot y = true ∧ s.dev.bankCold y = false) ∧
     s.dev.banks.bank = [] ∧ s.dev.banks.march = [] ∧ s.dev.banks.tbt = none ∧ s.dev.banks.parcels = [] ∧
     s.dev.coh.txns = [] ∧ s.dev.coh.dir = [] ∧ s.dev.nmus.burst = [] ∧ s.dev.pool.flaws = []) ∧
    (∀ k ∈ [0, 2, 3, 4],
      let s := ready fun d => { tier2 none d with pool := { (tier2 none d).pool with copies := [(0, ⟨k, 7, none, P, false⟩)] } }
      let d := s.dev
      s.isRunning ∧ d.pageId P = some 0 ∧ kvGet? d.pool.copies 0 = some ⟨k, 7, none, P, false⟩ ∧ d.copyOf P = some (0, ⟨k, 7, none, P, false⟩) ∧
      kvGet? d.pool.pages 0 = some ⟨some (2 ^ 32), none, false, false, 1, 0, 0, 0⟩ ∧
      Page.frame ⟨some (2 ^ 32), none, false, false, 1, 0, 0, 0⟩ = some (2 ^ 32) ∧ memWf d.pool.mem = true ∧
      d.pageId P ≠ some d.pool.nextPage ∧ d.copyWaits 0 ⟨k, 7, none, P, false⟩ = false) ∧
    (let s := ready fun d => { tier2 (some 6) d with pool := { (tier2 (some 6) d).pool with copies := [(0, ⟨1, 2 ^ 32, none, P, false⟩)] } }
     s.isRunning ∧ s.dev.copyOf P = some (0, ⟨1, 2 ^ 32, none, P, false⟩) ∧
     Page.frame ⟨some (2 ^ 32), some 6, false, false, 1, 0, 0, 0⟩ = some 6) := by
  simp only [State.isRunning]
  refine ⟨?_, ?_, ?_⟩ <;> decide +kernel

/-- The other clauses of SpansLendingWarmStacksAndLinks and ObjectsMoveTheirPages: frames of another type, nothing to withdraw, a
hold that lasts, links in other states, a window that is not DONE, no copy, and a copy that a burst or a hold keeps back. -/
theorem hyp_pool_otherwise :
    (let f := fr Ty.epoch 6 0 0 0 []
     f.type ≠ Ty.lend ∧ f.type ≠ Ty.warm) ∧
    ((ready id).isReady ∧ (ready id).isRunning ∧ kvGet? (ready id).dev.pool.withdraw 5 = none ∧
      kvGet? (ready id).dev.pool.holds 0 = none ∧ (ready id).dev.get Bar.MEM_CXL_STATUS_STATE 7 ≠ 1 ∧
      kvGet? (ready id).dev.pool.wins 63 = none ∧ (ready id).dev.copyOf P = none) ∧
    (let s := ready fun d => { d with pool := { d.pool with holds := [(0, 9)] } }
     kvGet? s.dev.pool.holds 0 = some 9 ∧ s.dev.now < 9) ∧
    (ready fun d => d.set Bar.MEM_OBJ_RESULT_DONE 0 2).dev.flag Bar.MEM_OBJ_RESULT_DONE 2 = false ∧
    (∀ k ∈ [1, 4],
      let c : PageCopy := ⟨k, 2 ^ 32, none, P, false⟩
      let s := ready fun d => { pooled d with
        pool := { (pooled d).pool with copies := [(0, c)] }, nmus := { d.nmus with burst := [(0, ⟨0, 0, 0, 0, [], [0]⟩)] } }
      s.isRunning ∧ s.dev.copyOf P = some (0, c) ∧ s.dev.copyWaits 0 c = true) := by
  simp only [State.isRunning, State.isReady]; decide +kernel

/-- Bank 63 of cluster 15 and the eight banks of its core 15, in a STATE, in cold frame, and the marches at start-up done. -/
def lastBanks : List BankId := .cluster 15 63 :: (List.range 8).map (BankId.core 15 15)
def inState (n : Nat) (d : Dev) : Dev := lastBanks.foldl (fun d b => d.setBankState n b) d
def cold (d : Dev) : Dev := lastBanks.foldl (fun d b => d.setBankCold true b) d
def marched (d : Dev) : Dev := (d.set Bar.CLU_MARCH_STATUS_DONE 1 15).set Bar.CLU_MARCH_STATUS_BUSY 0 15

/-- BanksChangeHandsAndAreTested, owners: the last bank of each kind changes hands, is kept back by a window or by a
destructive march, and the hand-over ends, of a bank that was FREE and of one that was not. -/
theorem hyp_banks :
    (let s := ready id
     s.isReady ∧ slice 0x1FF 60 60 = 0 ∧ slice 0x1FF 59 59 = 0 ∧ s.dev.validGroups = [] ∧
     (∀ c, c < 16 → ∀ x, x < 64 → s.dev.windowBank c x = false) ∧
     ∀ b ∈ [BankId.cluster 15 63, .core 15 15 7], bankValid b = true ∧ s.dev.ownState b ≠ 2 ∧ s.dev.ownState b ≠ 3 ∧
       (∀ y ∈ bankGroup b, s.dev.bankState y ≠ 3) ∧ slice 0x1FF 8 8 ≠ s.dev.bankAssign b ∧ s.dev.groupMarch b = none) ∧
    (let s := ready windowed
     s.isReady ∧ s.dev.windowBank 0 0 = true ∧ s.dev.bankAssign (.cluster 0 0) = 1 ∧ s.dev.ownState (.cluster 0 0) ≠ 2 ∧
     s.dev.ownState (.cluster 0 0) ≠ 3 ∧ slice 0x1FF 7 0 ≠ s.dev.bankOwner (.cluster 0 0) ∧ s.dev.validGroups = []) ∧
    (∀ b ∈ [BankId.cluster 15 63, .core 15 15 7],
      let s := ready fun d => { d with banks := { d.banks with march := [(15, ⟨b, false, 0⟩)] } }
      s.dev.groupMarch b = some ⟨b, false, 0⟩ ∧ bankValid b = true ∧ s.dev.ownState b ≠ 2 ∧ s.dev.ownState b ≠ 3) ∧
    (∀ fr ∈ [true, false],
      let b := BankId.cluster 15 63
      let s := ready fun d => (inState 2 d).setBank b { (inState 2 d).bank b with wasFree := fr }
      s.isRunning ∧ s.dev.bankState b = 2 ∧ ((s.dev.bank b).wasFree && !s.dev.bankLost b) = fr ∧ s.dev.groupTest b = false) ∧
    (let s := ready (inState 2)
     s.isRunning ∧ (∀ y ∈ bankGroup (.core 15 15 7), s.dev.bankState y = 2) ∧ s.dev.groupTest (.core 15 15 7) = false ∧
     s.dev.coreBusy 255 = false) ∧
    (ready fun d => { d with units := [(255, { UnitSt.idle with state := 2 })] }).dev.coreBusy 255 = true ∧
    (ready fun d => { d with banks := { d.banks with tbt := some (.core 15 15 0, 0) } }).dev.groupTest (.core 15 15 7) = true ∧
    bankValid (.cluster 16 0) = false := by
  simp only [State.isRunning, State.isReady]
  refine ⟨?_, ?_, ?_, ?_, ?_, ?_, ?_, ?_⟩ <;> decide +kernel

/-- BanksChangeHandsAndAreTested, cold frame: on request and after IDLE_US, not at all, and a wake with and without the
contents. -/
theorem hyp_cold :
    (∀ b ∈ [BankId.cluster 15 63, .core 15 15 7],
      (let s := ready fun d => (d.set Bar.CLU_BANK_COLD_REQ 1 15 63).set Bar.CLU_CORE_OWN_COLD_REQ 1 15 15
       s.isRunning ∧ bankValid b = true ∧ s.dev.bankCold b = false ∧ s.dev.bankState b ≠ 2 ∧ s.dev.bankInUse b = false ∧
       s.dev.bankGet Bar.CLU_BANK_COLD_REQ Bar.CLU_CORE_OWN_COLD_REQ b = 1) ∧
      (let s := ready fun d => { d.set Bar.CLU_COLD_CFG_IDLE_US 3 with now := 3000 }
       s.dev.bankCold b = false ∧ s.dev.bankInUse b = false ∧ s.dev.get Bar.CLU_COLD_CFG_IDLE_US = 3 ∧
       (s.dev.bank b).lastUse + 1000 * 3 ≤ s.dev.now) ∧
      (ready cold).dev.bankCold b = true ∧ ((ready cold).dev.bank b).waking = false ∧
      ∀ lost ∈ [true, false],
        let s := ready fun d => (cold d).setBank b { (cold d).bank b with waking := true, gone := lost }
        s.isRunning ∧ s.dev.bankCold b = true ∧ (s.dev.bank b).waking = true ∧ (s.dev.bank b).gone = lost ∧
        s.dev.units = []) := by
  simp only [State.isRunning]
  decide +kernel

/-- BanksChangeHandsAndAreTested, marches and the background test: preserving, on a FREE bank and on an OWNED one; the end
with and without a spare; the last test region of a bank. -/
theorem hyp_marches :
    (∀ p ∈ [(0, 2 ^ 31 + 63), (1, 2 ^ 31 + 2 ^ 12 + 63), (1, 2 ^ 31 + 63)],
      let s := ready fun d => inState p.1 (marched d)
      s.isReady ∧ slice p.2 31 31 = 1 ∧ s.dev.flag Bar.CLU_MARCH_STATUS_BUSY 15 = false ∧ s.dev.passHolds 15 = false ∧
      marchBank (slice p.2 11 11) 15 (slice p.2 9 6) (slice p.2 5 0) = .cluster 15 63 ∧
      s.dev.bankState (.cluster 15 63) = p.1 ∧ s.dev.bankCold (.cluster 15 63) = false) ∧
    (∀ n ∈ [0, 1], ∀ keep ∈ [true, false],
      let m : March := ⟨.cluster 15 63, keep, 0⟩
      let s := ready fun d => { d.set Bar.CLU_BANK_SPARES_LEFT n 15 63 with banks := { d.banks with march := [(15, m)] } }
      s.isRunning ∧ s.dev.banks.march = [(15, m)] ∧ (s.dev.bank (.cluster 15 63)).want = none ∧
      s.dev.banks.parcels = [] ∧ s.dev.get Bar.CLU_BANK_SPARES_LEFT 15 63 = n) ∧
    (∀ n ∈ [0, 2],
     let v := 2 ^ 63 + 15 * 2 ^ 32 + 63 * 2 ^ 21
     let s := ready (inState n ∘ marched)
     s.isReady ∧ slice v 63 63 = 1 ∧ s.dev.flag Bar.CLU_TBT_STATUS_BUSY = false ∧
     marchBank (slice v 31 31) (slice v 35 32) (slice v 30 27) (slice v 26 21) = .cluster 15 63 ∧
     s.dev.bankState (.cluster 15 63) = n ∧ s.dev.marchOn (.cluster 15 63) = none ∧
     s.dev.otherMarch (.cluster 15 63) = false ∧ s.dev.bankCold (.cluster 15 63) = false) ∧
    (let off := 2 ^ 18 - 4096
     let s := ready fun d => { d with banks := { d.banks with tbt := some (.cluster 15 63, off) } }
     s.isRunning ∧ s.dev.banks.tbt = some (.cluster 15 63, off) ∧ s.dev.banks.parcels = [] ∧ off + 4096 ≤ 2 ^ 18) ∧
    (ready id).dev.banks.tbt = none ∧ kvGet? (ready id).dev.banks.march 15 = none := by
  simp only [State.isRunning, State.isReady]
  refine ⟨?_, ?_, ?_, ?_, ?_, ?_⟩ <;> decide +kernel

/-- The words of a near-memory command on line 0 (atomic: the 8 bytes at 0) of the object. -/
def words (op : Nat) : List Nat := [op * 2 ^ 24 + 2 * 65536, 1280, 0, 1280, 128, 1, 0, 7]
def cmd (ws left : List Nat) (src : Nat) : NmuCmd :=
  { words := ws, src := src, recAddr := 0, ctr := 0, gen := 0, left := left, done := 0, cached := 0, poison := 0, mism := 0
    first := none, parts := [], bad := false, late := false, held := [], hit := false }

/-- NearMemoryCommandsRunInBursts: a command of each operation in window 2 and from the logic; a burst of one line of FILL
and ATOMIC; a burst without a refresh owed and one with three; and a command with no line left. -/
theorem hyp_nmu :
    (∀ op ∈ [1, 2, 3, 4, 5],
      let s := ready fun d => (words op).zipIdx.foldl (fun d e => d.set Bar.NMU_CMD_DESC_WORD e.1 2 e.2) (pages32 d)
      s.isReady ∧ s.isRunning ∧ s.dev.get Bar.NMU_CMD_REC_WORD 2 8 = 0x80000000 ∧
      (List.range 8).map (fun i => s.dev.get Bar.NMU_CMD_DESC_WORD 2 i) = words op ∧ nmuOp (words op) = op ∧
      s.dev.nmuFull 2 = false ∧ s.dev.nmuFull 1000 = false ∧ s.dev.nmuRefused 2 (words op) = none ∧ s.dev.nmuRefused 1000 (words op) = none ∧
      (pagesFrom (nmuDst (words op)) (s.dev.nmuLines (words op))).filter s.dev.shared = []) ∧
    (∀ op ∈ [1, 5],
      let c := cmd (words op) [0] 1000
      let s := ready fun d => { pages32 d with nmus := { d.nmus with cmds := [(3, c)] } }
      s.isRunning ∧ s.dev.nmus.cmds = [(3, c)] ∧ s.dev.nmus.burst = [] ∧ s.dev.burstLines 0 c = [0] ∧
      s.dev.nmuHeld c = false ∧ s.dev.frameOf (pageOf (nmuDst c.words)) = some 0 ∧ nmuOp c.words = op ∧ nmuSize c.words = 8 ∧
      s.dev.rangePoisoned (nmuDst c.words) 8 = false) ∧
    (∀ o ∈ [0, 3],
      let b : Burst := { cmd := 3, start := 0, pace := 1496, done := 1, todo := [], chans := [383] }
      let s := ready fun d => { d with nmus := { d.nmus with burst := [(383, b)], owed := [(383, o)] } }
      s.isRunning ∧ kvGet? s.dev.nmus.burst 383 = some b ∧ b.todo = [] ∧ s.dev.burstDue b = [] ∧
      kvGetD s.dev.nmus.owed 383 0 = o ∧ kvGet? s.dev.nmus.burst 0 = none ∧ s.dev.poolQuiet ∧ s.dev.pool.copies = [] ∧
      s.dev.coh.txns = [] ∧ s.dev.coh.waiting = [] ∧ s.dev.coh.walks = [] ∧ s.dev.nmus.burst.any (fun e => e.2.cmd == 3) = true) ∧
    (let c := cmd (words 1) [0] 2
     let s := ready fun d => { pages32 d with nmus := { d.nmus with cmds := [(3, c)] } }
     kvGet? s.dev.nmus.cmds 3 = some c ∧ s.dev.nmuReady 383 3 c = false ∧ kvGet? s.dev.nmus.cmds 4 = none) ∧
    (let s := ready fun d => (words 1).zipIdx.foldl (fun d e => d.set Bar.NMU_CMD_DESC_WORD e.1 2 e.2) d
     s.isReady ∧ s.dev.nmuFull 2 = false ∧ (s.dev.nmuRefused 2 (words 1)).isSome = true) ∧
    (let c := cmd (words 1) [] 2
     let s := ready fun d => { pages32 d with nmus := { d.nmus with cmds := [(3, c)] } }
     s.isRunning ∧ s.dev.nmus.cmds = [(3, c)] ∧ s.dev.nmus.burst = [] ∧ s.dev.inReset (nmuAllot c.words) = false ∧
     s.dev.poolQuiet ∧ s.dev.pool.copies = [] ∧ s.dev.coh.txns = [] ∧ s.dev.coh.waiting = [] ∧ s.dev.coh.walks = []) := by
  simp only [State.isRunning, State.isReady, Dev.poolQuiet]
  refine ⟨?_, ?_, ?_, ?_, ?_, ?_⟩ <;> decide +kernel

/-- Window 2 of the region commands is free, with the arguments. -/
def verArgs (xs : List Nat) (d : Dev) : Dev := xs.zipIdx.foldl (fun d e => d.set Bar.VER_ARG_ARG e.1 2 e.2) d
/-- Region 0 over object 0, with view object 1 of 16 pages behind it; the version of slot 15 is current. -/
def region0 (cur opens : Nat) (d : Dev) : Dev :=
  let d1 := (((pooled d).set Bar.MEM_OBJ_VALID 1 1).set Bar.MEM_OBJ_BASE_PAGE (P + 16) 1).set Bar.MEM_OBJ_PAGES 16 1
  let d2 := (((d1.set Bar.VER_REGION_VALID 1 0).set Bar.VER_REGION_VIEW_OBJ 1 0).set Bar.VER_REGION_CUR_VERSION cur 0).set
    Bar.VER_REGION_CUR_SLOT 15 0
  let d3 := (d2.set Bar.VER_SLOT_OPENS opens 0 15).set Bar.VER_SLOT_STATE (if opens = 0 then 0 else 1) 0 15
  { d3 with pool := { d3.pool with objs := [0, 1] } }

/-- RegionsPublishOpenAndRetire, the commands: CREATE_REGION of the first region; OPEN one below the limit of opens; CLOSE of
the current version and of the last open of an old one; PUBLISH; DESTROY_REGION. -/
theorem hyp_regions :
    (let s := ready fun d => verArgs [0, (P + 16) * 65536] (pooled d)
     let d := s.dev
     s.isReady ∧ d.flag Bar.VER_RESULT_DONE 2 = true ∧ d.inReset 0 = false ∧ d.disabled 0 = false ∧ d.objValid 0 = true ∧
     slice (d.verArg 2 0) 13 0 = 0 ∧ slice (d.verArg 2 1) 55 16 = P + 16 ∧
     d.get Bar.MEM_OBJ_ALLOT 0 = 0 ∧ d.get Bar.MEM_OBJ_POLICY 0 < 2 ∧ d.flag Bar.MEM_OBJ_VERSIONED 0 = false ∧
     d.spansOk 0 (P + 16) 16 = true ∧ d.overlapsObject (P + 16) 16 = false ∧ d.freeObj = some 1 ∧
     d.flag Bar.VER_REGION_VALID 0 = false) ∧
    (∀ p ∈ [(1, 16777214), (0, 1), (1, 1)],
      let s := ready fun d => verArgs [15 * 2 ^ 24] (region0 p.1 p.2 d)
      let d := s.dev
      s.isReady ∧ d.flag Bar.VER_RESULT_DONE 2 = true ∧ slice (d.verArg 2 0) 43 32 = 0 ∧ slice (d.verArg 2 0) 27 24 = 15 ∧
      slice (d.verArg 2 0) 16 16 = 0 ∧ kvGet? d.ver.pubs 0 = none ∧ d.inReset 0 = false ∧ d.regionValid 0 = true ∧
      d.get Bar.VER_REGION_ALLOT 0 = 0 ∧ d.disabled 0 = false ∧ d.get Bar.VER_REGION_CUR_VERSION 0 = p.1 ∧
      d.get Bar.VER_SLOT_OPENS 0 15 = p.2 ∧ d.get Bar.VER_SLOT_STATE 0 15 = 1 ∧ d.get Bar.VER_SLOT_STATE 0 0 = 0 ∧
      d.coh.dir = [] ∧ d.coh.txns = [] ∧ d.coh.walks = [] ∧ d.drained 0 = true) ∧
    (let s := ready fun d => { verArgs [0] (region0 0 0 d) with pool := { (region0 0 0 d).pool with pmap := [] } }
     let d := s.dev
     s.isReady ∧ d.flag Bar.VER_RESULT_DONE 2 = true ∧ slice (d.verArg 2 0) 43 32 = 0 ∧ d.regionValid 0 = true ∧
     d.inReset (d.get Bar.VER_REGION_ALLOT 0) = false ∧ kvGet? d.ver.pubs 0 = none ∧
     (∀ j, j < 16 → d.get Bar.VER_SLOT_STATE 0 j = 0 ∧ d.get Bar.VER_SLOT_OPENS 0 j = 0) ∧ d.poolQuiet ∧ d.coh.txns = [] ∧
     d.coh.waiting = [] ∧ d.coh.walks = [] ∧ d.pool.pmap = []) := by
  simp only [State.isReady, Dev.poolQuiet]
  refine ⟨?_, ?_, ?_⟩ <;> decide +kernel

/-- RegionsPublishOpenAndRetire, its walks: a version that retires, and a first and a later version that are published. -/
theorem hyp_region_walks :
    (let s := ready fun d => { (region0 1 1 d).set Bar.VER_SLOT_STATE 2 0 14 with coh := { d.coh with walks := [⟨.retire 0 14, false, [], false⟩] } }
     let d := s.dev
     s.isRunning ∧ d.get Bar.VER_SLOT_STATE 0 14 = 2 ∧ d.walkDone (.retire 0 14) = true ∧
     d.coh.walks = [⟨.retire 0 14, false, [], false⟩] ∧ kvGet? d.ver.destroy 0 = none ∧ d.pool.jobs = [] ∧
     d.pool.leaving = [] ∧ d.coh.txns = [] ∧ d.coh.waiting = []) ∧
    ((ready fun d => d.set Bar.VER_RESULT_DONE 0 2).dev.flag Bar.VER_RESULT_DONE 2 = false ∧
     kvGet? (ready id).dev.ver.pubs 0 = none ∧ (ready id).dev.ver.creates = [] ∧ (ready id).dev.get Bar.VER_SLOT_STATE 0 14 ≠ 2) ∧
    ∀ cur ∈ [0, 2 ^ 32 - 1],
      let who : Caller := ⟨2, 0, 0, 0, 0⟩
      let s := ready fun d => { region0 cur 1 d with
        ver := { d.ver with pubs := [(0, (who, true))] }, coh := { d.coh with walks := [⟨.publish 0, true, [], false⟩] } }
      let d := s.dev
      s.isRunning ∧ d.ver.pubs = [(0, (who, true))] ∧ d.poolQuiet ∧ d.coh.waiting = [] ∧ d.coh.txns = [] ∧
      d.ver.waiting = [] ∧ d.ver.creates = [] ∧ d.coh.walks = [⟨.publish 0, true, [], false⟩] ∧ d.prefixSession 0 = none ∧
      d.inReset who.allot = false ∧ (∀ j, j < d.workPages 0 → d.pagePoisoned (d.workBase 0 + j) = false) ∧ d.nmus.cmds = [] ∧
      d.get Bar.VER_REGION_CUR_VERSION 0 = cur ∧ d.get Bar.VER_SLOT_OPENS 0 (d.get Bar.VER_REGION_CUR_SLOT 0) ≠ 0 ∧
      d.get Bar.VER_SLOT_STATE 0 0 = 0 ∧ d.get Bar.VER_REGION_CUR_SLOT 0 ≠ 0 ∧
      ∀ j, j < d.workPages 0 → ∀ k, k < d.workPages 0 → d.workBase 0 + j ≠ d.slotPage 0 0 + k := by
  simp only [State.isRunning, Dev.poolQuiet]
  refine ⟨?_, ?_, ?_⟩ <;> decide +kernel

/-- A request of endpoint 7 in progress with a continuation, and its answer. -/
def req (f : Frame) (c : Cont) : Req :=
  { f := f, port := .cluster 0, deadline := none, damaged := 0, retryNs := none, waitMap := none, naked := false, cont := c }
def asking (f : Frame) (c : Cont) (d : Dev) : Dev := { owned d with reqs := [(32768, req f c)] }
/-- A copy of core 0 from the pool to its scratchpad, of which no part is left to start. -/
def copy8 : Copy :=
  { core := 0, gen := 0, ctr := 1, pc := 0, kind := 0, allot := 0, src := 65536 * P, dst := 0, len := 8, cls := 0
    mcast := none, todo := [], ready := [], resent := [], ended := false, acked := [] }

/-- What an answer meets. -/
def Answers (s : State) (f : Frame) (t : Nat) (r : Req) : Prop :=
  s.isRunning ∧ f.type = t ∧ f.badTail = false ∧ s.dev.answers f ∧ s.dev.reqs = [(f.tag, r)] ∧ s.dev.mbr.pushes = [] ∧
  s.dev.eng.sends = [] ∧ s.dev.coh.tierQ = [] ∧ s.dev.pastBound r = false

/-- RequestsAndInvocationsComplete, the answers: an atomic's, with its NAK BUSY and its expiry, and those of a copy. -/
theorem hyp_answers :
    (let q := req (fr Ty.atomic 4 0 0 0 []) (.patom 0 0 1 0 8 0)
     let s := running (.nop U) (asking q.f q.cont)
     Answers s (fr Ty.readResp 5 0 0 0 (List.replicate 8 1)) Ty.readResp q ∧
     Answers s { fr Ty.nak 7 0 0 0 [] with status := Code.busy } Ty.nak q ∧ s.dev.copies = [] ∧ s.dev.holds 0 0 = true ∧
     readsData q.f = true) ∧
    (let q := { req (fr Ty.atomic 4 0 0 0 []) (.patom 0 0 1 0 8 0) with deadline := some 0 }
     let s := running (.nop U) fun d => { owned d with reqs := [(32768, q)] }
     s.dev.reqs = [(32768, q)] ∧ s.dev.mbr.pushes = [] ∧ s.dev.eng.sends = [] ∧ s.dev.coh.tierQ = [] ∧ s.dev.copies = [] ∧
     s.dev.holds 0 0 = true ∧ q.deadline = some 0 ∧ 0 ≤ s.dev.now) ∧
    (let q := req (fr Ty.copyData 0 0 0 0 (List.replicate 8 1)) (.chunk 0 [(0, 8)])
     let s := running (.nop U) fun d => { asking q.f q.cont d with copies := [(0, copy8)] }
     Answers s (fr Ty.writeAck 5 0 0 8 []) Ty.writeAck q ∧ Answers s (fr Ty.evictNotice 7 0 0 0 []) Ty.evictNotice q ∧
     s.dev.copies = [(0, copy8)] ∧ s.dev.holds 0 0 = true ∧ copy8.todo = [] ∧ copy8.ready = [] ∧ copy8.mcast = none ∧
     acks (fr Ty.writeAck 5 0 0 8 []) q = true ∧ copy8.ended = false ∧
     kvGetD copy8.resent 1 0 < s.dev.get Bar.LNK_MFP_CTL_COPY_RESEND_MAX ∧ s.dev.flag Bar.SEC_ALT_FAB_EN q.f.allot = false) ∧
    (let q := req (fr Ty.read 4 0 0 8 []) (.chunk 0 [(0, 8)])
     let f := { fr Ty.copyData 0 0 0 (copy8.ref * 65536) (List.replicate 8 1) with flags := 32 }
     let s := running (.nop U) fun d => { asking q.f q.cont d with copies := [(0, copy8)] }
     Answers s f Ty.copyData q ∧ Frame.copyFlag f = true ∧ s.dev.copies = [(0, copy8)] ∧ s.dev.holds 0 0 = true ∧
     readsData q.f = true ∧ copy8.ref = f.w7 / 65536 ∧ Frame.addr f = copy8.src + 0 ∧ f.len = 8 ∧ f.status = Code.ok ∧
     f.payload.length = 8) := by
  simp only [Answers, State.isRunning, Dev.answers]
  refine ⟨?_, ?_, ?_, ?_⟩ <;> decide +kernel

/-- Slot 0 holds an image of allotment 0 in cluster 0. -/
def slot0 (d : Dev) : Dev := (((owned d).set Bar.CLU_SLOT_VALID 1 0).set Bar.CLU_SLOT_CLUSTERS 1 0).set Bar.CLU_SLOT_LENGTH 2 0
/-- Core 0 in a state of an invocation. -/
def inInv (st : Nat) (arrived : List Nat) (d : Dev) : Dev :=
  { slot0 d with units := [(0, { UnitSt.idle with state := st, inv := some { inv0 with arrived := arrived } })] }

/-- RequestsAndInvocationsComplete, the invocations: an INVOKE of slot 0; core 0 that is not whole when its bound expires,
that is whole, whose run limit expires while it runs or drains, and that has drained. -/
theorem hyp_invocations :
    (let f := { fr Ty.invoke 4 0 0 0 (List.replicate 8 1) with w5 := 0 }
     let s := ready slot0
     let d := s.dev
     let l := d.arriveAt (spadPlace 0 (4096 * d.get Bar.CLU_SLOT_IN_OFFSET (invSlot f))) f.allot f.payload false
     s.isRunning ∧ f.type = Ty.invoke ∧ 0 = d.invokeCluster f ∧ d.passes (.cluster 0) f ∧ Frame.sess f = false ∧
     Frame.poisonBit f = false ∧ d.assembling 0 f = none ∧ d.flag Bar.CLU_SLOT_LOADING (invSlot f) = false ∧
     d.slotLegal (some 0) f = true ∧ invIdx f = 0 ∧ invLast f = 0 ∧ d.pickCore 0 f.allot = some 0 ∧ l.1 = f.payload.length) ∧
    (∀ p ∈ [(1, []), (1, [0]), (2, [0]), (3, [0])],
      let s := ready (inInv p.1 p.2)
      let d := s.dev
      s.isRunning ∧ (d.unit 0).state = p.1 ∧ (d.unit 0).inv = some { inv0 with arrived := p.2 } ∧
      Inv.whole { inv0 with arrived := p.2 } = (p.2 == [0]) ∧ inv0.sess = none ∧ (d.unit 0).wins = [] ∧ d.poolQuiet ∧
      d.flag Bar.CLU_SLOT_UNLOADING inv0.slot = false ∧ d.flag Bar.SEC_ALT_FAB_EN inv0.allot = false ∧
      inv0.deadline ≤ d.now ∧ (d.unit 0).final = none ∧ (d.unit 0).sesStatus = none ∧ d.outstanding 0 = false ∧
      d.spadTested 0 (d.unit 0).res.1 (d.unit 0).res.2 = false ∧
      (∀ b ∈ banksOf (spadPlace 0 (d.unit 0).res.1) (d.unit 0).res.2, d.bankCold b = false) ∧
      (d.unit 0).limit ≤ d.now) := by
  simp only [State.isRunning, Dev.passes, Dev.poolQuiet]
  refine ⟨?_, ?_⟩ <;> decide +kernel

/-- RequestsAndInvocationsComplete, the program slots: LOAD of an image of 65,536 instructions, its completion, UNLOAD. -/
theorem hyp_slots :
    (let s := ready fun d => ((pages32 d).set Bar.CLU_LOAD_ARG_ARG (65536 * 2 ^ 10 + 1023) 2 0).set Bar.CLU_LOAD_ARG_ARG (65536 * P) 2 1
     let d := s.dev
     let arg := d.get Bar.CLU_LOAD_ARG_ARG 2 0
     let len := clampTo 1 65536 (slice arg 26 10)
     s.isReady ∧ d.flag Bar.CLU_LOAD_RESULT_DONE 2 = true ∧ slice arg 9 0 = 1023 ∧ d.inReset (slice arg 63 56) = false ∧
     d.disabled (slice arg 63 56) = false ∧ d.slotBusy 1023 = false ∧ len = 65536 ∧
     d.loadSource (slice arg 63 56) (alignDown (d.get Bar.CLU_LOAD_ARG_ARG 2 1 % 2 ^ 56) 8) (8 * len) = true ∧
     d.storeRoom 1 (imageUnits len) = some 0) ∧
    (let s := ready fun d => { slot0 d with store := { d.store with loads := [(2, (0, 65536 * P))] } }
     s.isRunning ∧ s.dev.store.loads = [(2, (0, 65536 * P))] ∧ s.dev.coh.txns = [] ∧ s.dev.coh.dir = [] ∧
     s.dev.nmus.burst = [] ∧ s.dev.pool.flaws = [] ∧ maskList (s.dev.get Bar.CLU_SLOT_CLUSTERS 0) = [0]) ∧
    (let s := ready slot0
     s.isReady ∧ s.dev.flag Bar.CLU_LOAD_RESULT_DONE 2 = true ∧ slice (s.dev.get Bar.CLU_LOAD_ARG_ARG 2 0) 9 0 = 0 ∧
     s.dev.flag Bar.CLU_SLOT_VALID 0 = true ∧ s.dev.inReset (s.dev.get Bar.CLU_SLOT_OWNER 0) = false ∧
     s.dev.get Bar.CLU_SLOT_RUNNING 0 = 0) := by
  simp only [State.isRunning, State.isReady]
  refine ⟨?_, ?_, ?_⟩ <;> decide +kernel

/-- The other clauses of RequestsAndInvocationsComplete: frames of another type, an answer that no request waits for, a bound that
has not expired, units without an invocation or within their run limit, and a window that is not DONE. -/
theorem hyp_requests_otherwise :
    (let f := fr Ty.epoch 6 0 0 0 []
     f.type ≠ Ty.readResp ∧ f.type ≠ Ty.writeAck ∧ f.type ≠ Ty.copyData ∧ f.type ≠ Ty.evictNotice ∧ f.type ≠ Ty.nak ∧
     f.type ≠ Ty.invoke) ∧
    (let f := fr Ty.readResp 5 0 0 0 (List.replicate 8 1)
     let s := ready id
     s.isRunning ∧ s.dev.answers f ∧ kvGet? s.dev.reqs f.tag = none ∧ (s.dev.unit 255).inv = none ∧
     kvGet? s.dev.store.loads 2 = none) ∧
    (let q := { req (fr Ty.atomic 4 0 0 0 []) (.patom 0 0 1 0 8 0) with deadline := some 1 }
     let s := ready fun d => { d with reqs := [(32768, q)] }
     kvGet? s.dev.reqs 32768 = some q ∧ ∀ t, q.deadline = some t → s.dev.now < t) ∧
    (let s := ready fun d => { d with units := [(0, { UnitSt.idle with state := 2, limit := 1 })] }
     s.dev.now < (s.dev.unit 0).limit) ∧
    (ready fun d => d.set Bar.CLU_LOAD_RESULT_DONE 0 2).dev.flag Bar.CLU_LOAD_RESULT_DONE 2 = false := by
  simp only [State.isRunning, Dev.answers]
  refine ⟨?_, ?_, ⟨rfl, ?_⟩, ?_, ?_⟩
  · decide +kernel
  · decide +kernel
  · intro t h; injection h with h; subst h; decide +kernel
  all_goals decide +kernel

/-- Session 0's words in a STATE, mirrored by endpoint 7, with a prefix of no region. -/
def sesWords (state ep : Nat) : List Nat := ses0.set 0 (state * 2 ^ 61 + ses0.headD 0 % 2 ^ 60) |>.set 6 (ep * 2 ^ 48)
def wordsBytes (ws : List Nat) : List Nat := ws.flatMap fun w => (List.range 8).map fun i => w / 2 ^ (8 * i) % 256
/-- A push of endpoint 7 to the mirror session 0, with its PSEQ 1. -/
def push (kind w7 : Nat) (bs : List Nat) : Frame :=
  { fr Ty.write 4 0 0 w7 bs with w5 := kind * 2 ^ 28, w6 := 1, flags := 16 }
/-- A command of window 2 on session 0 with the words. -/
def sesCmd (ws : List Nat) (d : Dev) : Dev := ws.zipIdx.foldl (fun d e => d.set Bar.SES_ARG_WORD e.1 2 e.2) d

/-- SessionsAreCreatedMirroredAndClosed, CREATE of the session of `ses0`. -/
theorem hyp_session_create :
    let s := ready fun d => sesCmd ses0 (pages32 d)
    let d := s.dev
    let shaped := clampShape ((d.sesArg 2).zipWith (fun a b => a &&& b) namedMask)
    let ws := clampPlan (clampSizes 0 shaped)
    let words := putSes (deviceWords 1 (65536 * d.get Bar.MEM_OBJ_BASE_PAGE 0) ws) Ses.PREFIX_SLOT 0
    let entered : Dev := { d with sess := kvPut d.sess 0 (freshSess words) }
    s.isReady ∧ d.flag Bar.SES_RESULT_DONE 2 = true ∧ d.sesCmdId 2 = 0 ∧ slice ((d.sesArg 2).getD 0 0) 63 61 = 1 ∧
    getSes shaped Ses.ALLOT = 0 ∧ getSes shaped Ses.CACHE_OBJ = 0 ∧ d.inReset 0 = false ∧ d.disabled 0 = false ∧
    d.ses 0 Ses.STATE = 0 ∧ d.objValid 0 = true ∧ d.get Bar.MEM_OBJ_ALLOT 0 = 0 ∧ d.get Bar.MEM_OBJ_POLICY 0 < 2 ∧
    d.viewRegion 0 = none ∧ getSes shaped Ses.PREFIX_POS < 64 ∧
    entered.offU 0 + entered.sesLayers 0 * entered.sesKvh 0 * 2 * rungUnits 0 (entered.sesD 0) * 512 ≤ entered.objBytes 0 ∧
    getSes ws Ses.PREFIX_POS = 0 ∧ (d.rangesReady (SesW.layOut (entered, []) 0).2).1 = 0 := by
  simp only [State.isReady]; decide +kernel

/-- SessionsAreCreatedMirroredAndClosed, commands and records of session 0 in use, and its close; an ATTACH while core 0
runs a step, and its completion. -/
theorem hyp_session_commands :
    (let s := ready (session ses0)
     let d := s.dev
     s.isReady ∧ d.flag Bar.SES_RESULT_DONE 2 = true ∧ d.sesCmdId 2 = 0 ∧ kvGet? d.sess 0 = some (freshSess ses0) ∧
     (freshSess ses0).words.length = 8 ∧ d.inReset (d.ses 0 Ses.ALLOT) = false ∧ d.disabled (d.ses 0 Ses.ALLOT) = false ∧
     d.ses 0 Ses.STATE = 1 ∧ d.sesBusy 0 = false ∧ (freshSess ses0).frozen = false ∧ d.mbr.attaches = []) ∧
    (let r : PruneRec := ⟨7, 0, 0, [], []⟩
     let s := ready fun d => { pages32 d with sess := [(0, { freshSess ses0 with prunes := [r] })] }
     let d := s.dev
     s.isRunning ∧ d.rangesRead (d.recordReads 0 r) = (true, d) ∧ d.sesQuiet 0 = true ∧ (d.rangesReady (SesW.applyRecord (d, []) 0 r none).2.2.2).1 = 0 ∧
     d.ses 0 Ses.MIRROR_OK = 0) ∧
    (let s := ready (session (sesWords 4 0))
     let d := s.dev
     s.isRunning ∧ kvGet? d.sess 0 = some (freshSess (sesWords 4 0)) ∧ (sesWords 4 0).length = 8 ∧ d.ses 0 Ses.STATE = 4 ∧
     d.sesBusy 0 = false ∧ d.sesQuiet 0 = true ∧ d.ses 0 Ses.MIRROR_OK = 0 ∧ d.ses 0 Ses.PREFIX_POS = 0) ∧
    (let s := ready fun d => ((({ session ses0 d with
        units := [(0, { UnitSt.idle with state := 2, inv := some { inv0 with sess := some 0 } })] }.set
        Bar.MBR_ATT_ARG_MIRROR_EP 7 2).set Bar.MBR_MEMBER_VALID 1 1023).set Bar.MBR_MEMBER_IN 1 1023).set Bar.MBR_MEMBER_ENDPOINT 7 1023 |>.set Bar.MBR_MEMBER_DOMAIN 1 1023
     let d := s.dev
     s.isReady ∧ d.get Bar.MBR_ATT_ARG_SESSION 2 = 0 ∧ d.get Bar.MBR_ATT_ARG_MIRROR_EP 2 = 7 ∧
     d.flag Bar.MBR_ATT_RESULT_DONE 2 = true ∧ d.isFenced = false ∧ kvGet? d.sess 0 = some (freshSess ses0) ∧
     d.inReset (d.ses 0 Ses.ALLOT) = false ∧ d.disabled (d.ses 0 Ses.ALLOT) = false ∧ d.ses 0 Ses.STATE = 1 ∧
     d.memberIn 7 = true ∧ 7 ≠ d.myEp ∧ d.memIdx 7 = some 1023 ∧
     d.get Bar.MBR_MEMBER_DOMAIN 1023 ≠ d.get Bar.MBR_ID_FAILURE_DOMAIN ∧ d.mbr.attaches = [] ∧ d.atBoundary 0 = false) ∧
    (let a : Attach := ⟨0, 65535, 65535, [], 0, 0, 3⟩
     let s := ready fun d => { session ses0 d with mbr := { d.mbr with attaches := [(2, a)] } }
     let d := s.dev
     s.isRunning ∧ d.mbr.attaches = [(2, a)] ∧ kvGet? d.sess 0 = some (freshSess ses0) ∧ d.ses 0 Ses.MIRROR_OK = 0 ∧
     d.ses 0 Ses.MIRROR_EP = 0 ∧ d.ses 0 Ses.MIRROR_SESSION = 0) := by
  simp only [State.isReady, State.isRunning]
  refine ⟨?_, ?_, ?_, ?_, ?_⟩ <;> decide +kernel

/-- SessionsAreCreatedMirroredAndClosed, the mirror: a push of each kind, in turn. -/
theorem hyp_session_pushes :
    let s := ready fun d => { pages32 d with sess := [(0, { freshSess (sesWords 2 7) with expect := 1 })] }
    let d := s.dev
    let took (f : Frame) : Dev := (d.taken f).modSess 0 fun x => { x with frags := [f] }
    (∀ f ∈ [push 1 0 (List.replicate 272 0), push 2 0 (List.replicate 16 0), push 3 0 [], push 4 0 (List.replicate 4096 0),
        push 5 0 (wordsBytes (sesWords 2 7))],
      s.isRunning ∧ isPush f = true ∧ f.w5 % 65536 = 0 ∧ d.passes (.memSide (sesDie 0)) f ∧
      (kvGet? d.sess 0).map Sess.expect = some f.w6 ∧ d.ses 0 Ses.ALLOT = f.allot ∧ d.ses 0 Ses.STATE = 2 ∧
      d.ses 0 Ses.MIRROR_EP = f.srcEp ∧ f.w6 ≠ 0 ∧ pushLast f = 0 ∧ pushIdx f = 0 ∧
      d.flag Bar.SEC_ALT_FAB_EN f.allot = false ∧ d.ses 0 Ses.PREFIX_POS = 0) ∧
    (let f := push 1 0 (List.replicate 272 0)
     f.w5 >>> 28 % 16 = 1 ∧ ((took f).mirrorRow 0 f.payload).1.map (fun x => (x.1, x.2.flag Bar.SEC_ALT_FAB_EN f.allot)) = some (Code.ok, false)) ∧
    (let f := push 2 0 (List.replicate 16 0)
     f.w5 >>> 28 % 16 = 2 ∧ ((took f).mirrorRecord 0 f.payload).1.map (fun x => (x.1, x.2.flag Bar.SEC_ALT_FAB_EN f.allot)) = some (Code.ok, false)) ∧
    (let f := push 4 0 (List.replicate 4096 0)
     f.w5 >>> 28 % 16 = 4 ∧ ((took f).mirrorCopy 0 (f.w7 % 2 ^ 28) f.payload (Frame.poisonBit f)).1.map
       (fun x => (x.1, x.2.flag Bar.SEC_ALT_FAB_EN f.allot)) = some (Code.ok, false)) ∧
    (let f := push 5 0 (wordsBytes (sesWords 2 7))
     let pw := (List.range 8).map fun i => leNat ((f.payload.drop (8 * i)).take 8)
     f.payload.length = 64 ∧ slice (pw.getD 0 0) 51 28 = slice (d.sesWord 0 0) 51 28 ∧
     getSes pw Ses.CAP_POS = d.ses 0 Ses.CAP_POS ∧ pw.getD 4 0 = d.sesWord 0 4 ∧ pw.getD 5 0 = d.sesWord 0 5) := by
  simp only [State.isRunning, Dev.passes]
  refine ⟨?_, ?_, ?_, ?_, ?_⟩ <;> decide +kernel

/-- The other clauses of SessionsAreCreatedMirroredAndClosed: a window that is not DONE, no entry, and a frame that is no push. -/
theorem hyp_sessions_otherwise :
    (let s := ready fun d => (d.set Bar.SES_RESULT_DONE 0 2).set Bar.MBR_ATT_RESULT_DONE 0 2
     s.dev.flag Bar.SES_RESULT_DONE 2 = false ∧ s.dev.flag Bar.MBR_ATT_RESULT_DONE 2 = false ∧ s.dev.sesn 0 = none ∧
     s.dev.ses 0 Ses.STATE ≠ 4 ∧ kvGet? s.dev.mbr.attaches 2 = none ∧ (s.dev.sesn 0 = none ∨ s.dev.inReset 0 = false)) ∧
    isPush (fr Ty.write 4 0 0 0 []) = false := by
  decide +kernel

/-- Group 4095 of two members, whose accumulator of two FP32 lies in bank 0 of cluster 0. -/
def group (state : Nat) (d : Dev) : Dev :=
  let d1 := (((d.set Bar.RKS_GRP_VALID 1 4095).set Bar.RKS_GRP_MEMBERS_M1 1 4095).set Bar.RKS_GRP_LEN 2 4095).set Bar.RKS_GRP_ACC_BASE (2 ^ 24) 4095
  let d2 := ((d1.set Bar.CLU_BANK_ASSIGN 1 0 0).set Bar.CLU_BANK_STATE 1 0 0).set Bar.RKS_GRP_STAT_STATE state 4095
  d2.set Bar.RKS_GRP_ROUND_TIMEOUT_US 1 4095
def inRound (d : Dev) : Dev :=
  { group 1 d with now := 1000, eng := { d.eng with rounds := [(4095, ⟨[], [], [], 1, false, 0⟩)] } }
def descOf (ws : List Nat) : Desc := { desc0 0 with words := ws }

/-- EnginesViewsAndGroups: a disabled and a valid entry; a group without a round and with one that has run its time; the
first partial; the last row of a gather; a Sieve that counts. -/
theorem hyp_engines_views_groups :
    ((ready id).isReady ∧ (ready id).dev.flag Bar.EXP_EGR_VALID 63 = false ∧ (ready id).dev.flag Bar.RKS_GRP_VALID 4095 = false) ∧
    ((ready fun d => d.set Bar.EXP_EGR_VALID 1 63).isReady ∧ (ready fun d => d.set Bar.EXP_EGR_VALID 1 63).dev.flag Bar.EXP_EGR_VALID 63 = true) ∧
    (let s := ready (group 0)
     let d := s.dev
     let f := { fr Ty.reducePart 4 0 0 8 (List.replicate 8 0) with w5 := 4095 }
     s.isReady ∧ s.isRunning ∧ d.flag Bar.RKS_GRP_VALID 4095 = true ∧ d.eng.rounds = [] ∧ d.eng.parts = [] ∧ d.eng.sends = [] ∧
     f.type = Ty.reducePart ∧ d.passes (d.localPort 0 f) f ∧ f.w5 < 2 ^ 31 ∧ partGroup f = 4095 ∧
     d.grpMember 4095 f.allot (partMember f) = true ∧ 2 ≤ d.grpMembers 4095 ∧ f.srcEp ≠ d.myEp ∧ partIdx f = 0 ∧
     f.payload.length = partTotal f ∧ partTotal f / Red.elemBytes (d.get Bar.RKS_GRP_DTYPE 4095) * Red.elemBytes (d.get Bar.RKS_GRP_DTYPE 4095) = partTotal f ∧
     0 < partTotal f / Red.elemBytes (d.get Bar.RKS_GRP_DTYPE 4095) ∧
     partTotal f / Red.elemBytes (d.get Bar.RKS_GRP_DTYPE 4095) ≤ d.get Bar.RKS_GRP_LEN 4095 ∧ d.accOk 4095 = true ∧
     d.reduceTested f = false ∧ d.accTested 4095 = false ∧ d.banks.bank = [] ∧ d.flag Bar.SEC_ALT_FAB_EN f.allot = false) ∧
    (let s := ready inRound
     let d := s.dev
     s.isReady ∧ s.isRunning ∧ d.flag Bar.RKS_GRP_VALID 4095 = true ∧ kvGet? d.eng.rounds 4095 = some ⟨[], [], [], 1, false, 0⟩ ∧
     d.eng.parts = [] ∧ d.eng.sends = [] ∧ d.grpState 4095 = 1 ∧ d.get Bar.RKS_GRP_ROUND_TIMEOUT_US 4095 ≠ 0 ∧
     0 + 1000 * d.get Bar.RKS_GRP_ROUND_TIMEOUT_US 4095 ≤ d.now) ∧
    (let x := descOf [16, 1, 0, 1280, 0, 0, 0, 0]
     let s := running (.nop U) fun d => { owned (pooled d) with eng := { d.eng with rake := [(0, [x])] } }
     let d := s.dev
     let a := Rake.poolAt x x.row
     s.isRunning ∧ d.holds x.core x.gen = true ∧ d.eng.rake = [(0, [x])] ∧ Rake.gather x = true ∧ Rake.idxKind x = 0 ∧
     Rake.count x = x.row + 1 ∧ d.reqs = [] ∧ a % 4096 + Rake.row x ≤ 4096 ∧ d.homed a = .here ∧
     d.poolOk x.allot a (Rake.row x) = true ∧ d.mayReadHere x.allot a (Rake.row x) = true ∧
     d.rangePoisoned a (Rake.row x) = false ∧ d.readyRead a (Rake.row x) = (true, d) ∧
     d.spadOk x.core (Rake.spadAt x x.row) (Rake.srow x) = true) ∧
    (let x := descOf [2 ^ 25, 16, 1, 0, 1280, 0, 0, 1]
     let s := running (.nop U) fun d => { owned (pooled d) with eng := { d.eng with sieve := [(0, [x])] } }
     let d := s.dev
     s.isRunning ∧ d.holds x.core x.gen = true ∧ d.eng.sieve = [(0, [x])] ∧ d.sieveWaits x = false ∧
     d.meetLines (linesOf (Sieve.src x) (Sieve.count x * Sieve.record x)) = d ∧ Sieve.out x = 0 ∧ Sieve.inPool x = true ∧
     Sieve.score x ≠ 1 ∧ Sieve.score x ≠ 2 ∧ d.spansHost (Sieve.src x) (Sieve.count x * Sieve.record x) = true ∧
     d.inObjects x.allot (Sieve.src x) (Sieve.count x * Sieve.record x) = true ∧
     (∀ y ∈ d.sieveRecords x, y.2 = false) ∧ d.spadOk x.core (Sieve.outa x) 16 = true) := by
  simp only [State.isRunning, State.isReady, Dev.passes]
  refine ⟨?_, ?_, ?_, ?_, ?_, ?_⟩ <;> decide +kernel

/-- The package in READY at a LIFECYCLE. -/
def atLife (l : Nat) (f : Dev → Dev) : State := { ready f with fuses := { (ready f).fuses with lifecycle := l } }
/-- The session of tenant 255's owner in PF0's mailbox; its active slot B in a STATE. -/
def ownerOf (st other : Nat) (d : Dev) : Dev :=
  let d1 := ((({ d with sec := { d.sec with spdm := [(3, ⟨0, true, 0, 77, 0⟩)], idKey := true } }.set Bar.SEC_ALT_OWNER_DIGEST 77 255).set
    Bar.ALT_CFG_STATE 1 255).set Bar.SEC_ALT_ACT_SLOT 1 255)
  (d1.set Bar.SEC_ALT_B_STATE st 255).set Bar.SEC_ALT_A_STATE other 255

/-- LifecycleRemovalAndKeys: DEPLOY and RETURN by PF0 and by an Iferic session of role OWNER, the fills' end, removals,
credential slot 15 free and programmed, and the owner's key requests with slot A in each STATE. -/
theorem hyp_lifecycle :
    (∀ l ∈ [1, 2], (atLife l id).isReady ∧ (atLife l id).fuses.lifecycle = l) ∧
    (let v := 0x72900000 + 2 * 2 ^ 10 + 2 ^ 9
     let w := 0xA5A50000 + 3 * 2 ^ 10 + 2 ^ 9
     v.testBit 9 = true ∧ slice v 11 10 = 2 ∧ slice v 31 16 = 0x7290 ∧ w.testBit 9 = true ∧ slice w 11 10 = 3 ∧
     slice w 31 16 = 0xA5A5) ∧
    (let s := atLife 1 fun d => { d with sec := { d.sec with ifr := [(3, ⟨1, 2, 15, 2, [], 0, 0, 0⟩)], fills := true } }
     s.isReady ∧ s.isRunning ∧ kvGet? s.dev.sec.ifr 3 = some ⟨1, 2, 15, 2, [], 0, 0, 0⟩ ∧ s.dev.sec.fills = true ∧
     ∀ t, t < 256 → t ≠ 0 → s.dev.altState t = 0) ∧
    (let s := ready ending
     s.isReady ∧ writesAsPf0 .pf0 = true ∧ s.dev.flag Bar.SEC_KEY_CMD_DONE = true ∧ s.dev.altState 255 = 1 ∧
     s.dev.validGroups = [] ∧ ∃ u i, s.dev.units = [(255, u)] ∧ u.state = 3 ∧ u.final.isSome = true ∧ u.inv = some i ∧ i.allot = 255) ∧
    ((atLife 1 id).isReady ∧ kvGet? (atLife 1 id).fuses.creds 15 = none) ∧
    (let s := { atLife 1 id with fuses := { (atLife 1 id).fuses with creds := [(15, ⟨true, false, 2, 9⟩)] } }
     s.isReady ∧ kvGet? s.fuses.creds 15 = some ⟨true, false, 2, 9⟩) ∧
    (∀ p ∈ [(2, 1), (2, 0), (0, 0)],
      let s := atLife 1 (ownerOf p.1 p.2)
      let d := s.dev
      let via : SpdmVia := .doe (some 3)
      s.isRunning ∧ d.spdmWaits via = true ∧ s.fuses.lifecycle ≠ 0 ∧ s.fuses.lifecycle ≠ 3 ∧ d.ownerSession via 255 = true ∧
      d.altState 255 = 1 ∧ d.flag Bar.SEC_ALT_REMOVED 255 = false ∧ d.sec.idKey = true ∧ d.get Bar.SEC_ALT_ACT_SLOT 255 = 1 ∧
      d.keyState 255 1 = p.1 ∧ d.keyState 255 0 = p.2) := by
  simp only [State.isRunning, State.isReady]
  refine ⟨?_, ?_, ?_, ⟨?_, ?_, ?_, ?_, ?_, ⟨_, _, rfl, rfl, rfl, rfl, rfl⟩⟩, ?_, ?_, ?_⟩ <;> decide +kernel

/-- SpdmRequestsAreAnswered: requests through either mailbox, with 15 sessions and 16, an idle and a full sign engine, with
and without the identity key; an open and an unopened session; a signature; and an answer 10 s old. -/
theorem hyp_spdm :
    (∀ via ∈ [SpdmVia.doe none, .fabric 7 none], ∀ n ∈ [15, 16], ∀ m ∈ [8, 9], ∀ k ∈ [true, false],
      let s := atLife 1 fun d => { d.set Bar.ALT_CFG_STATE 1 255 with sec := { d.sec with
        mailbox := [(7, { frags := [(0, List.replicate 8 0)], total := some 0, answer := none, since := 0 })]
        spdm := (List.range n).map fun i => (i, ⟨0, true, 0, 0, 0⟩)
        signing := List.replicate m (.report (.doe none) 0 []), idKey := k } }
      let d := s.dev
      s.isRunning ∧ d.spdmWaits via = true ∧ s.fuses.lifecycle ≠ 0 ∧ viaSession via = none ∧ d.signFull = (m == 9) ∧
      d.sec.idKey = k ∧ d.sec.spdm.length = n ∧ d.altState 255 = 1 ∧ d.reportAllowed via 255 = (via == .doe none) ∧
      (kvGetD d.sec.chunks (viaKey via) []).length = 0) ∧
    (∀ o ∈ [true, false],
      let via : SpdmVia := .doe (some 3)
      let s := atLife 1 fun d => { d with sec := { d.sec with spdm := [(3, ⟨0, o, 0, 77, 0⟩)] } }
      s.isRunning ∧ s.dev.spdmWaits via = true ∧ s.fuses.lifecycle ≠ 0 ∧ (s.dev.spdmSession via).isSome = true ∧
      s.dev.spdmSession via = some (3, ⟨0, o, 0, 77, 0⟩)) ∧
    (let s := ready fun d => { d with sec := { d.sec with chunks := [(0, List.replicate 4097 0)], signing := [.report (.doe none) 0 []] } }
     s.isRunning ∧ s.dev.sec.signing = [.report (.doe none) 0 []] ∧ 4096 * 1 < (kvGetD s.dev.sec.chunks 0 []).length) ∧
    (let m : Mbox := { frags := [], total := none, answer := some [], since := 0 }
     let s := ready fun d => { d with now := 10000000000, sec := { d.sec with mailbox := [(65535, m)] } }
     s.isRunning ∧ kvGet? s.dev.sec.mailbox 65535 = some m ∧ m.answer.isSome = true ∧ m.since + 10000000000 ≤ s.dev.now) := by
  simp only [State.isRunning]
  refine ⟨?_, ?_, ?_, ?_⟩ <;> decide +kernel

/-! ### What the statements say of the commands that find nothing to do -/

/-- EnginesViewsAndGroups and LifecycleRemovalAndKeys: no round, no descriptor, an accumulator under test, a frame of another
type; a lifecycle write of a VF, no fills, and key requests that are refused. -/
theorem hyp_engines_otherwise :
    (let s := ready id
     s.isReady ∧ s.dev.flag Bar.RKS_GRP_VALID 4095 = false ∧ kvGet? s.dev.eng.rounds 4095 = none ∧ s.dev.rakes 15 = [] ∧
     s.dev.sieves 15 = [] ∧ s.dev.sec.fills = false ∧ s.dev.spdmWaits (.doe none) = true ∧ kvGet? s.fuses.creds 15 = none) ∧
    (let s := ready fun d => { group 0 d with banks := { (group 0 d).banks with tbt := some (.cluster 0 0, 0) } }
     s.dev.reduceTested { fr Ty.reducePart 4 0 0 8 (List.replicate 8 0) with w5 := 4095 } = true) ∧
    (∀ b ∈ [0, 7], slice (2 ^ 9 + b) 11 10 = 0) ∧ writesAsPf0 (.vf 1) = false ∧
    (on id).dev.spdmWaits (.fabric 7 none) = false ∧
    (let s := ready id
     let via : SpdmVia := .doe (some 3)
     s.isRunning ∧ s.dev.spdmWaits via = true ∧ (viaSession via).isSome = true ∧ s.dev.spdmSession via = none) ∧
    (let s := atLife 1 fun d => { d with sec := { d.sec with spdm := [(3, ⟨0, true, 0, 78, 0⟩)] } }
     let via : SpdmVia := .doe (some 3)
     s.dev.spdmWaits via = true ∧ s.fuses.lifecycle ≠ 0 ∧ (s.dev.spdmSession via).isSome = true ∧
     s.dev.ownerSession via 255 = false) := by
  simp only [State.isReady, State.isRunning]; decide +kernel

/-- SpdmRequestsAreAnswered: measurement indices, sessions of the mailboxes, chunks, and answers that stay. -/
theorem hyp_spdm_otherwise :
    (let d := (ready id).dev
     (∀ n ∈ [0, 1, 6, 255], (d.measBlocks n).isSome = true) ∧ d.measBlocks 7 = none ∧ d.measBlocks 254 = none ∧
     d.sec.signing = [] ∧ kvGet? d.sec.mailbox 65535 = none ∧ d.altState 255 ≠ 1 ∧ d.reportAllowed (.doe none) 255 = true ∧
     d.reportAllowed (.fabric 7 none) 255 = false ∧ viaSession (.doe none) = none ∧
     (kvGetD d.sec.chunks (viaKey (.doe none)) []).length ≤ 4096 * 0 ∧
     65536 < ([] ++ List.replicate 65537 (0 : Byte)).length) ∧
    (let m : Mbox := { frags := [], total := none, answer := some [], since := 0 }
     let s := ready fun d => { d with now := 9999999999, sec := { d.sec with mailbox := [(65535, m)] } }
     kvGet? s.dev.sec.mailbox 65535 = some m ∧ s.dev.now < m.since + 10000000000) := by
  decide +kernel

/-- Session 3 of Iferic, opened with a role, with SEQ 63 seen. -/
def ifr (role phase : Nat) (d : Dev) : Dev :=
  { d with sec := { d.sec with ifr := [(3, ⟨1, phase, 15, role, [63], 0, 0, 0⟩)], idKey := true } }

/-- IfericSessionsAndCommands: a HELLO with a free number and with none; AUTH; both expiries and one nanosecond before; a
SEQ seen and the last of the window; each role, in READY and before; a reload in progress; credential slot 15 free and
programmed; and the sign engine idle and full. -/
theorem hyp_iferic :
    (let s := ready fun d => { (d.set Bar.MGT_LANE_LINK 1 1).set Bar.SEC_STATUS_ID_READY 1 with sec := { d.sec with
       ifr := (List.range 3).map fun i => (i, ⟨1, 2, 15, 2, [], 0, 0, 0⟩) } }
     s.isServing ∧ kvFree s.dev.sec.ifr 4 = some 3 ∧ s.dev.flag Bar.MGT_LANE_LINK 1 = true ∧
     s.dev.flag Bar.SEC_STATUS_ID_READY = true ∧ s.dev.signFull = false) ∧
    (let s := ready fun d => { d with sec := { d.sec with ifr := (List.range 4).map fun i => (i, ⟨1, 2, 15, 2, [], 0, 0, 0⟩) } }
     s.isServing ∧ kvFree s.dev.sec.ifr 4 = none) ∧
    (∀ p ∈ [1, 2],
      let s := ready (ifr 0 p)
      s.isServing ∧ s.isRunning ∧ kvGet? s.dev.sec.ifr 3 = some ⟨1, p, 15, 0, [63], 0, 0, 0⟩ ∧ 0 ≤ s.dev.now) ∧
    (let s := ready fun d => { d with sec := { d.sec with ifr := [(3, ⟨1, 2, 15, 2, [], 0, 0, 1⟩)] } }
     s.isRunning ∧ kvGet? s.dev.sec.ifr 3 = some ⟨1, 2, 15, 2, [], 0, 0, 1⟩ ∧ s.dev.now < 1) ∧
    seqFresh [63] 63 = false ∧ seqFresh [63] 126 = true ∧ 8388608 - 1 ≤ 8388608 ∧ 1 ≤ ifrMost ∧
    (∀ r ∈ [0, 1, 2], ∀ dn ∈ [0, 1],
      let s := atLife 1 fun d => (ifr r 2 d).set Bar.GEN_FW_STATUS_DONE dn
      s.isServing ∧ kvGet? s.dev.sec.ifr 3 = some ⟨1, 2, 15, r, [63], 0, 0, 0⟩ ∧ s.dev.ready = true ∧
      s.dev.flag Bar.GEN_FW_STATUS_DONE = (dn == 1) ∧ kvGet? s.fuses.creds 15 = none ∧ s.fuses.lifecycle = 1 ∧
      s.dev.altState 0 = 1 ∧ s.dev.signFull = false ∧ s.dev.sec.idKey = true) ∧
    (let s := ready fun d => (ifr 2 2 d).set Bar.GEN_BOOT_STAGE 5
     s.isServing ∧ kvGet? s.dev.sec.ifr 3 = some ⟨1, 2, 15, 2, [63], 0, 0, 0⟩ ∧ s.dev.ready = false) ∧
    (let s := { ready (ifr 2 2) with fuses := { (ready id).fuses with creds := [(15, ⟨true, false, 2, 9⟩)] } }
     s.isServing ∧ kvGet? s.fuses.creds 15 = some ⟨true, false, 2, 9⟩ ∧ s.dev.ready = true) ∧
    (let s := ready fun d => { ifr 0 2 d with sec := { (ifr 0 2 d).sec with signing := List.replicate 9 (.ifrReport 3 0 []) } }
     s.isServing ∧ s.dev.altState 0 = 1 ∧ s.dev.signFull = true) := by
  simp only [State.isServing, State.isRunning]
  refine ⟨?_, ?_, ?_, ?_, ?_, ?_, ?_, ?_, ?_, ?_, ?_, ?_⟩ <;> decide +kernel

/-- Slots 0, 1 and 2 are voters and IN, at endpoints 5, 7 and 8; this package, at endpoint 5 + self, is a member. -/
def members (self : Nat) (d : Dev) : Dev :=
  let d1 := [(0, 5), (1, 7), (2, 8)].foldl (fun (d : Dev) e => (((d.set Bar.MBR_MEMBER_VALID 1 e.1).set Bar.MBR_MEMBER_IN 1 e.1).set
    Bar.MBR_MEMBER_VOTER 1 e.1).set Bar.MBR_MEMBER_ENDPOINT e.2 e.1) d
  let d2 := ((d1.set Bar.MBR_STATUS_STATE 1).set Bar.MBR_STATUS_FORMED 1).set Bar.MBR_ID_SELF self
  (d2.set Bar.LNK_MFP_ID_ENDPOINT (if self = 0 then 5 else 8)).set Bar.MBR_MEMBER_WATCH 1 1
def epoch (kind w6 w7 : Nat) (bs : List Byte) : Frame :=
  { fr Ty.epoch 7 0 0 w7 [] with w5 := kind * 2 ^ 28, w6 := w6, len := bs.length, payload := bs }
/-- A frame of EPOCH that is taken. -/
def Good (s : State) (f : Frame) (kind : Nat) : Prop :=
  s.isRunning ∧ f.type = Ty.epoch ∧ f.w5 >>> 28 % 16 = kind ∧ s.dev.inTurn f = true ∧ f.badTail = false ∧ f.payload.length = f.len ∧
  f.len ≤ 4096 ∧ s.dev.isFenced = false ∧ f.mbrEpoch = s.dev.mbrEpoch
def Quiet (d : Dev) : Prop :=
  d.sess = [] ∧ d.mbr.attaches = [] ∧ d.homeIdle ∧ d.units = [] ∧ ∀ k, k < 1024 → d.flag Bar.MEM_LEND_VALID k = false
def leader (d : Dev) : Prop := d.isMember = true ∧ d.isCoordinator = true ∧ d.formed = true ∧ d.quorum [d.selfIdx] = false

/-- MembershipDecidesEpochs, heartbeats, suspicion and proposals at the coordinator and at another member. -/
theorem hyp_membership :
    (let s := ready fun d => { members 0 d with now := 2 ^ 40 }
     let f := fr Ty.heartbeat 7 0 0 0 []
     s.isRunning ∧ f.type = Ty.heartbeat ∧ s.dev.passes (.memSide 0) f ∧ s.dev.memIdx f.srcEp = some 1 ∧
     leader s.dev ∧ s.dev.mbr.hbWin ≤ s.dev.now ∧ s.dev.silent 1 = true ∧ (s.dev.set Bar.MBR_MEMBER_DEAD 1 1).isCoordinator = true ∧
     s.dev.mbr.own = none ∧ Good s (epoch 1 0 0 []) 1 ∧ s.dev.memberIn 7 = true ∧
     Good s (epoch 2 1 0 []) 2 ∧ s.dev.memVoter 0 = true ∧ newer 1 s.dev.mbrEpoch = true ∧ newer 0 s.dev.mbrEpoch = false ∧
     s.dev.lastAccepted = none ∧ s.dev.mbr.joiners = []) ∧
    (let s := ready fun d => { (members 0 d).set Bar.MBR_STATUS_FORMED 0 with now := 2 ^ 40 }
     s.isRunning ∧ s.dev.silent 1 = true ∧ s.dev.isMember = true ∧ s.dev.formed = false ∧
     (s.dev.set Bar.MBR_MEMBER_DEAD 1 1).isCoordinator = true) ∧
    (let s := ready fun d => { members 2 d with now := 2 ^ 40 }
     s.isRunning ∧ s.dev.silent 1 = true ∧ s.dev.isMember = true ∧ (s.dev.set Bar.MBR_MEMBER_DEAD 1 1).coordinator = some 0 ∧
     0 ≠ s.dev.selfIdx ∧ s.dev.isCoordinator = false ∧ Good s (epoch 1 0 0 []) 1 ∧ Good s (epoch 6 0 0 []) 6 ∧
     s.dev.memberIn 7 = true ∧ s.dev.coordinator = some 0) := by
  simp only [leader, Good, State.isRunning, Dev.passes]
  refine ⟨?_, ?_, ?_⟩ <;> decide +kernel

/-- MembershipDecidesEpochs, a proposal of the coordinator: short of the quorum and at it, turned down, expired; a COMMIT that
lists this package, one that does not, an old one; JOIN of an unknown and of a known endpoint; FETCH; deadlines; FOUND,
JOIN and REJOIN. -/
theorem hyp_epochs :
    (let p : Proposal := ⟨1, 0, [65536 + 5, 65536 + 7, 65536 + 8], [0], 0⟩
     let s := ready fun d => { members 0 d with
       now := 2 ^ 40, mbr := { d.mbr with own := some p, decideEnd := some 0, commit := some (5 * 2 ^ 28, 0, 0, []) } }
     let d := s.dev
     (Good s (epoch 3 1 0 []) 3 ∧ d.mbr.own = some p ∧ d.memIdx 7 = some 1 ∧ d.memVoter 1 = true ∧ 1 ∉ p.accepts ∧
     d.formed = true ∧ d.quorum (p.accepts ++ [1]) = true ∧ Quiet d) ∧ (newer p.epoch d.mbrEpoch = true ∧
     listsEp (listOf (listBytes p.list)) d.myEp = true ∧ Good s (epoch 4 0 0 []) 4 ∧ d.isAlone = false ∧
     p.since + 1000 * d.timer Bar.MBR_CFG_PHASE_US ≤ d.now) ∧ (leader d ∧ d.mbr.decideEnd = some 0 ∧ d.isFenced = false) ∧
     (Good s (epoch 5 1 0 (listBytes p.list)) 5 ∧ listsEp (listOf (listBytes [7])) d.myEp = false ∧ newer 0 d.mbrEpoch = false) ∧
     Good s (epoch 7 0 0 []) 7 ∧ d.mbr.commit = some (5 * 2 ^ 28, 0, 0, []) ∧
     Good s { epoch 6 0 0 [] with w5 := 6 * 2 ^ 28 + 9 } 6 ∧ d.memIdx 9 = none ∧
     Good s { epoch 6 0 0 [] with w5 := 6 * 2 ^ 28 + 7 } 6) ∧
    (let p : Proposal := ⟨1, 1, [], [], 0⟩
     let s := ready fun d => { members 0 d with mbr := { d.mbr with own := some p } }
     s.dev.mbr.own = some p ∧ s.dev.quorum (p.accepts ++ [1]) = false ∧ (0 : Nat) % 1024 < p.coord) ∧
    (let s := ready fun d => { d.set Bar.MBR_STATUS_TESTED 1 with mbr := { d.mbr with joining := some 0 } }
     s.isReady ∧ s.isRunning ∧ s.dev.isAlone = true ∧ s.dev.mbrEpoch = 0 ∧ Quiet s.dev ∧ s.dev.flag Bar.MBR_STATUS_TESTED = true ∧
     s.dev.mbr.joining = some 0 ∧ Good s (epoch 4 0 0 []) 4) ∧
    (let s := ready fun d => d.set Bar.MBR_STATUS_STATE 2
     s.isReady ∧ s.dev.isFenced = true ∧ s.dev.sess = []) := by
  simp only [leader, Good, Quiet, State.isReady, State.isRunning, Dev.homeIdle]
  refine ⟨⟨?_, ?_, ?_, ?_, ?_⟩, ?_, ?_, ?_⟩ <;> decide +kernel

/-- An event and its repeat window. -/
def event (rep : Bool) : AlmEvent :=
  { block := Blk.mem, code := 1, unit := 0, allot := 0, status := 0, opNs := 5, calNs := 0, cal := false, rep := rep, count := 0, detail := 0 }
def window (n : Nat) : RepWin := ⟨event false, 6, n, 0, 0, 0, 0⟩

/-- AlmanacWeedingAndCalibration, the Almanac: an event with no window, at a full Almanac and in its window; windows with and
without repeats; everything due. -/
theorem hyp_almanac :
    (∀ p ∈ [([], 0), ([], 1), ([window 0], 0)],
      let s := ready fun d => { d.set Bar.ALM_STATUS_FULL p.2 with alm := { d.alm with inq := [event false], wins := p.1 } }
      let d := s.dev
      s.isRunning ∧ d.almRuns = true ∧ d.alm.inq = [event false] ∧ d.flag Bar.ALM_STATUS_ERASING = false ∧ d.alm.wins = p.1 ∧
      d.flag Bar.ALM_STATUS_FULL = (p.2 == 1) ∧ d.get Bar.ALM_STATUS_NEXT < recSlots ∧
      sameEvent (window 0).key (event false) = true ∧ (event false).opNs < (window 0).endNs) ∧
    (∀ n ∈ [0, 1],
      let s := ready fun d => { d with now := 6, alm := { d.alm with wins := [window n] } }
      let d := s.dev
      s.isReady ∧ s.isRunning ∧ d.alm.wins = [window n] ∧ (window n).endNs ≤ d.opNow ∧ d.alm.inq = [] ∧
      d.flag Bar.ALM_STATUS_FULL = false ∧ d.flag Bar.ALM_STATUS_ERASING = false ∧ d.get Bar.ALM_STATUS_NEXT < recSlots ∧
      d.almRuns = true ∧ d.alm.ckptDue ≤ d.now ∧ d.alm.ckptNext < 1024 ∧ d.alm.sampleDue ≤ d.now ∧ writesAsPf0 .pf0 = true) ∧
    ((ready fun d => d.set Bar.ALM_STATUS_ERASING 1).isRunning ∧
      (ready fun d => d.set Bar.ALM_STATUS_ERASING 1).dev.flag Bar.ALM_STATUS_ERASING = true) := by
  simp only [State.isReady, State.isRunning]
  refine ⟨?_, ?_, ?_⟩ <;> decide +kernel

/-- AlmanacWeedingAndCalibration, the pass and the block: a pass that starts; the last unit of each kind but for clusters'
stores, with the results that fit it; starvation; a write that is refused and one that has been programmed. -/
theorem hyp_weeding :
    (let s := ready fun d => d.set Bar.WDP_CFG_ENABLE 1
     s.isReady ∧ s.isRunning ∧ 4 ≤ s.dev.get Bar.GEN_BOOT_STAGE ∧ s.dev.flag Bar.WDP_CFG_ENABLE = true ∧
     s.dev.flag Bar.WDP_STATUS_RUNNING = false ∧ s.dev.wdp.nextNs ≤ s.dev.now ∧ ∀ m ∈ s.dev.wdp.held, m < 256) ∧
    (∀ p ∈ [(0, 255), (1, 1023), (2, 47), (3, 1), (4, 15)], ∀ r ∈ [TestResult.pass, .coreFail, .bankRows [0], .cellFail, .engineFail, .storeFail 0],
      testFits p.1 r = true →
      let s := ready fun d => { (d.set Bar.WDP_STATUS_RUNNING 1).set Bar.CLU_MARCH_STATUS_BUSY 0 15 with
        wdp := { d.wdp with left := [p], held := if p.1 = 0 then [255] else [] } }
      let d := s.dev
      s.isRunning ∧ d.flag Bar.WDP_STATUS_RUNNING = true ∧ p.2 < kindUnits p.1 ∧ d.nextUnit p.1 (kindPlace p.1 p.2) = some p.2 ∧
      d.testable p.1 p.2 = true ∧ (∀ m ∈ d.wdp.held, m < 256) ∧ (d.unit p.2).state = 0) ∧
    (let s := ready fun d => { d.set Bar.WDP_STATUS_RUNNING 1 with now := 2 ^ 60 }
     s.isRunning ∧ s.dev.flag Bar.WDP_STATUS_RUNNING = true ∧ s.dev.wdp.starved = false ∧
     s.dev.wdp.startNs + max 1 (s.dev.get Bar.WDP_CFG_STARVE_PASSES) * s.dev.passPeriod ≤ s.dev.now) ∧
    (let s := ready fun d => { d with boot := { d.boot with calWrite := some [] } }
     s.isReady ∧ s.isRunning ∧ writesAsPf0 .pf0 = true ∧ slice 0xCA1B0001 31 16 = 0xCA1B ∧ slice 0xCA1B0001 7 0 = 1 ∧
     s.dev.flag Bar.WDP_CAL_STATUS_DONE = true ∧ s.dev.inObjects 0 (s.dev.get Bar.WDP_CAL_ARG_SRC) 0x8B0 = false ∧
     s.dev.boot.calWrite = some []) := by
  simp only [State.isReady, State.isRunning]
  refine ⟨?_, ?_, ?_, ?_⟩ <;> decide +kernel

/-- StepRunsTheFrontCommand: a package that idles without power, with it and after a trip. -/
theorem hyp_step : State.reset.pending = [] ∧ State.reset.dev.power.pwrOk = false ∧ (on id).pending = [] ∧
    (on id).dev.power.pwrOk = true ∧
    (on fun d => { d with power := { d.power with tripped := true } }).dev.power.tripped = true := by decide

/-- EveryCommandIsTakenAndFusesOnlyAdvance: a step after which the fuses have moved on from those of reset. -/
theorem hyp_fuses : ∃ t : State, step { ready id with pending := [.tamperAssert] } = .next t ∧
    (ready id).fuses.leadsTo (ready id).fuses ∧ t.fuses.tamperCount = 1 :=
  ⟨_, rfl, ⟨by decide, by decide, by decide, fun _ => rfl, rfl, rfl, rfl⟩, by decide +kernel⟩

/-- DecodeAndEncodeAgree: an instruction with an encoding, at the ends of its fields. -/
theorem hyp_encodes : (∀ u x, Instr.add U 31 31 31 0 ≠ .undefOp u x) ∧
    (encodeInstr (.add U 31 31 31 0)).isSome = true := ⟨fun _ _ => Instr.noConfusion, by decide +kernel⟩

/-! ### What the statements say of the commands that find nothing to do -/

/-- IfericSessionsAndCommands: a full sign engine at a HELLO, no link, a session in another phase, a tenant in reset, and a
lifecycle change that is refused. -/
theorem hyp_iferic_otherwise :
    (let s := ready fun d => { (d.set Bar.MGT_LANE_LINK 1 1).set Bar.SEC_STATUS_ID_READY 1 with
       sec := { d.sec with signing := List.replicate 9 (.ifrReport 3 0 []) } }
     s.isServing ∧ kvFree s.dev.sec.ifr 4 = some 0 ∧ s.dev.flag Bar.MGT_LANE_LINK 1 = true ∧
     s.dev.flag Bar.SEC_STATUS_ID_READY = true ∧ s.dev.signFull = true) ∧
    (let s := ready id
     s.dev.flag Bar.MGT_LANE_LINK 1 = false ∧ kvGet? s.dev.sec.ifr 3 = none ∧ s.isServing) ∧
    (∀ p ∈ [0, 1, 2], kvGet? (ready (ifr 2 p)).dev.sec.ifr 3 = some ⟨1, p, 15, 2, [63], 0, 0, 0⟩) ∧
    (let s := ready fun d => (ifr 0 2 d).set Bar.ALT_CFG_STATE 2 255
     s.dev.inReset 255 = true ∧ s.dev.inReset 254 = false ∧ s.dev.sec.idKey = true) ∧
    (let s := ready fun d => { ifr 0 2 d with sec := { (ifr 0 2 d).sec with idKey := false } }
     s.isServing ∧ s.dev.inReset 0 = false ∧ s.dev.signFull = false ∧ s.dev.sec.idKey = false) := by
  simp only [State.isServing]; decide +kernel

/-- MembershipDecidesEpochs: frames that are none of its kinds, a fenced package, and nothing that has come due. -/
theorem hyp_epochs_otherwise :
    (let s := ready id
     s.isRunning ∧ s.isReady ∧ (fr Ty.read 4 0 0 8 []).type ≠ Ty.epoch ∧ (fr Ty.read 4 0 0 8 []).type ≠ Ty.heartbeat ∧
     s.dev.isMember = false ∧ s.dev.silent 1023 = false ∧ s.dev.mbr.own = none ∧ s.dev.mbr.decideEnd = none ∧
     s.dev.mbr.joining = none ∧ s.dev.isFenced = false) ∧
    (let f := epoch 1 0 0 []
     let s := ready fun d => { d.set Bar.MBR_STATUS_STATE 2 with inbox := [(.memSide 0, { f with w7 := 1 }, .fabric 0), (.memSide 0, f, .fabric 0)] }
     s.isRunning ∧ s.dev.inTurn f = false ∧ s.dev.inTurn { f with w7 := 1 } = true ∧ f.badTail = false ∧ wrongLength f = false ∧
     s.dev.isFenced = true ∧ newer f.mbrEpoch s.dev.mbrEpoch = false) ∧
    (ready (members 0)).dev.isAlone = false ∧
    (let s := ready fun d => { members 0 d with mbr := { d.mbr with hbWin := 1 } }
     s.dev.now < s.dev.mbr.hbWin) := by
  simp only [State.isRunning, State.isReady]; decide +kernel

/-- AlmanacWeedingAndCalibration: queues, windows and timers with nothing due, an erase in progress, a package without its
Almanac, and a VF. -/
theorem hyp_almanac_otherwise :
    (let s := ready fun d => { d with alm := { d.alm with ckptDue := 1, sampleDue := 1 }, wdp := { d.wdp with nextNs := 1 } }
     s.isReady ∧ s.dev.alm.inq = [] ∧ s.dev.alm.wins[0]? = none ∧ s.dev.now < s.dev.alm.ckptDue ∧
     s.dev.now < s.dev.alm.sampleDue ∧ s.dev.now < s.dev.wdp.nextNs ∧ s.dev.flag Bar.ALM_STATUS_ERASING = false ∧
     s.dev.flag Bar.WDP_STATUS_RUNNING = false ∧ s.dev.boot.calWrite = none) ∧
    State.reset.dev.almRuns = false ∧ writesAsPf0 (.vf 1) = false ∧ slice 0 31 16 ≠ 0xCA1B := by
  simp only [State.isReady]; decide +kernel

/-- MapInstallsOpenADrainWindow: a MAP record of an IN member and of another sender, at a member and at a package alone. -/
theorem hyp_map_record :
    (let s := ready fun d => { members 0 d with now := 5 }
     let f := epoch 8 1 0 []
     Good s f 8 ∧ s.dev.isMember = true ∧ s.dev.memberIn f.srcEp = true ∧ s.dev.reqs = [] ∧ 0 < s.dev.now ∧
     s.dev.memberIn { f with srcEp := 99 }.srcEp = false ∧ newer (f.w6 % 2 ^ 32) s.dev.mapEpoch = true) ∧
    (Good (ready id) (epoch 8 1 0 []) 8 ∧ (ready id).dev.isMember = false) := by
  simp only [Good, State.isRunning]; decide +kernel

/-! ## Well-formedness refuses what no agent can send -/

def okFrame : Frame := fr Ty.read 4 0 0 8 []

/-- One ill-formed term for each check of a frame, a unit, a requester, a port, a bank and an NMU source. -/
theorem test_wf_refuses_operands :
    (∀ f ∈ [({ okFrame with type := 32 } : Frame), { okFrame with cls := 8 }, { okFrame with allot := 256 }, { okFrame with dstEp := 65536 },
      { okFrame with srcEp := 65536 }, { okFrame with tag := 65536 }, { okFrame with status := 256 }, { okFrame with flags := 256 },
      { okFrame with len := 4097, payload := List.replicate 4097 0 }, { okFrame with mapEpoch := 2 ^ 32 },
      { okFrame with mbrEpoch := 2 ^ 32 }, { okFrame with w5 := 2 ^ 32 }, { okFrame with w6 := 2 ^ 32 },
      { okFrame with w7 := 2 ^ 32 }, { okFrame with payload := [0] }, { okFrame with trailer := [0] },
      { okFrame with flags := 2 }], f.wf = false) ∧ okFrame.wf = true ∧
    (∀ u ∈ [UnitId.core 256, .gardener 2], u.wf = false) ∧
    (∀ r ∈ [Requester.gardener 2, .vf 0, .vf 256], r.wf = false) ∧
    (∀ p ∈ [TPort.fabric 192, .cluster 16, .memSide 2, .bridge 2], p.wf = false) ∧
    (∀ b ∈ [BankId.cluster 16 0, .cluster 0 64, .core 16 0 0, .core 0 16 0, .core 0 0 8], b.wf = false) ∧
    ∀ x ∈ [NmuSrc.window 3, .logic [], .logic (List.replicate 8 (2 ^ 32))], x.wf = false := by decide +kernel

/-- One ill-formed command for each bound on an operand, and a frame of another type than its row's. -/
theorem test_wf_refuses_commands :
    (∀ c ∈ [Instr.nop (.core 256), .startUpMarchDone 16 [] [], .vfFlr 256, .commitSvn (.vf 0), .alertHoldExpiry 20, .supplyMonitorSample 64 0 0,
      .cellUncorrectable 2 none, .portEnable 192, .lossOfSignal 192, .resyncMarker 0 8 0, .partnerCreditReceived 192 0 0,
      .frameAdmission (.cluster 16) okFrame, .egressSend (.bridge 2), .requestTimeout 65536, .invokeAssemblyTimeout 256,
      .warmHoldExpiry 65536, .withdrawComplete 1024, .reclaim 1024, .recall 3, .memSpanWrite 512 0, .stackFailure 12 0,
      .stackFailure 0 32, .cxlEnable 8, .windowLayerLoaded 64 0, .bankHandoverDone (.cluster 16 0), .nmuFill (.window 3),
      .nmuBurstGrant 384 0, .versionRetireDone 4096 0, .versionRetireDone 0 16, .expEgrWrite 64 0, .rksGrpWrite 4096 0,
      .vectorUnmask 2048, .credProgram 16, .ifrHello 2 [] [] 0, .deadDeclaration 1024, .weedingUnitTest 5 0 .pass,
      .mgtLaneLinkLoss 2], c.wf = false) ∧
    (∀ c ∈ [Instr.write okFrame, .atomic 0 (.cluster 0) okFrame, .readResp okFrame, .writeAck okFrame, .copyDataPush okFrame,
      .evictNotice okFrame, .nak okFrame, .invoke okFrame, .warm okFrame, .lend okFrame, .rdShared okFrame, .snoopResp okFrame,
      .writeback okFrame, .reducePart okFrame, .heartbeat okFrame, .suspect okFrame, .pushRow okFrame, .read 2 (.cluster 0) okFrame], c.wf = false) ∧
    (Instr.read 1 (.bridge 1) okFrame).wf = true := by decide +kernel

/-! ## Words -/

/-- The five words that R243's example gives. -/
theorem test_decode_manual_words :
    decodeInstr U 0x08008000000FF000 = .li U 4 0xFF000 ∧ decodeInstr U 0x1408220000000200 = .vld U 2 1 2 512 ∧
    decodeInstr U 0x2008000800000000 = .vadd U 2 0 0 1 0 false ∧
    decodeInstr U 0x0C000360FFFFFFFC = .bCc U 0 3 3 (-4) ∧ decodeInstr U 0x0C40850000000000 = .endProg U 4 5 := by
  decide +kernel

/-- One word of each other class, put together from the formats: MAJOR, MINOR, ENG, then the upper and the lower fields. -/
theorem test_decode_each_class :
    decodeInstr U (0b000001_000001_00_00001_00010_00011_00_0_00000000000000000000000000000101#64) = .sub U 1 2 3 5 ∧
    decodeInstr U (0b000100_000001_00_00000_00010_00011_11_0_00000000000000000000000000001000#64) = .st U 2 3 3 8 ∧
    decodeInstr U (0b000110_000000_00_001_00010_00000_00000_0000_000000_0_0_0_0000000000000000000#64) = .tld U 1 2 ∧
    decodeInstr U (0b000111_000000_00_00001_00010_00011_10_0_00000000000000000000000000000100#64) = .badd U 1 2 3 2 4 ∧
    decodeInstr U (0b001001_000000_11_00001_00010_00000_001_00000_1_000000_0000_0000000000000000#64) = .vexp U 3 1 2 1 true ∧
    decodeInstr U (0b001010_000000_00_001_00010_00011_00100_0010_000011_1_0_1_0000000000000000000#64) = .mma U 1 2 3 4 2 3 true false true ∧
    decodeInstr U (0b001011_000000_10_00001_00010_00000_000_00000_0_000100_0000_0000000000000000#64) = .vq U 2 1 2 4 ∧
    decodeInstr U (0b001101_000000_00_00001_00010_00011_000_0011_100_000000_000_0000000000000000#64) = .cpin U 3 1 2 3 4 ∧
    decodeInstr U (0b001110_000000_01_00000_00010_00011_00_0_00000000000000000000000000000001#64) = .put U 1 2 3 1 ∧
    decodeInstr U (0b001111_000010_00_00001_00000_00000_000_0011_000_000000_000_0000111111111111#64) = .rpart U 3 1 4095 ∧
    decodeInstr U (0b010000_000000_00_00001_00010_00000_000_0011_000_000000_000_0000000000000000#64) = .sappend U 3 1 2 ∧
    decodeInstr U (0b010001_000000_00_00001_00010_00000_000_0000_000_000000_000_0000000000000000#64) = .xcfg U 1 2 ∧
    decodeInstr U (0b010010_000000_00_00001_00000_00010_00_0_00000000000000000000000000000011#64) = .rdsctx U 1 2 3 ∧
    decodeInstr G (0b010011_000000_00_00001_00010_00000_11_0_00000000000000000000000100000000#64) = .rgrd G 1 2 3 256 := by
  decide +kernel

/-- The all-zero word and an undefined pair (R244). -/
theorem test_decode_undefined :
    decodeInstr U 0 = .undefOp U 0 ∧ decodeInstr U (0b000001_111111#12 ++ 0#52) = .undefOp U (0b000001_111111#12 ++ 0#52) := by
  decide +kernel

/-! ## Results that the manual works out -/

/-- Memory lists nothing at reset, in its canonical form. -/
theorem test_reset_memory : memWf State.reset.dev.pool.mem = true ∧ memWf State.reset.dev.banks.mem = true := by decide

/-- R52: 3,200 UI of round trip, 1,060 UI own, 1,024 UI of the partner, 4,400 ps/m give 0.6 m. -/
theorem test_length : lengthDm 3200 1060 1024 4400 = 6 := by decide

/-- R99: a sealed WRITE of 4,096 bytes takes 17 cells, a READ takes one. -/
theorem test_cells :
    Frame.cells { okFrame with type := Ty.write, len := 4096, flags := 2 } = 17 ∧ Frame.cells okFrame = 1 := by decide +kernel

/-- R418: the SEQ nearest to S, over the wrap and before it. -/
theorem test_nearest_seq :
    nearestSeq 0x1FFFFFFF0 0x5 = 0x200000005 ∧ nearestSeq 0x1FFFFFFF0 0xFFFFFF00 = 0x1FFFFFF00 := by decide

/-- R308: E = 4, SUB = 2, NBUCKET 32: distance 200 falls into bucket 30, distance 1,000 into the last. -/
theorem test_bias_bucket : biasBucket 4 2 32 200 = 30 ∧ biasBucket 4 2 32 1000 = 31 := by decide +kernel

/-- R284: the FP4 block of the manual, without pre-scaling (scale 4, four values lost) and with KSHIFT 6 (scale 1/16). -/
theorem test_fp4_block :
    let rest := List.replicate 27 Num.fzero
    let q (x : W32) := Num.quantMx 4 (([x, 0x3E99999A, 0xBEE66666, 0x3DF5C28F, 0x3E4CCCCD] ++ rest).map Num.ofW)
    ((q 0x41C00000).1 = 0x81 ∧ (q 0x41C00000).2.1.take 5 = [7, 0, 8, 0, 0] ∧ (q 0x41C00000).2.2 = ⟨0, 4, 0⟩) ∧
    ((q 0x3EC00000).1 = 0x7B ∧ (q 0x3EC00000).2.1.take 5 = [7, 6, 15, 4, 5] ∧ (q 0x3EC00000).2.2 = ⟨1, 0, 0⟩) := by decide +kernel

/-- R347: the four records of the manual's coded block, with the code part at byte 0. -/
theorem test_exc16_records :
    let b (n : Nat) : Byte := if n = 0 then 0x7A else 0x20
    let cs := Exc16.assign 0 1 [(1, some 0x7C), (2, some 0x7B), (3, some 0x7D), (3, none)]
    Exc16.record b cs 0 0 = some (0x7C, 1) ∧ Exc16.record b cs 0 1 = some (0x7B, 2) ∧ Exc16.record b cs 0 3 = some (0x81, 11) ∧
    Exc16.record b cs 0 14 = some (0x7C, 1) := by decide +kernel

/-- R83: three combined fetch-adds of 5, 7 and 1 leave 1,013 and answer 1,000, 1,005 and 1,012. -/
theorem test_combined_adds :
    let f (x : Nat) : Frame := { fr Ty.atomic 4 0 0 0 [x, 0, 0, 0, 0, 0, 0, 0] with w5 := 2 ^ 26 + 1280 }
    let e := after (ready fun d => { pool 0 [0xE8, 3] (home d) with coh := { d.coh with
      comb := [(0, ⟨0, 0, [(.cluster 1, f 5), (.memSide 0, f 7), (.cluster 3, f 1)]⟩)] } }) (.combineEntryGrant 0 0)
    leNat (e.poolBytes (65536 * P) 8) = 1013 ∧ (e.outbox.map fun x => leNat x.2.payload) = [1000, 1005, 1012] := by
  decide +kernel

/-! ## Single steps -/

/-- `li` sign-extends its 45 bits; `lih` replaces bits 63 to 45. -/
theorem test_li : (after (running (.li U 4 (-1))) (.li U 4 (-1))).rs 0 4 = -1 ∧
    (after (running (.lih U 4 1) (sregs [(4, 7)])) (.lih U 4 1)).rs 0 4 = 2 ^ 45 + 7 := by decide +kernel

/-- A destination that is also a source; a write to s0 is discarded. -/
theorem test_add : (after (running (.add U 1 1 1 5) (sregs [(1, 3)])) (.add U 1 1 1 5)).rs 0 1 = 11 ∧
    (after (running (.add U 0 1 1 5) (sregs [(1, 3)])) (.add U 0 1 1 5)).rs 0 0 = 0 := by decide +kernel

/-- Signed division: 7 / -2 rounds toward zero; a divisor of 0 is clamped to 1 (R249). -/
theorem test_div : (after (running (.div U 1 1 2 0) (sregs [(1, 7), (2, 2 ^ 64 - 2)])) (.div U 1 1 2 0)).rs 0 1 = -3 ∧
    (after (running (.div U 1 1 2 0) (sregs [(1, 7)])) (.div U 1 1 2 0)).rs 0 1 = 7 := by decide +kernel

/-- A shift count is clamped to 63 (R249). -/
theorem test_sra : (after (running (.sra U 1 1 0 65) (sregs [(1, 2 ^ 63)])) (.sra U 1 1 0 65)).rs 0 1 = -1 := by
  decide +kernel

/-- A signed branch that is not taken goes on; an unsigned comparison of the same values is false. -/
theorem test_branch : ((after (running (.bCc U 0 1 3 (-4)) (sregs [(1, 2 ^ 64 - 1)])) (.bCc U 0 1 3 (-4))).unit 0).pc = 1 ∧
    (after (running (.slt U 2 1 0 0) (sregs [(1, 2 ^ 64 - 1)])) (.slt U 2 1 0 0)).rs 0 2 = 1 := by decide +kernel

/-- A load zero-extends, little-endian; a store writes the low bytes. -/
theorem test_ld_st :
    (after (running (.ld U 1 0 1 2) (spad (coreBase 0) [0, 0, 0xCD, 0xAB, 0xFF] ∘ owned)) (.ld U 1 0 1 2)).rs 0 1 = 0xABCD ∧
    (after (running (.st U 0 1 1 2) (owned ∘ sregs [(1, 0x12345678)])) (.st U 0 1 1 2)).spadBytes (coreBase 0) 5 =
      [0, 0, 0x78, 0x56, 0] := by decide +kernel

/-- An undefined word ends the invocation with a fatal fault: DRAINING, status PROGRAM_FAULT, cause UNDEF_OP at index 0. -/
theorem test_undef_faults :
    let e := after (running (.undefOp U 0)) (.undefOp U 0)
    ((e.unit 0).state, (e.unit 0).final) = (3, some Code.programFault) ∧ slice (e.unit 0).flt 127 120 = Cause.undefOp := by
  decide +kernel

/-- So does an instruction of the register block on a core (R241, R244). -/
theorem test_core_has_no_register_block :
    let e := after (running (.rgrd U 1 0 2 0)) (.rgrd U 1 0 2 0)
    ((e.unit 0).state, (e.unit 0).final) = (3, some Code.programFault) := by decide +kernel

/-- `put` adds its tokens to the channel. -/
theorem test_put : ((after (running (.put U 0 1 0 2)) (.put U 0 1 0 2)).unit 0).ch = [(1, 2)] := by decide +kernel

/-- A PWR_OK without power starts the time base; a write to a register that is read-only changes nothing. -/
theorem test_commands : (after State.reset .powerOn).power.pwrOk = true ∧
    (after (ready id) (.registerWrite .pf0 0 4 0xFFFFFFFF)).regs = (ready id).dev.regs := by decide +kernel

/-- Lane 12 stands on a multiple of 4 but not of 8: a WIDTH of x8 is clamped and reads back x4 (R7, R45). -/
theorem test_width_is_clamped :
    (after (ready id) (.registerWrite .pf0 (Bar.LNK_PORT_CFG.key 12 0) 8
      ((ready id).dev.word Bar.LNK_PORT_CFG 12 ||| 3 <<< Bar.LNK_PORT_CFG_WIDTH.lo))).get Bar.LNK_PORT_CFG_WIDTH 12 = 2 := by
  decide +kernel

/-- A stored poisoned register keeps its poison in a Gardener's data memory, word for word (R232). -/
theorem test_gardener_keeps_poison :
    let e := (gardens (.nop G)).dev.storeSpad 256 8 (List.replicate 8 1) true
    (e.loadSpad 256 8 8).2.1 = true ∧ (e.loadSpad 256 16 8).2.1 = false := by decide +kernel

end Sys2Proof.Tests
end

section
/-! SUPPORT. Register commands: the guards that a ready package meets, what a PF0 write does to the TDIs, and which registers a
write changes. -/

namespace Sys2Proof.Machine

/-! ## The guards of a command -/

theorem runs_of_ready {d : Dev} (h : d.ready = true) : d.runs = true := by
  simp only [Dev.ready, Bool.and_eq_true] at h
  exact h.1

theorem stage_of_ready {d : Dev} (h : d.ready = true) : d.get Bar.GEN_BOOT_STAGE = 4 := by
  simp only [Dev.ready, Bool.and_eq_true, beq_iff_eq] at h
  exact h.2

theorem serves_of_ready {d : Dev} (h : d.ready = true) : d.serves = true := by
  simp [Dev.serves, runs_of_ready h, stage_of_ready h]

/-- A command that completes with more, completes with less. -/
theorem Completes.imp {i : Instr} {s : State} {P Q : Dev → Prop} (h : Completes i s P) (hpq : ∀ e, P e → Q e) :
    Completes i s Q := by
  obtain ⟨e, he, hp⟩ := h
  exact ⟨e, he, hpq e hp⟩

/-! ## The TDIs after a PF0 write (R474) -/

/-- The guard moves TDI states, which the endpoint holds, and nothing else. -/
theorem tdiGuard_eq (d e : Dev) : ∃ ep, d.tdiGuard e = { e with ep := ep } := by
  unfold Dev.tdiGuard
  generalize d.lockedTdis = as
  have main : ∀ f : Dev, (∃ ep, f = { e with ep := ep }) →
      ∃ ep, as.foldl (fun g a => if d.assigned a = e.assigned a then g else g.tdiError a) f = { e with ep := ep } := by
    induction as with
    | nil => exact fun f h => h
    | cons a as ih =>
      rintro f ⟨ep, rfl⟩
      rw [List.foldl_cons]
      apply ih
      split
      · exact ⟨ep, rfl⟩
      · exact ⟨_, rfl⟩
  exact main e ⟨e.ep, rfl⟩

/-- A write that changes nothing moves no TDI. -/
@[simp] theorem tdiGuard_self (d : Dev) : d.tdiGuard d = d := by
  unfold Dev.tdiGuard
  generalize d.lockedTdis = as
  induction as with
  | nil => rfl
  | cons a as ih => rw [List.foldl_cons, if_pos rfl]; exact ih

@[simp] theorem tdiGuard_regs (d e : Dev) : (d.tdiGuard e).regs = e.regs := by
  obtain ⟨ep, h⟩ := tdiGuard_eq d e; rw [h]
@[simp] theorem tdiGuard_pool (d e : Dev) : (d.tdiGuard e).pool = e.pool := by
  obtain ⟨ep, h⟩ := tdiGuard_eq d e; rw [h]
@[simp] theorem tdiGuard_banks (d e : Dev) : (d.tdiGuard e).banks = e.banks := by
  obtain ⟨ep, h⟩ := tdiGuard_eq d e; rw [h]
@[simp] theorem tdiGuard_units (d e : Dev) : (d.tdiGuard e).units = e.units := by
  obtain ⟨ep, h⟩ := tdiGuard_eq d e; rw [h]
@[simp] theorem tdiGuard_sess (d e : Dev) : (d.tdiGuard e).sess = e.sess := by
  obtain ⟨ep, h⟩ := tdiGuard_eq d e; rw [h]
@[simp] theorem tdiGuard_nmus (d e : Dev) : (d.tdiGuard e).nmus = e.nmus := by
  obtain ⟨ep, h⟩ := tdiGuard_eq d e; rw [h]

/-! ## Which registers a write changes -/

theorem get_of_regs {d e : Dev} (h : e.regs = d.regs) (f : Fld) (i j : Nat) : e.get f i j = d.get f i j := by
  simp only [Dev.get, Dev.word, h]

@[simp] theorem get_tdiGuard (d e : Dev) (f : Fld) (i j : Nat) : (d.tdiGuard e).get f i j = e.get f i j :=
  get_of_regs (tdiGuard_regs d e) f i j

theorem RegsBut.of_regs_eq {ks : List Nat} {d e f : Dev} (h : RegsBut ks d e) (hf : f.regs = e.regs) : RegsBut ks d f := by
  intro o ho
  rw [hf]
  exact h o ho

theorem regsBut_refl (ks : List Nat) (d : Dev) : RegsBut ks d d := fun _ _ => rfl

/-- A write of a field changes no register but its own. -/
theorem RegsBut.set {ks : List Nat} {d e : Dev} (h : RegsBut ks d e) (f : Fld) (x i j : Nat) (hk : f.reg.key i j ∈ ks) :
    RegsBut ks d (e.set f x i j) := by
  intro o ho
  have hne : f.reg.key i j ≠ o := fun he => ho (he ▸ hk)
  exact (kvGet?_kvPut_ne _ _ _ _ hne).trans (h o ho)

end Sys2Proof.Machine
end

section
/-! SUPPORT. Raw accesses to BAR0 (R37, R486-R489, R495): where the offsets of TIM and GEN_INT lie, and what their reads and
writes do. -/

namespace Sys2Proof.Machine

/-! ## Bit fields -/

/-- A field inside bits that are written reads the bits of the value that fall on it. -/
theorem slice_splice_within (w hi lo x hi2 lo2 : Nat) (hl : lo ≤ lo2) (hm : lo2 ≤ hi2) (hh : hi2 ≤ hi) :
    slice (splice w hi lo x) hi2 lo2 = slice x (hi2 - lo) (lo2 - lo) := by
  apply Nat.eq_of_testBit_eq
  intro k
  rw [testBit_slice, testBit_splice, testBit_slice]
  by_cases hk : k < hi2 + 1 - lo2
  · have hin : lo ≤ lo2 + k ∧ lo2 + k < hi + 1 := by omega
    have hk2 : k < hi2 - lo + 1 - (lo2 - lo) := by omega
    have he : lo2 + k - lo = lo2 - lo + k := by omega
    simp only [hk, hk2, hin, he, decide_true, Bool.true_and, and_self, if_true]
  · have hk2 : ¬ k < hi2 - lo + 1 - (lo2 - lo) := by omega
    simp only [hk, hk2, decide_false, Bool.false_and]

/-- A field of one bit. -/
theorem slice_bit (w n : Nat) : slice w n n = (w.testBit n).toNat := by
  simp [slice, Nat.toNat_testBit, Nat.shiftRight_eq_div_pow]

/-- Taking the bits of `v` out of `p` leaves the bits of `p` that `v` does not have. -/
theorem testBit_sub_and (p v n : Nat) : (p - (p &&& v)).testBit n = (p.testBit n && !v.testBit n) := by
  induction n generalizing p v with
  | zero =>
    have hle : p &&& v ≤ p := Nat.and_le_left
    have hone := Nat.and_mod_two_eq_one (a := p) (b := v)
    rw [Bool.eq_iff_iff]
    simp only [Nat.testBit_zero, Bool.and_eq_true, decide_eq_true_eq, Bool.not_eq_true', decide_eq_false_iff_not]
    omega
  | succ n ih =>
    have hd : (p - (p &&& v)) / 2 = p / 2 - (p / 2 &&& v / 2) := by
      have hle : p &&& v ≤ p := Nat.and_le_left
      have hone := Nat.and_mod_two_eq_one (a := p) (b := v)
      rw [← Nat.and_div_two]
      omega
    rw [Nat.testBit_succ, Nat.testBit_succ, Nat.testBit_succ, hd, ih]

/-! ## Accesses of READY packages -/

theorem inReach_of_ready {d : Dev} (h : d.ready = true) (off : Nat) : d.inReach off = true := by
  simp [Dev.inReach, stage_of_ready h]

/-- A 32-bit write of PF0 at an aligned offset outside the MSI-X area and the staging buffer reaches the registers. -/
theorem barWrite_pf0_regs (s : State) (off v : Nat) (h : s.dev.ready = true) (hoff : off < 2 ^ 28) (hal : off % 4 = 0)
    (hm : inMsix off = false) (hs : inStaging off = false) :
    s.barWrite .pf0 off 4 v = (s.onDev fun d => d.dropSnap .pf0).writeRegs .pf0 off 4 v := by
  have hr : (s.dev.dropSnap .pf0).inReach off = true := inReach_of_ready (d := s.dev.dropSnap .pf0) h off
  have ho : off % 268435456 / 4 * 4 = off := by omega
  simp [State.barWrite, ho, hr, hm, hs]

/-! ## TIM_WMON_CTL (R29) -/

/-- Where the offset of TIM_WMON_CTL lies. -/
def wmonHit : Hit := ⟨⟨Bar.TIM_WMON_CTL, [Bar.TIM_WMON_CTL_ENABLE, Bar.TIM_WMON_CTL_WINDOW_US]⟩, 0, 0, 0⟩

theorem findReg_wmonCtl : findReg 0x100018 = some wmonHit := rfl

/-- TIM_WMON_CTL after a write of the whole register: WINDOW_US is clamped (R7). -/
def Dev.wmonStored (d : Dev) (v : Nat) : Dev :=
  (d.set Bar.TIM_WMON_CTL_ENABLE (slice v 10 10)).set Bar.TIM_WMON_CTL_WINDOW_US (clampTo 1 1000 (slice v 9 0))

/-- TIM_WMON_CTL after the write, and the window that an ENABLE starts. -/
def Dev.wmonWritten (d : Dev) (v : Nat) : Dev :=
  if v.testBit 10 && !d.flag Bar.TIM_WMON_CTL_ENABLE then (d.wmonStored v).startWindow else d.wmonStored v

theorem writeReg_wmonCtl (d : Dev) (life : Nat) (who : Requester) (touched : Fld → Bool) (v : Nat)
    (he : touched Bar.TIM_WMON_CTL_ENABLE = true) (hw : touched Bar.TIM_WMON_CTL_WINDOW_US = true) :
    d.writeReg life who wmonHit touched v = d.wmonWritten v := by
  have hst : d.stores life wmonHit touched v = d.wmonStored v := by
    have : d.stores life wmonHit touched v =
        let d1 := if touched Bar.TIM_WMON_CTL_ENABLE then d.set Bar.TIM_WMON_CTL_ENABLE (slice v 10 10) else d
        if touched Bar.TIM_WMON_CTL_WINDOW_US then d1.set Bar.TIM_WMON_CTL_WINDOW_US (clampTo 1 1000 (slice v 9 0)) else d1 := rfl
    rw [this, he, hw]; rfl
  have hwr : d.writeReg life who wmonHit touched v =
      let st := d.stores life wmonHit touched v
      if v.testBit 10 && !d.flag Bar.TIM_WMON_CTL_ENABLE then st.startWindow else st := rfl
  rw [hwr, hst]; rfl

/-- A 32-bit piece is the whole register: its fields take the bits of the value. -/
theorem pieceImage_wmonCtl (d : Dev) (who : Requester) (v : Nat) :
    d.wmonWritten (d.pieceImage who wmonHit 4 v).1 = d.wmonWritten v := by
  obtain ⟨low, hlow⟩ : ∃ low, low = d.lowImage who wmonHit (d.word Bar.TIM_WMON_CTL) := ⟨_, rfl⟩
  have himg : (d.pieceImage who wmonHit 4 v).1 =
      splice (splice 0 10 10 (slice (splice low 31 0 v) 10 10)) 9 0 (slice (splice low 31 0 v) 9 0) := by rw [hlow]; rfl
  have h9 : slice (d.pieceImage who wmonHit 4 v).1 9 0 = slice v 9 0 := by
    rw [himg, slice_splice_same, slice_splice_within _ _ _ _ _ _ (by omega) (by omega) (by omega)]
    exact Nat.mod_eq_of_lt (slice_lt v 9 0)
  have h10 : (d.pieceImage who wmonHit 4 v).1.testBit 10 = v.testBit 10 := by
    rw [himg, testBit_splice, if_neg (by decide), testBit_splice, if_pos (by decide), testBit_slice, testBit_splice]
    simp
  simp only [Dev.wmonWritten, Dev.wmonStored, slice_bit, h9, h10]

/-- A write of TIM_WMON_CTL by PF0. -/
theorem barWrite_wmonCtl (s : State) (v : Nat) (h : s.dev.ready = true) :
    s.barWrite .pf0 0x100018 4 v =
      { s with dev := (s.dev.dropSnap .pf0).tdiGuard ((s.dev.dropSnap .pf0).wmonWritten v) } := by
  rw [barWrite_pf0_regs s _ _ h (by decide) (by decide) (by decide) (by decide)]
  generalize hd : s.dev.dropSnap .pf0 = d
  have hw : (s.onDev fun d => d.dropSnap .pf0).writeRegs .pf0 0x100018 4 v =
      { s with dev := (d.tdiGuard (d.writeReg s.fuses.lifecycle .pf0 wmonHit (d.pieceImage .pf0 wmonHit 4 v).2
        (d.pieceImage .pf0 wmonHit 4 v).1)) } := by
    subst hd
    rfl
  rw [hw, writeReg_wmonCtl _ _ _ _ _ rfl rfl, pieceImage_wmonCtl]

/-! ## Reads in pieces (R37, R488) -/

/-- An aligned read of 4 or 8 bytes of the registers. -/
theorem barRead_regs (d : Dev) (z : Fuses) (who : Requester) (off size : Nat) (h : d.ready = true)
    (hwho : ∀ a, who ≠ .vf a) (hsize : size = 4 ∨ size = 8) (hoff : off < 2 ^ 28) (hal : off % size = 0)
    (hm : inMsix off = false) (hs : inStaging off = false) :
    d.barRead z who off size = ((d.readRegs z who off size).1 % 2 ^ (8 * size), (d.readRegs z who off size).2) := by
  have ho : off % 268435456 / size * size = off := by rcases hsize with rfl | rfl <;> omega
  have hb : off / size * size = off := by rcases hsize with rfl | rfl <;> omega
  have hr := inReach_of_ready h off
  have h48 : d.read48 z who off size = d.readRegs z who off size := by simp [Dev.read48, hr, hm, hs]
  cases who with
  | vf a => exact absurd rfl (hwho a)
  | _ => rcases hsize with rfl | rfl <;> simp [Dev.barRead, ho, hb, h48]

/-- The lowest piece of a register is read afresh. -/
theorem readPiece_lowest (d : Dev) (z : Fuses) (who : Requester) (h : Hit) (size : Nat) (hb : h.byte = 0) :
    d.readPiece z who h size = (d.readWord z who h.row.reg h.i h.j % 2 ^ (8 * size),
      (d.clearRc h).setSnap who (h.row.reg.key h.i h.j, 0, d.readWord z who h.row.reg h.i h.j)) := by
  unfold Dev.readPiece
  split <;> simp [hb]

/-- Where the offset of TIM_WRATE_CLU of a cluster lies. -/
def cluHit (c : Nat) : Hit := ⟨⟨Bar.TIM_WRATE_CLU, [Bar.TIM_WRATE_CLU_LOWEST, Bar.TIM_WRATE_CLU_RATE]⟩, c, 0, 0⟩

theorem findReg_wrateClu (c : Nat) (h : c < 16) : findReg (0x100100 + 8 * c) = some (cluHit c) := by
  match c, h with
  | 0, _ | 1, _ | 2, _ | 3, _ | 4, _ | 5, _ | 6, _ | 7, _ | 8, _ | 9, _ | 10, _ | 11, _ | 12, _ | 13, _ | 14, _ | 15, _ => rfl
  | n + 16, h => exact absurd h (by omega)

/-- A read of TIM_WRATE_CLU returns the register and resets LOWEST (R29). -/
theorem barRead_wrateClu (d : Dev) (z : Fuses) (c : Nat) (h : d.ready = true) (hc : c < 16) :
    ∃ snap, d.barRead z .pf0 (0x100100 + 8 * c) 8 =
      (d.word Bar.TIM_WRATE_CLU c % 2 ^ 64, (d.set Bar.TIM_WRATE_CLU_LOWEST 65535 c).setSnap .pf0 snap) := by
  have hm : inMsix (0x100100 + 8 * c) = false := by simp [inMsix]; omega
  have hs : inStaging (0x100100 + 8 * c) = false := by simp [inStaging]; omega
  rw [barRead_regs d z .pf0 _ 8 h (by simp) (.inr rfl) (by omega) (by omega) hm hs]
  have hrd : d.readRegs z .pf0 (0x100100 + 8 * c) 8 = d.readPiece z .pf0 (cluHit c) 8 := by
    have h1 : ¬ 0x100100 + 8 * c = 0x1400020 := by omega
    rw [Dev.readRegs, if_neg h1, findReg_wrateClu c hc]
    simp [cluHit, Bar.TIM_WRATE_CLU]
  have hw : d.readWord z .pf0 Bar.TIM_WRATE_CLU c 0 = d.word Bar.TIM_WRATE_CLU c := rfl
  have hrst : slice (Bar.TIM_WRATE_CLU.reset c 0) 31 16 = 65535 := by simp [Bar.TIM_WRATE_CLU, Reg.reset, slice]
  have hcl : d.clearRc (cluHit c) = d.set Bar.TIM_WRATE_CLU_LOWEST (slice (Bar.TIM_WRATE_CLU.reset c 0) 31 16) c := rfl
  rw [hrd, readPiece_lowest _ _ _ _ _ rfl, hcl, hrst]
  exact ⟨_, congrArg (Prod.mk · _) (by rw [cluHit, hw, Nat.mod_mod])⟩

/-- Where the offset of TIM_NOW lies. -/
def nowHit : Hit := ⟨⟨Bar.TIM_NOW, [Bar.TIM_NOW_NS]⟩, 0, 0, 0⟩

/-- A 32-bit read of the lower half of TIM_NOW latches the upper half (R37). -/
theorem barRead_timNow (d : Dev) (z : Fuses) (who : Requester) (h : d.ready = true) (hwho : ∀ a, who ≠ .vf a) :
    ∃ snap, d.barRead z who 0x100000 4 =
      (d.now % 2 ^ 32, (d.setSnap who snap).set Bar.TIM_NOW_HI_SHADOW_NS_HI (d.now / 2 ^ 32)) := by
  rw [barRead_regs d z who _ 4 h hwho (.inl rfl) (by decide) (by decide) (by decide) (by decide)]
  have hrd : d.readRegs z who 0x100000 4 =
      ((d.readPiece z who nowHit 4).1, (d.readPiece z who nowHit 4).2.set Bar.TIM_NOW_HI_SHADOW_NS_HI (d.now / 2 ^ 32)) := rfl
  have hw : d.readWord z who Bar.TIM_NOW 0 0 = d.now % 2 ^ 64 := rfl
  have hcl : d.clearRc nowHit = d := rfl
  rw [hrd, readPiece_lowest _ _ _ _ _ rfl, hcl]
  exact ⟨_, congrArg (Prod.mk · _) (by
    rw [nowHit, hw, Nat.mod_mod, Nat.mod_mod_of_dvd _ (by decide : 2 ^ (8 * 4) ∣ 2 ^ 64)])⟩

/-! ## GEN_INT and the holds on ALERT_N (R495, R506) -/

/-- A hold after its block is acknowledged at time `now`. -/
def AlertHold.acknowledged (h : AlertHold) (now : Nat) : Option AlertHold :=
  if h.since + 1000000 ≤ now then none else some { h with acked := true }

/-- A hold stays or leaves; nothing else changes. -/
theorem releaseAlert_cases (d : Dev) (b : Nat) :
    d.releaseAlert b = d ∨ d.releaseAlert b = { d with power := { d.power with holds := kvDel d.power.holds b } } := by
  unfold Dev.releaseAlert
  split
  · exact .inl rfl
  · split
    · exact .inr rfl
    · exact .inl rfl

/-- The device with the block's hold marked as acknowledged. -/
def Dev.markAcked (d : Dev) (b : Nat) : Dev :=
  { d with power := { d.power with holds := kvMod d.power.holds b fun h => { h with acked := true } } }

theorem ackAlert_def (d : Dev) (b : Nat) : d.ackAlert b = (d.markAcked b).releaseAlert b := rfl

theorem ackAlert_eq (d : Dev) (b : Nat) : ∃ hs, d.ackAlert b = { d with power := { d.power with holds := hs } } := by
  rw [ackAlert_def]
  rcases releaseAlert_cases (d.markAcked b) b with h | h
  · exact ⟨_, h⟩
  · exact ⟨_, h⟩

/-- Acknowledging blocks changes holds and nothing else. -/
theorem foldl_ackAlert_eq (bs : List Nat) (d : Dev) :
    ∃ hs, bs.foldl Dev.ackAlert d = { d with power := { d.power with holds := hs } } := by
  induction bs generalizing d with
  | nil => exact ⟨_, rfl⟩
  | cons b bs ih =>
    obtain ⟨hs, h⟩ := ackAlert_eq d b
    obtain ⟨hs2, h2⟩ := ih (d.ackAlert b)
    exact ⟨hs2, by rw [List.foldl_cons, h2, h]⟩

theorem kvGet?_kvMod_ne {α : Type} (m : Kv α) (i j : Nat) (f : α → α) (h : i ≠ j) : kvGet? (kvMod m i f) j = kvGet? m j := by
  unfold kvMod
  split
  · rfl
  · exact kvGet?_kvPut_ne _ _ _ _ h

theorem kvGet?_kvMod_same {α : Type} (m : Kv α) (j : Nat) (f : α → α) : kvGet? (kvMod m j f) j = (kvGet? m j).map f := by
  unfold kvMod
  split
  · next h => simp [h]
  · next h => simp [h]

theorem holds_ackAlert_ne (d : Dev) (b c : Nat) (h : b ≠ c) :
    kvGet? (d.ackAlert b).power.holds c = kvGet? d.power.holds c := by
  have hm : kvGet? (d.markAcked b).power.holds c = kvGet? d.power.holds c := kvGet?_kvMod_ne _ _ _ _ h
  rw [ackAlert_def, ← hm]
  rcases releaseAlert_cases (d.markAcked b) b with hr | hr
  · rw [hr]
  · rw [hr]
    exact kvGet?_kvDel_ne _ _ _ h

theorem releaseAlert_none (d : Dev) (b : Nat) (hb : kvGet? d.power.holds b = none) : d.releaseAlert b = d := by
  simp only [Dev.releaseAlert, hb]

theorem releaseAlert_acked (d : Dev) (b : Nat) (h : AlertHold) (hb : kvGet? d.power.holds b = some h) (ha : h.acked = true) :
    d.releaseAlert b =
      if h.since + 1000000 ≤ d.now then { d with power := { d.power with holds := kvDel d.power.holds b } } else d := by
  simp only [Dev.releaseAlert, hb, ha, Bool.true_and, decide_eq_true_eq]

theorem holds_ackAlert_same (d : Dev) (b : Nat) :
    kvGet? (d.ackAlert b).power.holds b = (kvGet? d.power.holds b).bind (AlertHold.acknowledged · d.now) := by
  have hm : kvGet? (d.markAcked b).power.holds b = (kvGet? d.power.holds b).map fun h => { h with acked := true } :=
    kvGet?_kvMod_same _ _ _
  rw [ackAlert_def]
  cases hb : kvGet? d.power.holds b with
  | none =>
    rw [hb, Option.map_none] at hm
    rw [releaseAlert_none _ _ hm, hm, Option.bind_none]
  | some h =>
    rw [hb, Option.map_some] at hm
    rw [releaseAlert_acked _ _ _ hm rfl, Option.bind_some, AlertHold.acknowledged, show (d.markAcked b).now = d.now from rfl]
    by_cases hdue : h.since + 1000000 ≤ d.now
    · rw [if_pos hdue, if_pos hdue, kvGet?_kvDel_same]
    · rw [if_neg hdue, if_neg hdue, hm]

/-- Each block of the list is acknowledged once, and no other. -/
theorem holds_foldl_ackAlert (bs : List Nat) (hn : bs.Nodup) (d : Dev) (b : Nat) :
    kvGet? (bs.foldl Dev.ackAlert d).power.holds b =
      if b ∈ bs then (kvGet? d.power.holds b).bind (AlertHold.acknowledged · d.now) else kvGet? d.power.holds b := by
  induction bs generalizing d with
  | nil => rfl
  | cons c bs ih =>
    obtain ⟨hc, hn⟩ := List.nodup_cons.1 hn
    have hnow : (d.ackAlert c).now = d.now := by obtain ⟨hs, h⟩ := ackAlert_eq d c; rw [h]
    rw [List.foldl_cons, ih hn, hnow]
    by_cases hb : b = c
    · subst hb
      simp [hc, holds_ackAlert_same]
    · simp [hb, holds_ackAlert_ne d c b (Ne.symm hb)]

/-- GEN_INT with the PEND bits of `v` cleared. -/
def Dev.pendCleared (d : Dev) (v : Nat) : Dev :=
  d.set Bar.GEN_INT_PEND (d.get Bar.GEN_INT_PEND - (d.get Bar.GEN_INT_PEND &&& v))

theorem testBit_pendCleared (d : Dev) (v n : Nat) (hn : n < 20) :
    ((d.pendCleared (v % 2 ^ 20)).get Bar.GEN_INT_PEND).testBit n =
      ((d.get Bar.GEN_INT_PEND).testBit n && !v.testBit n) := by
  rw [Dev.pendCleared, get_set_same, Nat.testBit_mod_two_pow, testBit_sub_and, Nat.testBit_mod_two_pow]
  simp [Bar.GEN_INT_PEND, hn]

/-- The blocks whose bits a write of GEN_INT holds. -/
def intBlocks (v : Nat) : List Nat := (List.range 20).filter fun b => v.testBit b

theorem genIntWrite_gardener (d : Dev) (die v : Nat) : d.genIntWrite (.gardener die) v = d.pendCleared v := rfl

theorem genIntWrite_vf (d : Dev) (a v : Nat) : d.genIntWrite (.vf a) v = d := rfl

theorem genIntWrite_asPf0 (d : Dev) (who : Requester) (v : Nat) (h : asPf0 who = true) :
    d.genIntWrite who v = (intBlocks v).foldl Dev.ackAlert (d.pendCleared v) := by
  cases who with
  | pf0 => rfl
  | iferic n => rfl
  | gardener die => simp [asPf0] at h
  | vf a => simp [asPf0] at h

theorem mem_intBlocks (b v : Nat) (hb : b < 20) : b ∈ intBlocks (v % 2 ^ 20) ↔ v.testBit b = true := by
  rw [intBlocks, List.mem_filter, Nat.testBit_mod_two_pow]
  simp [hb]

theorem nodup_intBlocks (v : Nat) : (intBlocks v).Nodup := List.nodup_range.filter _

end Sys2Proof.Machine
end

section
/-! SUPPORT. O31: accesses to BAR0. -/

namespace Sys2Proof.Machine

theorem exec_registerWrite_serving (s : State) (who : Requester) (off size v : Nat) (h : s.dev.serves = true) :
    exec (.registerWrite who off size v) s = .next (s.barWrite who off size v) := by
  change Host.Outcome.next _ = _
  rw [if_pos h]

/-- A write of 1 or 2 bytes is ignored (R487). -/
theorem exec_registerWrite_narrow (s : State) (who : Requester) (off size v : Nat) (h : size < 4) :
    exec (.registerWrite who off size v) s = .next s := by
  have hb : s.barWrite who off size v = s := by rw [State.barWrite, if_pos h]
  change Host.Outcome.next (if _ then s.barWrite who off size v else s) = _
  rw [hb, ite_self]

/-- The device after a read of BAR0: what is read leaves the package. -/
def Dev.afterRead (d : Dev) (z : Fuses) (who : Requester) (off size : Nat) : Dev :=
  (d.barRead z who off size).2.emit (.readData who off size (d.barRead z who off size).1)

theorem exec_rcRead_serving (s : State) (who : Requester) (off size : Nat) (h : s.dev.serves = true) :
    exec (.rcRead who off size) s = .next { s with dev := s.dev.afterRead s.fuses who off size } := by
  change Host.Outcome.next (if _ then _ else s) = _
  rw [if_pos h]
  rfl

theorem exec_timNowRead_serving (s : State) (who : Requester) (h : s.dev.serves = true) :
    exec (.timNowRead who) s = .next { s with dev := s.dev.afterRead s.fuses who 0x100000 4 } := by
  change Host.Outcome.next (if _ then _ else s) = _
  rw [if_pos h]
  rfl

theorem exec_genIntWrite_serving (s : State) (who : Requester) (v : Nat) (h : s.dev.serves = true) :
    exec (.genIntWrite who v) s = .next { s with dev := (s.dev.dropSnap who).genIntWrite who (v % 2 ^ 20) } := by
  change Host.Outcome.next (if _ then _ else s) = _
  rw [if_pos h]
  rfl

/-- Pool memory, banks, units and sessions are as before. -/
def Dev.UnitsSame (d e : Dev) : Prop := e.pool = d.pool ∧ e.banks = d.banks ∧ e.units = d.units ∧ e.sess = d.sess

/-! ## The accesses of the statement -/

theorem wmonWritten_cases (d : Dev) (v : Nat) :
    ∃ t, d.wmonWritten v = { d.wmonStored v with tim := t } := by
  unfold Dev.wmonWritten
  split
  · exact ⟨_, rfl⟩
  · exact ⟨_, rfl⟩

theorem get_wmonStored_window (d : Dev) (v : Nat) :
    (d.wmonStored v).get Bar.TIM_WMON_CTL_WINDOW_US = clampTo 1 1000 (slice v 9 0) := by
  rw [Dev.wmonStored, get_set_same]
  have hle : clampTo 1 1000 (slice v 9 0) ≤ 1000 := by
    unfold clampTo
    split
    · omega
    · split
      · omega
      · omega
  exact Nat.mod_eq_of_lt (Nat.lt_of_le_of_lt hle (by decide))

theorem flag_wmonStored_enable (d : Dev) (v : Nat) : (d.wmonStored v).flag Bar.TIM_WMON_CTL_ENABLE = v.testBit 10 := by
  have hne : (d.wmonStored v).get Bar.TIM_WMON_CTL_ENABLE = (v.testBit 10).toNat % 2 := by
    rw [Dev.wmonStored, get_set_disjoint _ Bar.TIM_WMON_CTL_WINDOW_US Bar.TIM_WMON_CTL_ENABLE _ _ _ rfl (.inr (by decide)),
      get_set_same, slice_bit]
    rfl
  rw [Dev.flag, hne]
  cases v.testBit 10 <;> rfl

theorem write_wmonCtl_completes (s : State) (v : Nat) (h : s.isReady) :
    Completes (.registerWrite .pf0 0x100018 4 v) s fun e =>
      e.get Bar.TIM_WMON_CTL_WINDOW_US = clampTo 1 1000 (slice v 9 0) ∧ e.flag Bar.TIM_WMON_CTL_ENABLE = v.testBit 10 ∧
        RegsBut [0x100018] s.dev e ∧ s.dev.UnitsSame e := by
  refine ⟨_, (exec_registerWrite_serving s _ _ _ _ (serves_of_ready h)).trans (by rw [barWrite_wmonCtl s v h]), ?_⟩
  obtain ⟨t, ht⟩ := wmonWritten_cases (s.dev.dropSnap .pf0) v
  rw [ht]
  refine ⟨?_, ?_, ?_, ?_⟩
  · rw [get_tdiGuard]
    exact get_wmonStored_window _ v
  · rw [Dev.flag, get_tdiGuard]
    exact flag_wmonStored_enable _ v
  · have hset : RegsBut [0x100018] s.dev ((s.dev.dropSnap .pf0).wmonStored v) :=
      ((RegsBut.set (regsBut_refl _ s.dev) _ _ 0 0 (by decide)).set _ _ 0 0 (by decide))
    exact hset.of_regs_eq (tdiGuard_regs _ _)
  · exact ⟨tdiGuard_pool _ _, tdiGuard_banks _ _, tdiGuard_units _ _, tdiGuard_sess _ _⟩

/-- A write to an offset that names no register is ignored. -/
theorem write_unnamed_ignored (s : State) (v : Nat) (h : s.isReady) :
    exec (.registerWrite .pf0 0x100 4 v) s = .next { s with dev := s.dev.dropSnap .pf0 } := by
  have hf : findReg 0x100 = none := rfl
  rw [exec_registerWrite_serving s _ _ _ _ (serves_of_ready h),
    barWrite_pf0_regs s _ _ h (by decide) (by decide) (by decide) (by decide)]
  simp [State.writeRegs, hf]
  rfl

theorem read_wrateClu_completes (s : State) (c : Nat) (h : s.isReady) (hc : c < 16) :
    Completes (.rcRead .pf0 (0x100100 + 8 * c) 8) s fun e =>
      e.out = s.dev.out ++ [.readData .pf0 (0x100100 + 8 * c) 8 (s.dev.word Bar.TIM_WRATE_CLU c % 2 ^ 64)] ∧
        e.get Bar.TIM_WRATE_CLU_LOWEST c = 65535 ∧ e.get Bar.TIM_WRATE_CLU_RATE c = s.dev.get Bar.TIM_WRATE_CLU_RATE c ∧
        RegsBut [0x100100 + 8 * c] s.dev e ∧ s.dev.UnitsSame e := by
  refine ⟨_, exec_rcRead_serving s _ _ _ (serves_of_ready h), ?_⟩
  obtain ⟨snap, hrd⟩ := barRead_wrateClu s.dev s.fuses c h hc
  rw [Dev.afterRead, hrd]
  have hkey : Bar.TIM_WRATE_CLU.key c 0 ∈ [0x100100 + 8 * c] := by simp [Reg.key, Bar.TIM_WRATE_CLU]
  refine ⟨rfl, get_set_same s.dev _ _ _ _, get_set_disjoint s.dev _ _ _ _ _ rfl (.inl (by decide)), ?_, rfl, rfl, rfl, rfl⟩
  exact ((regsBut_refl _ s.dev).set Bar.TIM_WRATE_CLU_LOWEST 65535 c 0 hkey).of_regs_eq rfl

theorem read_timNow_completes (s : State) (who : Requester) (h : s.isReady) (hwho : ∀ a, who ≠ .vf a) :
    Completes (.timNowRead who) s fun e =>
      e.out = s.dev.out ++ [.readData who 0x100000 4 (s.dev.now % 2 ^ 32)] ∧
        e.get Bar.TIM_NOW_HI_SHADOW_NS_HI = s.dev.now / 2 ^ 32 % 2 ^ 32 ∧ RegsBut [0x100008] s.dev e ∧ s.dev.UnitsSame e := by
  refine ⟨_, exec_timNowRead_serving s _ (serves_of_ready h), ?_⟩
  obtain ⟨snap, hrd⟩ := barRead_timNow s.dev s.fuses who h hwho
  rw [Dev.afterRead, hrd]
  refine ⟨rfl, get_set_same (s.dev.setSnap who snap) _ _ _ _, ?_, rfl, rfl, rfl, rfl⟩
  exact ((regsBut_refl _ s.dev).set Bar.TIM_NOW_HI_SHADOW_NS_HI (s.dev.now / 2 ^ 32) 0 0 (by decide)).of_regs_eq rfl

theorem write_genInt_gardener_completes (s : State) (die v : Nat) (h : s.dev.serves = true) :
    Completes (.genIntWrite (.gardener die) v) s fun e =>
      (∀ n, n < 20 → (e.get Bar.GEN_INT_PEND).testBit n = ((s.dev.get Bar.GEN_INT_PEND).testBit n && !v.testBit n)) ∧
        RegsBut [0x10] s.dev e ∧ s.dev.UnitsSame e ∧ e.out = s.dev.out ∧ e.power = s.dev.power := by
  refine ⟨_, exec_genIntWrite_serving s _ v h, ?_⟩
  rw [genIntWrite_gardener]
  refine ⟨testBit_pendCleared (s.dev.dropSnap (.gardener die)) v, ?_, ⟨rfl, rfl, rfl, rfl⟩, rfl, rfl⟩
  exact (regsBut_refl _ s.dev).set Bar.GEN_INT_PEND _ 0 0 (by decide)

theorem write_genInt_asPf0_completes (s : State) (who : Requester) (v b : Nat) (hold : AlertHold) (h : s.dev.serves = true)
    (hwho : asPf0 who = true) :
    Completes (.genIntWrite who v) s fun e =>
      (∀ n, n < 20 → (e.get Bar.GEN_INT_PEND).testBit n = ((s.dev.get Bar.GEN_INT_PEND).testBit n && !v.testBit n)) ∧
        RegsBut [0x10] s.dev e ∧ s.dev.UnitsSame e ∧ e.out = s.dev.out ∧
        (b < 20 → kvGet? s.dev.power.holds b = some hold →
          kvGet? e.power.holds b =
            if v.testBit b then (if hold.since + 1000000 ≤ s.dev.now then none else some { hold with acked := true })
            else some hold) := by
  refine ⟨_, exec_genIntWrite_serving s _ v h, ?_⟩
  rw [genIntWrite_asPf0 _ _ _ hwho]
  generalize hp : (s.dev.dropSnap who).pendCleared (v % 2 ^ 20) = p
  have hholds := holds_foldl_ackAlert (intBlocks (v % 2 ^ 20)) (nodup_intBlocks _) p b
  obtain ⟨hs, heq⟩ := foldl_ackAlert_eq (intBlocks (v % 2 ^ 20)) p
  rw [heq] at hholds ⊢
  have hbits := testBit_pendCleared (s.dev.dropSnap who) v
  have hregs : RegsBut [0x10] s.dev ((s.dev.dropSnap who).pendCleared (v % 2 ^ 20)) :=
    (regsBut_refl _ s.dev).set Bar.GEN_INT_PEND _ 0 0 (by decide)
  subst hp
  refine ⟨hbits, hregs.of_regs_eq rfl, ⟨rfl, rfl, rfl, rfl⟩, rfl, fun hb hk => ?_⟩
  rw [hholds]
  have hk2 : kvGet? ((s.dev.dropSnap who).pendCleared (v % 2 ^ 20)).power.holds b = some hold := hk
  rw [hk2, Option.bind_some]
  by_cases hv : v.testBit b = true
  · exact (if_pos ((mem_intBlocks b v hb).2 hv)).trans (if_pos hv).symm
  · exact (if_neg (mt (mem_intBlocks b v hb).1 hv)).trans (if_neg hv).symm

end Sys2Proof.Machine

section
open Sys2Proof Sys2Proof.Machine

/-- Settles O31: each clause is the lemma of its access. -/
theorem registerAccessesReadAndWrite : Obligations.RegisterAccessesReadAndWrite := by
  intro s who v c b h
  refine ⟨?_, ?_, ?_, ?_, ?_, ?_, ?_, ?_⟩
  · exact fun off size hs => ⟨exec_registerWrite_serving s who off size v hs, exec_rcRead_serving s who off size hs,
      exec_timNowRead_serving s who hs⟩
  · exact fun off size hsize => exec_registerWrite_narrow s who off size v hsize
  · exact fun hr => ⟨write_wmonCtl_completes s v hr, write_unnamed_ignored s v hr⟩
  · exact fun hr hc => read_wrateClu_completes s c hr hc
  · exact fun hr hwho => read_timNow_completes s who hr hwho
  · intro a hs
    rw [exec_genIntWrite_serving s (.vf a) v hs, genIntWrite_vf]
  · exact fun die hs => write_genInt_gardener_completes s die v hs
  · exact fun hs hwho => write_genInt_asPf0_completes s who v b h hs hwho
end
end

section
/-! SUPPORT. Lines of pool memory (R168, R169, R196): what a store within a page writes, and what the read of a sound line leaves
as it was. -/

namespace Sys2Proof.Machine

/-! ## The frame of a page -/

/-- The frame of a page depends on the page map and on the pages' homes and copies. -/
theorem frameOf_congr {d e : Dev} (hm : e.pool.pmap = d.pool.pmap)
    (hp : ∀ i, (kvGet? e.pool.pages i).bind Page.frame = (kvGet? d.pool.pages i).bind Page.frame) (pg : Nat) :
    e.frameOf pg = d.frameOf pg := by
  have hid : e.pageId pg = d.pageId pg := by rw [Dev.pageId, Dev.pageId, hm]
  simp only [Dev.frameOf, Dev.page?, hid]
  cases d.pageId pg with
  | none => rfl
  | some i => exact hp i

theorem frame_kvMod_dirty (m : Kv Page) (i j : Nat) :
    (kvGet? (kvMod m i fun p => { p with dirty := p.dirty || p.copy.isSome }) j).bind Page.frame =
      (kvGet? m j).bind Page.frame := by
  by_cases h : i = j
  · subst h
    rw [kvGet?_kvMod_same]
    cases kvGet? m i <;> rfl
  · rw [kvGet?_kvMod_ne _ _ _ _ h]

/-- A store marks the page's copy dirty: its frame stays. -/
theorem markDirty_pages (d : Dev) (pg : Nat) :
    ∃ ps : Kv Page, d.markDirty pg = { d with pool := { d.pool with pages := ps } } ∧
      ∀ i, (kvGet? ps i).bind Page.frame = (kvGet? d.pool.pages i).bind Page.frame := by
  unfold Dev.markDirty
  split
  · exact ⟨_, rfl, fun i => rfl⟩
  · exact ⟨_, rfl, frame_kvMod_dirty _ _⟩

/-! ## Stores -/

/-- The poison of a written line changes the poison marks and the flaws alone. -/
theorem writePoison_eq (d : Dev) (a n : Nat) (bad : Bool) (ln : Nat) :
    ∃ ps fl, d.writePoison a n bad ln = { d with pool := { d.pool with poison := ps, flaws := fl } } := by
  unfold Dev.writePoison Dev.poisonLine Dev.cleanLine
  split
  · split <;> exact ⟨_, _, rfl⟩
  · split
    · split <;> exact ⟨_, _, rfl⟩
    · exact ⟨_, _, rfl⟩

theorem foldl_writePoison_eq (lns : List Nat) (d : Dev) (a n : Nat) (bad : Bool) :
    ∃ ps fl, lns.foldl (fun d ln => d.writePoison a n bad ln) d =
      { d with pool := { d.pool with poison := ps, flaws := fl } } := by
  induction lns generalizing d with
  | nil => exact ⟨_, _, rfl⟩
  | cons ln lns ih =>
    obtain ⟨ps, fl, h⟩ := writePoison_eq d a n bad ln
    obtain ⟨ps2, fl2, h2⟩ := ih (d.writePoison a n bad ln)
    exact ⟨ps2, fl2, by rw [List.foldl_cons, h2, h]⟩

/-- The device with other pool memory. -/
def Dev.withPoolMem (d : Dev) (m : List Host.Cell) : Dev := { d with pool := { d.pool with mem := m } }

theorem poolStore_eq (d : Dev) (a f : Nat) (bs : List Byte) (hf : d.frameOf (pageOf a) = some f) :
    d.poolStore a bs = (d.withPoolMem (memWrites d.pool.mem (65536 * f + a % 65536) bs)).markDirty (pageOf a) := by
  rw [Dev.poolStore, hf]
  rfl

/-- A write within a page stores its bytes in the frame of the page; beside them it changes dirty marks, poison and flaws, and
every page keeps its frame. -/
theorem writePool_eq (d : Dev) (a f : Nat) (bs : List Byte) (bad : Bool) (hf : d.frameOf (pageOf a) = some f) :
    ∃ pgs ps fl,
      (d.writePool a bs bad).2 = { d with pool := { d.pool with
        mem := memWrites d.pool.mem (65536 * f + a % 65536) bs, pages := pgs, poison := ps, flaws := fl } } ∧
      ∀ pg, (d.writePool a bs bad).2.frameOf pg = d.frameOf pg := by
  obtain ⟨pgs, hd, hp⟩ := markDirty_pages (d.withPoolMem (memWrites d.pool.mem (65536 * f + a % 65536) bs)) (pageOf a)
  have hs := poolStore_eq d a f bs hf
  obtain ⟨ps, fl, hw⟩ := foldl_writePoison_eq (linesOf a bs.length) (d.poolStore a bs) a bs.length bad
  have he : (d.writePool a bs bad).2 = { d with pool := { d.pool with
      mem := memWrites d.pool.mem (65536 * f + a % 65536) bs, pages := pgs, poison := ps, flaws := fl } } := by
    rw [Dev.writePool, hw, hs, hd]
    rfl
  exact ⟨pgs, ps, fl, he, fun pg => frameOf_congr (by rw [he]) (by rw [he]; exact hp) pg⟩

/-- Bytes of one page read as stored. -/
theorem poolBytes_writePool (d : Dev) (a f : Nat) (bs : List Byte) (bad : Bool) (hf : d.frameOf (pageOf a) = some f)
    (hfit : a % 65536 + bs.length ≤ 65536) : (d.writePool a bs bad).2.poolBytes a bs.length = bs := by
  obtain ⟨pgs, ps, fl, he, hframe⟩ := writePool_eq d a f bs bad hf
  apply List.ext_getElem
  · simp [Dev.poolBytes]
  · intro i _ hi
    have hpg : pageOf (a + i) = pageOf a := by unfold pageOf; omega
    have hoff : 65536 * f + (a + i) % 65536 = 65536 * f + a % 65536 + i := by omega
    have hmem : (d.writePool a bs bad).2.pool.mem = memWrites d.pool.mem (65536 * f + a % 65536) bs := by rw [he]
    simp only [Dev.poolBytes, List.getElem_map, List.getElem_range, Dev.poolByte, hframe, hpg, hf, hmem, hoff]
    rw [memRead_memWrites_inside _ _ _ _ hi, List.getD_eq_getElem?_getD, List.getElem?_eq_getElem hi, Option.getD_some]

/-! ## Reads -/

/-- Two devices agree in all that a read of a sound line leaves alone: it may correct a flaw, which is counted. -/
def Dev.Corrected (d e : Dev) : Prop :=
  ∃ fl regs alm, e = { d with pool := { d.pool with flaws := fl }, regs := regs, alm := alm } ∧
    ∀ k, kvGet? fl k = kvGet? d.pool.flaws k ∨ kvGet? fl k = none

theorem flaw_of_sound {d : Dev} {ln k : Nat} (h : d.linePoisoned ln = false) (hk : d.lineKey ln = some k) :
    kvGet? d.pool.flaws k ≠ some true := by
  intro hf
  unfold Dev.linePoisoned at h
  rw [hk] at h
  split at h
  · next hk2 =>
    cases hk2
    simp [hf] at h
  · exact absurd h (by decide)

/-- The read of a line that is not poisoned. -/
theorem meetLine_corrected (d : Dev) (ln : Nat) (h : d.linePoisoned ln = false) : d.Corrected (d.meetLine ln) := by
  have hsame : d.Corrected d := ⟨_, _, _, rfl, fun k => .inl rfl⟩
  unfold Dev.meetLine
  cases hk : d.lineKey ln with
  | none => exact hsame
  | some k =>
    have hflaw := flaw_of_sound h hk
    dsimp only
    split
    · refine ⟨_, _, _, rfl, fun j => ?_⟩
      by_cases hj : k = j
      · subst hj; exact .inr (kvGet?_kvDel_same _ _)
      · exact .inl (kvGet?_kvDel_ne _ _ _ hj)
    · next hf _ => exact absurd hf hflaw
    · exact hsame

section Corrected

variable {d e : Dev} (h : d.Corrected e)
include h

theorem Dev.Corrected.nmus : e.nmus = d.nmus := by obtain ⟨_, _, _, rfl, _⟩ := h; rfl
theorem Dev.Corrected.banks : e.banks = d.banks := by obtain ⟨_, _, _, rfl, _⟩ := h; rfl
theorem Dev.Corrected.mem : e.pool.mem = d.pool.mem := by obtain ⟨_, _, _, rfl, _⟩ := h; rfl
theorem Dev.Corrected.frameOf (pg : Nat) : e.frameOf pg = d.frameOf pg := by obtain ⟨_, _, _, rfl, _⟩ := h; rfl
theorem Dev.Corrected.poolBytes (a n : Nat) : e.poolBytes a n = d.poolBytes a n := by obtain ⟨_, _, _, rfl, _⟩ := h; rfl

/-- A sound line stays sound. -/
theorem Dev.Corrected.linePoisoned {ln : Nat} (hs : d.linePoisoned ln = false) : e.linePoisoned ln = false := by
  obtain ⟨fl, regs, alm, rfl, hfl⟩ := h
  unfold Dev.linePoisoned at hs ⊢
  have hpage : ({ d with pool := { d.pool with flaws := fl }, regs := regs, alm := alm } : Dev).page? (ln / 512) =
    d.page? (ln / 512) := rfl
  have hkey : ({ d with pool := { d.pool with flaws := fl }, regs := regs, alm := alm } : Dev).lineKey ln = d.lineKey ln := rfl
  rw [hpage, hkey]
  split at hs
  · next p k hp hk =>
    have hret : ∀ f, ({ d with pool := { d.pool with flaws := fl }, regs := regs, alm := alm } : Dev).frameRetired f =
      d.frameRetired f := fun f => rfl
    simp only [Bool.or_eq_false_iff] at hs ⊢
    obtain ⟨⟨⟨hpo, hmark⟩, hflaw⟩, hr⟩ := hs
    refine ⟨⟨⟨hpo, hmark⟩, ?_⟩, (hret _).trans hr⟩
    rcases hfl k with hk2 | hk2
    · simp only [hk2]; exact hflaw
    · simp only [hk2]; rfl
  · exact absurd hs (by decide)

end Corrected

end Sys2Proof.Machine
end

section
/-! SUPPORT. Near-memory units: one line of a command (R178, R180, R182) and the burst that performs a command's only line
(R174). -/

namespace Sys2Proof.Machine

/-! ## Descriptor fields -/

/-- The destination of every operation but ATOMIC starts a line. -/
theorem nmuDst_line (ws : List Nat) (h : nmuOp ws ≠ 5) : 128 * (nmuDst ws / 128) = nmuDst ws := by
  simp only [nmuDst, if_neg h, alignDown]
  omega

theorem toLe_length (n x : Nat) : (toLe n x).length = n := by
  induction n generalizing x with
  | zero => rfl
  | succ n ih => rw [toLe, List.length_cons, ih]

theorem patternLine_length (x : Nat) : (patternLine x).length = 128 := by
  simp [patternLine, toLe_length]

theorem nmuSize_pos (ws : List Nat) : 0 < nmuSize ws := by
  simp only [nmuSize]
  exact Nat.mul_pos (by decide) (Nat.two_pow_pos _)

/-! ## One line of a command -/

/-- A command with one more line done, none of it poisoned. -/
def NmuCmd.Advanced (c c1 : NmuCmd) (parts : Kv Nat) (mism : Nat) : Prop :=
  c1.done = c.done + 1 ∧ c1.poison = c.poison ∧ c1.parts = parts ∧ c1.mism = mism

theorem nmuLine_fill (d : Dev) (n : Nat) (c : NmuCmd) (i : Nat) (hop : nmuOp c.words = 1) :
    c.Advanced (d.nmuLine n c i).1 c.parts c.mism ∧
      (d.nmuLine n c i).2 = (d.writePool (128 * (nmuDst c.words / 128 + i)) (patternLine (nmuOperand c.words)) false).2 := by
  simp [NmuCmd.Advanced, Dev.nmuLine, hop, nmuReads, Dev.meetLines]

/-- COMPARE with the operand counts a line whose bytes differ (R178). -/
theorem nmuLine_compare (d : Dev) (n : Nat) (c : NmuCmd) (i : Nat) (hop : nmuOp c.words = 3)
    (hfl : nmuFlags c.words % 2 = 1) (hs : d.linePoisoned (nmuDst c.words / 128 + i) = false) :
    c.Advanced (d.nmuLine n c i).1 c.parts
        (c.mism + if d.lineBytes (nmuDst c.words / 128 + i) = patternLine (nmuOperand c.words) then 0 else 1) ∧
      d.Corrected (d.nmuLine n c i).2 := by
  have hc := meetLine_corrected d _ hs
  have hrd : nmuReads c.words = false := by simp [nmuReads, hop, hfl]
  have hbytes : (d.meetLine (nmuDst c.words / 128 + i)).lineBytes (nmuDst c.words / 128 + i) =
      d.lineBytes (nmuDst c.words / 128 + i) := hc.poolBytes _ _
  have hsound := hc.linePoisoned hs
  by_cases heq : d.lineBytes (nmuDst c.words / 128 + i) = patternLine (nmuOperand c.words)
  · simp [NmuCmd.Advanced, Dev.nmuLine, hop, hrd, Dev.meetLines, hsound, hbytes, heq, hc]
  · simp [NmuCmd.Advanced, Dev.nmuLine, hop, hrd, Dev.meetLines, hsound, hbytes, heq, hc, NmuCmd.mismatch]

theorem rangePoisoned_eq_false (d : Dev) (a n : Nat) :
    d.rangePoisoned a n = false ↔ ∀ ln ∈ linesOf a n, d.linePoisoned ln = false := by
  simp [Dev.rangePoisoned]

theorem Dev.Corrected.rangePoisoned {d e : Dev} (h : d.Corrected e) {a n : Nat} (hs : d.rangePoisoned a n = false) :
    e.rangePoisoned a n = false := by
  rw [rangePoisoned_eq_false] at hs ⊢
  exact fun ln hln => h.linePoisoned (hs ln hln)

theorem mem_linesOf_first (a n : Nat) (hn : 0 < n) : a / 128 ∈ linesOf a n := by
  rw [linesOf, if_neg (by omega), List.mem_map]
  exact ⟨0, List.mem_range.2 (by omega), Nat.zero_add _⟩

/-- The bytes that an ATOMIC stores: AOP of the old word (R182). -/
def Dev.atomicBytes (d : Dev) (ws : List Nat) : List Byte :=
  toLe (nmuSize ws) (aop (nmuType ws) (nmuSize ws) (leNat (d.poolBytes (nmuDst ws) (nmuSize ws)))
    (nmuOperand ws % 256 ^ nmuSize ws) (nmuCompare ws % 256 ^ nmuSize ws))

/-- ATOMIC keeps the old word for its record. -/
theorem nmuLine_atomic (d : Dev) (n : Nat) (c : NmuCmd) (hop : nmuOp c.words = 5)
    (hs : d.rangePoisoned (nmuDst c.words) (nmuSize c.words) = false) :
    c.Advanced (d.nmuLine n c 0).1 [(0, leNat (d.poolBytes (nmuDst c.words) (nmuSize c.words)))] c.mism ∧
      ∃ e, d.Corrected e ∧ (d.nmuLine n c 0).2 = (e.writePool (nmuDst c.words) (d.atomicBytes c.words) false).2 := by
  have hline := (rangePoisoned_eq_false _ _ _).1 hs _ (mem_linesOf_first _ _ (nmuSize_pos c.words))
  have hc := meetLine_corrected d _ hline
  have hrd : nmuReads c.words = false := by simp [nmuReads, hop]
  constructor
  · simp [NmuCmd.Advanced, Dev.nmuLine, hop, hrd, Dev.meetLines, hc.rangePoisoned hs, hc.poolBytes]
  · exact ⟨_, hc, by
      simp [Dev.nmuLine, hop, hrd, Dev.meetLines, hc.rangePoisoned hs, hc.poolBytes, Dev.atomicBytes]⟩

/-! ## The burst of a command's only line -/

/-- NMU `n` is free and command `id`, the only one, has its line 0 to do there; nothing keeps it from starting. -/
def State.FirstBurst (s : State) (n id fr : Nat) (c : NmuCmd) : Prop :=
  s.isRunning ∧ n < 384 ∧ s.dev.nmus.cmds = [(id, c)] ∧ s.dev.nmus.burst = [] ∧ c.left = [0] ∧
    s.dev.burstLines n c = [0] ∧ s.dev.nmuHeld c = false ∧
    (nmuExempt c.src c.words = true ∨ s.dev.inReset (nmuAllot c.words) = false) ∧
    s.dev.frameOf (pageOf (nmuDst c.words)) = some fr

/-- The burst that the grant starts: its one line is processed. -/
def Dev.onlyBurst (d : Dev) (n id : Nat) (c : NmuCmd) : Burst :=
  { cmd := id, start := d.now, pace := 1496, done := 1, todo := [], chans := n :: d.lineChans c [0] }

/-- The first line of a burst of the only command, which has no other line to do. -/
theorem burstDo_only (d : Dev) (n id : Nat) (c : NmuCmd) (b : Burst) (hcmds : d.nmus.cmds = [(id, c)])
    (hburst : d.nmus.burst = []) (hleft : c.left = [0]) (hb : b.cmd = id) (htodo : b.todo = [0])
    (hn : (d.nmuLine n c 0).2.nmus = d.nmus) :
    d.burstDo n b [0] = { (d.nmuLine n c 0).2 with nmus := { d.nmus with
      cmds := [(id, { (d.nmuLine n c 0).1 with left := [] })]
      burst := [(n, { b with done := b.done + 1, todo := [] })] } } := by
  have hget : kvGet? d.nmus.cmds id = some c := by rw [hcmds, kvGet?, if_pos rfl]
  simp only [Dev.burstDo, hb, hget]
  simp only [List.foldl_cons, List.foldl_nil, hn, hcmds, hburst, hleft, htodo, kvPut, if_true]
  rfl

/-- The grant of the only command performs its line, and leaves a burst without lines to do. -/
theorem burstGrant_only (s : State) (n id fr : Nat) (c : NmuCmd) (h : s.FirstBurst n id fr c)
    (hrd : nmuReads c.words = false) (hn : (s.dev.nmuLine n c 0).2.nmus = s.dev.nmus) :
    s.dev.burstGrant n id = { (s.dev.nmuLine n c 0).2 with nmus := { s.dev.nmus with
      cmds := [(id, { (s.dev.nmuLine n c 0).1 with left := [] })], burst := [(n, s.dev.onlyBurst n id c)]
      token := kvPut s.dev.nmus.token n c.src } } := by
  obtain ⟨_, _, hcmds, hburst, hleft, hlines, hheld, hreset, _⟩ := h
  have hget : kvGet? s.dev.nmus.cmds id = some c := by rw [hcmds, kvGet?, if_pos rfl]
  have hfree : (s.dev.inReset (nmuAllot c.words) && !nmuExempt c.src c.words) = false := by
    rcases hreset with hr | hr <;> simp [hr]
  have hready : s.dev.nmuReady n id c = true := by
    simp [Dev.nmuReady, hlines, Dev.nmuBehind, hcmds, hheld, hfree, hburst]
  have hturn : s.dev.nmuTurn n c.src = true := by simp [Dev.nmuTurn, hcmds]
  have hpace : s.dev.linePace c (s.dev.burstLines n c) = (1496, s.dev) := by simp [Dev.linePace, hrd]
  have htake : [0].take ((2000000 + 1496 - 1) / 1496) = [0] := rfl
  have hone : [0].take 1 = [0] := rfl
  simp only [Dev.burstGrant, hget, hready, hturn, hpace]
  simp only [Bool.not_true, Bool.or_self, Bool.false_eq_true, if_false, hlines, htake, hone]
  rw [burstDo_only s.dev n id c _ hcmds hburst hleft rfl rfl hn]
  rfl

/-- What a device holds once the only line of a command is processed: the burst without lines to do, the banks as before, and
the command with its line counted. -/
def Dev.LineDone (d e : Dev) (n id : Nat) (c : NmuCmd) (parts : Kv Nat) (mism : Nat) : Prop :=
  e.nmus.burst = [(n, d.onlyBurst n id c)] ∧ e.banks = d.banks ∧
    ∃ c1 : NmuCmd, e.nmus.cmds = [(id, c1)] ∧ c1.left = [] ∧ c1.done = c.done + 1 ∧ c1.poison = c.poison ∧
      c1.parts = parts ∧ c1.mism = mism

theorem exec_nmuBurstGrant (s : State) (n id : Nat) (hr : s.isRunning) (hn : n < 384) :
    exec (.nmuBurstGrant n id) s = .next { s with dev := s.dev.burstGrant n id } := by
  change Host.Outcome.next (s.live _) = _
  rw [live_running _ _ hr, State.onDev, if_pos hn]

/-- The grant performs the line. -/
theorem grant_completes (s : State) (n id fr : Nat) (c : NmuCmd) (h : s.FirstBurst n id fr c)
    (hrd : nmuReads c.words = false) (hn : (s.dev.nmuLine n c 0).2.nmus = s.dev.nmus)
    (hb : (s.dev.nmuLine n c 0).2.banks = s.dev.banks) (parts : Kv Nat) (mism : Nat)
    (hadv : c.Advanced (s.dev.nmuLine n c 0).1 parts mism) :
    Completes (.nmuBurstGrant n id) s fun e =>
      s.dev.LineDone e n id c parts mism ∧ e.pool = (s.dev.nmuLine n c 0).2.pool := by
  have hgrant := burstGrant_only s n id fr c h hrd hn
  obtain ⟨hrun, hlt, _⟩ := h
  obtain ⟨hdone, hpoison, hparts, hmism⟩ := hadv
  refine ⟨s.dev.burstGrant n id, exec_nmuBurstGrant s n id hrun hlt, ?_⟩
  rw [hgrant]
  exact ⟨⟨rfl, hb, _, rfl, rfl, hdone, hpoison, hparts, hmism⟩, rfl⟩

theorem State.FirstBurst.frame {s : State} {n id fr : Nat} {c : NmuCmd} (h : s.FirstBurst n id fr c) :
    s.dev.frameOf (pageOf (nmuDst c.words)) = some fr := by
  obtain ⟨_, _, _, _, _, _, _, _, hf⟩ := h
  exact hf

theorem poolBytes_of_pool {d e : Dev} (h : e.pool = d.pool) (a n : Nat) : e.poolBytes a n = d.poolBytes a n := by
  simp only [Dev.poolBytes, Dev.poolByte, Dev.frameOf, Dev.page?, Dev.pageId, h]

theorem grant_fill_completes (s : State) (n id fr : Nat) (c : NmuCmd) (h : s.FirstBurst n id fr c)
    (hop : nmuOp c.words = 1) :
    Completes (.nmuBurstGrant n id) s fun e => s.dev.LineDone e n id c c.parts c.mism ∧
      e.pool.mem = memWrites s.dev.pool.mem (65536 * fr + nmuDst c.words % 65536) (patternLine (nmuOperand c.words)) ∧
      e.poolBytes (nmuDst c.words) 128 = patternLine (nmuOperand c.words) := by
  have hdst := nmuDst_line c.words (by rw [hop]; decide)
  obtain ⟨hadv, hline⟩ := nmuLine_fill s.dev n c 0 hop
  rw [Nat.add_zero, hdst] at hline
  have hlen := patternLine_length (nmuOperand c.words)
  obtain ⟨pgs, ps, fl, he, _⟩ := writePool_eq s.dev _ fr (patternLine (nmuOperand c.words)) false h.frame
  have hbytes := poolBytes_writePool s.dev _ fr (patternLine (nmuOperand c.words)) false h.frame (by rw [hlen]; omega)
  rw [hlen] at hbytes
  have hrd : nmuReads c.words = false := by simp [nmuReads, hop]
  refine (grant_completes s n id fr c h hrd (by rw [hline, he]) (by rw [hline, he]) _ _ hadv).imp ?_
  rintro e ⟨hdone, hpool⟩
  rw [hline] at hpool
  exact ⟨hdone, by rw [hpool, he], (poolBytes_of_pool hpool _ _).trans hbytes⟩

theorem grant_compare_completes (s : State) (n id fr : Nat) (c : NmuCmd) (h : s.FirstBurst n id fr c)
    (hop : nmuOp c.words = 3) (hfl : nmuFlags c.words % 2 = 1) (hs : s.dev.linePoisoned (nmuDst c.words / 128) = false) :
    Completes (.nmuBurstGrant n id) s fun e =>
      s.dev.LineDone e n id c c.parts
        (c.mism + if s.dev.lineBytes (nmuDst c.words / 128) = patternLine (nmuOperand c.words) then 0 else 1) ∧
      e.pool.mem = s.dev.pool.mem := by
  obtain ⟨hadv, hc⟩ := nmuLine_compare s.dev n c 0 hop hfl hs
  have hrd : nmuReads c.words = false := by simp [nmuReads, hop, hfl]
  refine (grant_completes s n id fr c h hrd hc.nmus hc.banks _ _ hadv).imp ?_
  rintro e ⟨hdone, hpool⟩
  exact ⟨hdone, by rw [hpool, hc.mem]⟩

theorem grant_atomic_completes (s : State) (n id fr : Nat) (c : NmuCmd) (h : s.FirstBurst n id fr c)
    (hop : nmuOp c.words = 5) (hs : s.dev.rangePoisoned (nmuDst c.words) (nmuSize c.words) = false) :
    Completes (.nmuBurstGrant n id) s fun e =>
      s.dev.LineDone e n id c [(0, leNat (s.dev.poolBytes (nmuDst c.words) (nmuSize c.words)))] c.mism ∧
      e.pool.mem = memWrites s.dev.pool.mem (65536 * fr + nmuDst c.words % 65536) (s.dev.atomicBytes c.words) := by
  obtain ⟨hadv, e, hc, hline⟩ := nmuLine_atomic s.dev n c hop hs
  obtain ⟨pgs, ps, fl, he, _⟩ := writePool_eq e _ fr (s.dev.atomicBytes c.words) false ((hc.frameOf _).trans h.frame)
  have hrd : nmuReads c.words = false := by simp [nmuReads, hop]
  refine (grant_completes s n id fr c h hrd (by rw [hline, he]; exact hc.nmus) (by rw [hline, he]; exact hc.banks) _ _
    hadv).imp ?_
  rintro g ⟨hdone, hpool⟩
  exact ⟨hdone, by rw [hpool, hline, he, hc.mem]⟩

end Sys2Proof.Machine
end

section
/-! SUPPORT. Near-memory units: the completion record (R183) and the issue of commands (R170, R172, R173). -/

namespace Sys2Proof.Machine

/-! ## The completion record -/

/-- A field of a register that a write did not reach. -/
theorem RegsBut.get {ks : List Nat} {d e : Dev} (h : RegsBut ks d e) (f : Fld) (k l : Nat) (hk : f.reg.key k l ∉ ks) :
    e.get f k l = d.get f k l := by
  simp only [Dev.get, Dev.word, kvGetD, h _ hk]

theorem key_record (w i : Nat) : Bar.NMU_CMD_REC.key w i = 0xA00080 + 0x100 * w + 4 * i := rfl

/-- The offsets of a window's record. -/
def recordKeys (w : Nat) : List Nat := (List.range 9).map (Bar.NMU_CMD_REC.key w)

theorem mem_recordKeys (w i : Nat) (h : i < 9) : Bar.NMU_CMD_REC.key w i ∈ recordKeys w :=
  List.mem_map_of_mem (List.mem_range.2 h)

theorem not_mem_recordKeys (w o : Nat) (hw : w < 3) (ho : o < 0xA00080 ∨ 0xA002A0 < o) : o ∉ recordKeys w := by
  simp only [recordKeys, List.mem_map, List.mem_range, not_exists, not_and, key_record]
  intro i hi
  omega

theorem get_record_ne (d : Dev) (x w i j : Nat) (h : i ≠ j) :
    (d.set Bar.NMU_CMD_REC_WORD x w i).get Bar.NMU_CMD_REC_WORD w j = d.get Bar.NMU_CMD_REC_WORD w j := by
  apply get_set_ne
  change Bar.NMU_CMD_REC.key w i ≠ Bar.NMU_CMD_REC.key w j
  rw [key_record, key_record]
  omega

theorem get_record_same (d : Dev) (x w i : Nat) :
    (d.set Bar.NMU_CMD_REC_WORD x w i).get Bar.NMU_CMD_REC_WORD w i = x % 2 ^ 32 := get_set_same _ _ _ _ _

/-- Words written to a window's record, from word `k` on. -/
def Dev.putNmuRecord (d : Dev) (w k : Nat) (xs : List Nat) : Dev :=
  (xs.zipIdx k).foldl (fun d e => d.set Bar.NMU_CMD_REC_WORD e.1 w e.2) d

theorem putNmuRecord_cons (d : Dev) (w k x : Nat) (xs : List Nat) :
    d.putNmuRecord w k (x :: xs) = (d.set Bar.NMU_CMD_REC_WORD x w k).putNmuRecord w (k + 1) xs := rfl

/-- Each word of a record reads as written; the others stay. -/
theorem get_putNmuRecord (d : Dev) (w k j : Nat) (xs : List Nat) :
    (d.putNmuRecord w k xs).get Bar.NMU_CMD_REC_WORD w j =
      if k ≤ j ∧ j < k + xs.length then xs.getD (j - k) 0 % 2 ^ 32 else d.get Bar.NMU_CMD_REC_WORD w j := by
  induction xs generalizing d k with
  | nil =>
    rw [if_neg (by simp)]
    rfl
  | cons x xs ih =>
    rw [putNmuRecord_cons, ih]
    by_cases hj : k = j
    · subst hj
      rw [if_neg (by omega), if_pos (by simp), get_record_same, Nat.sub_self, List.getD_cons_zero]
    · rw [get_record_ne _ _ _ _ _ hj]
      by_cases hin : k + 1 ≤ j ∧ j < k + 1 + xs.length
      · have hsub : j - k = j - (k + 1) + 1 := by omega
        rw [if_pos hin, if_pos (by simp only [List.length_cons]; omega), hsub, List.getD_cons_succ]
      · rw [if_neg hin, if_neg (by simp only [List.length_cons]; omega)]

/-- Writing a record changes its registers and nothing else. -/
theorem putNmuRecord_frame (d : Dev) (w k : Nat) (xs : List Nat) (h : k + xs.length ≤ 9) :
    RegsBut (recordKeys w) d (d.putNmuRecord w k xs) ∧ ∃ regs, d.putNmuRecord w k xs = { d with regs := regs } := by
  induction xs generalizing d k with
  | nil => exact ⟨regsBut_refl _ d, _, rfl⟩
  | cons x xs ih =>
    rw [List.length_cons] at h
    obtain ⟨hb, regs, hr⟩ := ih (d.set Bar.NMU_CMD_REC_WORD x w k) (k + 1) (by omega)
    have hset := (regsBut_refl (recordKeys w) d).set Bar.NMU_CMD_REC_WORD x w k (mem_recordKeys w k (by omega))
    rw [putNmuRecord_cons]
    exact ⟨fun o ho => (hb o ho).trans (hset o ho), regs, hr⟩

theorem nmuReport_window (d : Dev) (c : NmuCmd) (st r : Nat) (h : c.src < 3) :
    d.nmuReport c st r = (d.putNmuRecord c.src 0 (nmuRecord c st r)).set Bar.NMU_CMD_REC_WORD 0x80000000 c.src 8 := by
  rw [Dev.nmuReport, if_pos h]
  rfl

theorem nmuRecord_length (c : NmuCmd) (st r : Nat) : (nmuRecord c st r).length = 8 := rfl

/-- A report to a window sets DONE. -/
theorem done_nmuReport (d : Dev) (c : NmuCmd) (st r : Nat) (h : c.src < 3) :
    (d.nmuReport c st r).get Bar.NMU_CMD_REC_WORD c.src 8 = 0x80000000 := by
  rw [nmuReport_window d c st r h, get_record_same, Nat.mod_eq_of_lt (by decide)]

/-- A report to a window writes the words of the record. -/
theorem get_nmuReport (d : Dev) (c : NmuCmd) (st r j : Nat) (h : c.src < 3) (hj : j < 8) :
    (d.nmuReport c st r).get Bar.NMU_CMD_REC_WORD c.src j = (nmuRecord c st r).getD j 0 % 2 ^ 32 := by
  rw [nmuReport_window d c st r h, get_record_ne _ _ _ _ _ (by omega), get_putNmuRecord,
    if_pos ⟨by omega, by rw [nmuRecord_length]; omega⟩, Nat.sub_zero]

/-- A report to a window changes its record's registers and nothing else. -/
theorem nmuReport_frame (d : Dev) (c : NmuCmd) (st r : Nat) (h : c.src < 3) :
    RegsBut (recordKeys c.src) d (d.nmuReport c st r) ∧ ∃ regs, d.nmuReport c st r = { d with regs := regs } := by
  obtain ⟨hb, regs, hr⟩ := putNmuRecord_frame d c.src 0 (nmuRecord c st r) (by rw [nmuRecord_length]; omega)
  rw [nmuReport_window d c st r h]
  exact ⟨hb.set _ _ _ _ (mem_recordKeys _ 8 (by omega)), _, by rw [hr]; rfl⟩

/-! ## What the issue of a command reads -/

/-- The two devices agree in what the checks of R172 read: the pool, the sessions, the objects, and the registers of versioned
regions and allotments, which lie above the records of the windows. -/
structure Dev.IssueSame (d e : Dev) : Prop where
  pool : e.pool = d.pool
  sess : e.sess = d.sess
  obj : ∀ (f : Fld) (k : Nat), f.reg = Bar.MEM_OBJ → 32 ≤ f.lo → e.get f k = d.get f k
  above : ∀ (f : Fld) (k l : Nat), 0xA002A0 < f.reg.base → e.get f k l = d.get f k l

theorem slice_eq_zero {w lo : Nat} (hi : Nat) (h : w < 2 ^ lo) : slice w hi lo = 0 := by
  rw [slice, Nat.shiftRight_eq_div_pow, Nat.div_eq_of_lt h, Nat.zero_mod]

/-- An object's fields above bit 31 do not see a write of a record, even of one that an object number beyond MEM_OBJ would
place at the same offset. -/
theorem get_obj_set_record (d : Dev) (x w i k : Nat) (f : Fld) (hf : f.reg = Bar.MEM_OBJ) (hlo : 32 ≤ f.lo) :
    (d.set Bar.NMU_CMD_REC_WORD x w i).get f k = d.get f k := by
  by_cases hk : Bar.NMU_CMD_REC.key w i = Bar.MEM_OBJ.key k 0
  · have hnew : (d.set Bar.NMU_CMD_REC_WORD x w i).word Bar.MEM_OBJ k =
        splice (d.word Bar.NMU_CMD_REC w i) 31 0 x := by
      rw [Dev.word, ← hk]
      exact kvGetD_kvPut_same _ _ _ _
    have hold : slice (d.word Bar.NMU_CMD_REC w i) f.hi f.lo = slice (d.word Bar.MEM_OBJ k) f.hi f.lo := by
      rw [Dev.word, Dev.word, ← hk, kvGetD, kvGetD]
      cases kvGet? d.regs (Bar.NMU_CMD_REC.key w i) with
      | some y => rfl
      | none =>
        have hpow : 2 ^ 32 ≤ 2 ^ f.lo := Nat.pow_le_pow_right (by decide) hlo
        have hr : Bar.NMU_CMD_REC.reset w i < 2 ^ 32 := by
          have he : Bar.NMU_CMD_REC.reset w i = if i = 8 then 0x80000000 else 0 := rfl
          rw [he]; split <;> decide
        have ho : Bar.MEM_OBJ.reset k 0 = 0 := rfl
        rw [Option.getD_none, Option.getD_none, ho, slice_eq_zero _ (by omega), slice_eq_zero _ (Nat.two_pow_pos _)]
    rw [Dev.get, Dev.get, hf, hnew, slice_splice_disjoint _ _ _ _ _ _ (.inr (by omega)), hold]
  · exact get_set_ne _ _ _ _ _ _ _ _ (by rw [hf]; exact hk)

theorem issueSame_set_record (d : Dev) (x w i : Nat) (hw : w < 3) (hi : i < 9) :
    d.IssueSame (d.set Bar.NMU_CMD_REC_WORD x w i) where
  pool := rfl
  sess := rfl
  obj f k hf hlo := get_obj_set_record d x w i k f hf hlo
  above f k l hf := by
    apply get_set_ne
    change Bar.NMU_CMD_REC.key w i ≠ _
    rw [key_record, Reg.key]
    omega

section IssueSame

variable {d e : Dev} (h : d.IssueSame e)
include h

theorem Dev.IssueSame.aboveFlag (f : Fld) (k : Nat) (hf : 0xA002A0 < f.reg.base) : e.flag f k = d.flag f k := by
  rw [Dev.flag, Dev.flag, h.above f k 0 hf]

theorem Dev.IssueSame.inReset (a : Nat) : e.inReset a = d.inReset a := by
  rw [Dev.inReset, Dev.inReset, Dev.altState, Dev.altState, h.above Bar.ALT_CFG_STATE a 0 (by decide)]

theorem Dev.IssueSame.objOf (pg : Nat) : e.objOf pg = d.objOf pg := by
  have hb := fun n => h.obj Bar.MEM_OBJ_BASE_PAGE n rfl (by decide)
  have hp := fun n => h.obj Bar.MEM_OBJ_PAGES n rfl (by decide)
  simp only [Dev.objOf, h.pool, hb, hp]

theorem Dev.IssueSame.inObjects (a addr len : Nat) : e.inObjects a addr len = d.inObjects a addr len := by
  have ha := fun n => h.obj Bar.MEM_OBJ_ALLOT n rfl (by decide)
  simp only [Dev.inObjects, h.objOf, ha]

theorem Dev.IssueSame.viewSlot (pg : Nat) : e.viewSlot pg = d.viewSlot pg := by
  have hb := fun n => h.obj Bar.MEM_OBJ_BASE_PAGE n rfl (by decide)
  have hp := fun n => h.obj Bar.MEM_OBJ_PAGES n rfl (by decide)
  have hv : ∀ n, e.flag Bar.MEM_OBJ_VERSIONED n = d.flag Bar.MEM_OBJ_VERSIONED n := fun n => by
    rw [Dev.flag, Dev.flag, h.obj Bar.MEM_OBJ_VERSIONED n rfl (by decide)]
  have ho := fun r => h.above Bar.VER_REGION_VIEW_OBJ r 0 (by decide)
  have hw := fun r => h.above Bar.VER_REGION_WORK_OBJ r 0 (by decide)
  simp only [Dev.viewSlot, Dev.viewRegion, h.objOf, hb, hp, hv, h.aboveFlag Bar.VER_REGION_VALID _ (by decide), ho, hw]

theorem Dev.IssueSame.publishing (addr : Nat) : e.publishing addr = d.publishing addr := by
  have hw := fun r => h.above Bar.VER_REGION_WORK_OBJ r 0 (by decide)
  have hreg : e.workRegion = d.workRegion := by
    funext n
    simp only [Dev.workRegion, h.aboveFlag Bar.VER_REGION_VALID _ (by decide), hw]
  simp only [Dev.publishing, h.objOf, hreg, h.aboveFlag Bar.VER_REGION_PUBLISHING _ (by decide)]

theorem Dev.IssueSame.sesOwned (addr len : Nat) : e.sesOwned addr len = d.sesOwned addr len := by
  have hses : ∀ id f, e.ses id f = d.ses id f := fun id f => by simp only [Dev.ses, Dev.sesWord, h.sess]
  have hp := fun n => h.obj Bar.MEM_OBJ_PAGES n rfl (by decide)
  simp only [Dev.sesOwned, Dev.offH, Dev.offM, Dev.offS, Dev.massSize, Dev.sesLayers, Dev.sesKvh, Dev.sesD, hses, hp, h.sess]

theorem Dev.IssueSame.nmuLines (ws : List Nat) : e.nmuLines ws = d.nmuLines ws := by
  have hb := fun n => h.obj Bar.MEM_OBJ_BASE_PAGE n rfl (by decide)
  have hp := fun n => h.obj Bar.MEM_OBJ_PAGES n rfl (by decide)
  simp only [Dev.nmuLines, h.objOf, hb, hp]

theorem Dev.IssueSame.inT1 : e.inT1 = d.inT1 := by
  funext pg
  simp only [Dev.inT1, Dev.frameOf, Dev.page?, Dev.pageId, h.pool]

theorem Dev.IssueSame.shared : e.shared = d.shared := by
  funext pg
  simp only [Dev.shared, Dev.page?, Dev.pageId, h.pool]

theorem Dev.IssueSame.nmuRefused (src : Nat) (ws : List Nat) : e.nmuRefused src ws = d.nmuRefused src ws := by
  have hslot := fun r s => h.above Bar.VER_SLOT_STATE r s (by decide)
  simp only [Dev.nmuRefused, h.inReset, h.nmuLines, h.inObjects, h.viewSlot, h.sesOwned, h.inT1, hslot]

theorem Dev.IssueSame.nmuCmd (src a ctr gen : Nat) (ws : List Nat) :
    e.nmuCmd src a ctr gen ws = d.nmuCmd src a ctr gen ws := by
  simp only [Dev.nmuCmd, h.nmuLines, h.publishing]

end IssueSame

/-! ## Issue -/

/-- No page of the destination is shared, so no copy comes before the first burst. -/
def Dev.nothingShared (d : Dev) (ws : List Nat) : Prop :=
  (pagesFrom (nmuDst ws) (d.nmuLines ws)).filter d.shared = []

theorem nmuCow_nothingShared (d : Dev) (ws : List Nat) (h : d.nothingShared ws) : d.nmuCow ws = some d := by
  have hf : (pagesFrom (nmuDst ws) (d.nmuLines ws)).filter d.shared = [] := h
  simp only [Dev.nmuCow, hf, List.foldl_nil, ite_self]

/-- The command enters the dispatcher. -/
def Dev.entered (d : Dev) (c : NmuCmd) : Dev :=
  { d with nmus := { d.nmus with cmds := kvPut d.nmus.cmds d.nmus.next c, next := d.nmus.next + 1 } }

theorem nmuIssue_enters (d : Dev) (src a ctr gen : Nat) (ws : List Nat) (hop : 1 ≤ nmuOp ws ∧ nmuOp ws ≤ 5)
    (hr : d.nmuRefused src ws = none) (hs : d.nothingShared ws) :
    d.nmuIssue src a ctr gen ws = d.entered (d.nmuCmd src a ctr gen ws) := by
  have hn : ¬(nmuOp ws = 0 ∨ 5 < nmuOp ws) := by omega
  rw [Dev.nmuIssue, if_neg hn, hr, nmuCow_nothingShared d ws hs]
  rfl

theorem nmuIssue_refused (d : Dev) (src a ctr gen st : Nat) (ws : List Nat) (hop : 1 ≤ nmuOp ws ∧ nmuOp ws ≤ 5)
    (hr : d.nmuRefused src ws = some st) :
    d.nmuIssue src a ctr gen ws = d.nmuReport (d.nmuCmd src a ctr gen ws) st 0 := by
  have hn : ¬(nmuOp ws = 0 ∨ 5 < nmuOp ws) := by omega
  rw [Dev.nmuIssue, if_neg hn, hr]

/-! ## Commands of a window -/

/-- The descriptor in a window. -/
def Dev.nmuDesc (d : Dev) (w : Nat) : List Nat := (List.range 8).map fun i => d.get Bar.NMU_CMD_DESC_WORD w i

/-- The window exists and its last command has been reported. -/
def Dev.nmuFree (d : Dev) (w : Nat) : Prop := w < 3 ∧ d.get Bar.NMU_CMD_REC_WORD w 8 = 0x80000000

theorem nmuWindow_idle (d : Dev) (w op : Nat) (h : ¬d.nmuFree w ∨ nmuOp (d.nmuDesc w) ≠ op ∨ d.nmuFull w = true) :
    d.nmuWindow w op = d := by
  rw [Dev.nmuWindow, if_neg]
  rintro ⟨hw, hop, hdone, hfull⟩
  rcases h with h | h | h
  · exact h ⟨hw, hdone⟩
  · exact h hop
  · exact hfull h

theorem nmuWindow_issues (d : Dev) (w op : Nat) (hf : d.nmuFree w) (hop : nmuOp (d.nmuDesc w) = op)
    (hfull : d.nmuFull w = false) :
    d.nmuWindow w op = (d.set Bar.NMU_CMD_REC_WORD 0 w 8).nmuIssue w 0 0 0 (d.nmuDesc w) := by
  rw [Dev.nmuWindow, if_pos ⟨hf.1, hop, hf.2, by simp [hfull]⟩]
  rfl

/-- A command of a window takes effect in a ready package; PF0's window is guarded (R474). -/
theorem window_ready (s : State) (w : Nat) (f : Dev → Dev) (h : s.isReady) :
    s.window w f = { s with dev := if w = 0 then s.dev.tdiGuard (f s.dev) else f s.dev } := by
  have hr : s.dev.ready = true := h
  unfold State.window State.host
  rw [if_pos hr, if_pos hr]
  split <;> rfl

theorem window_unchanged (s : State) (w : Nat) (f : Dev → Dev) (h : f s.dev = s.dev) : s.window w f = s := by
  by_cases hr : s.isReady
  · rw [window_ready s w f hr, h, tdiGuard_self, ite_self]
  · have hn : ¬s.dev.ready = true := hr
    unfold State.window State.host
    rw [if_neg hn, if_neg hn, ite_self]

/-- The guard of PF0's window moves TDI states alone. -/
theorem windowGuard_eq (d e : Dev) (w : Nat) : ∃ ep, (if w = 0 then d.tdiGuard e else e) = { e with ep := ep } := by
  split
  · exact tdiGuard_eq d e
  · exact ⟨_, rfl⟩

/-- A command that fits enters the dispatcher, and its window is no longer done. -/
theorem window_enters (s : State) (w op : Nat) (i : Instr) (hi : exec i s = .next (s.nmu (.window w) op))
    (hrange : 1 ≤ op ∧ op ≤ 5) (hr : s.isReady) (hf : s.dev.nmuFree w) (hop : nmuOp (s.dev.nmuDesc w) = op)
    (hfull : s.dev.nmuFull w = false) (hok : s.dev.nmuRefused w (s.dev.nmuDesc w) = none)
    (hs : s.dev.nothingShared (s.dev.nmuDesc w)) :
    Completes i s fun e =>
      (e.nmus.cmds = kvPut s.dev.nmus.cmds s.dev.nmus.next (s.dev.nmuCmd w 0 0 0 (s.dev.nmuDesc w)) ∧
        e.nmus.next = s.dev.nmus.next + 1 ∧ MemorySame s.dev e) ∧
      e.get Bar.NMU_CMD_REC_WORD w 8 = 0 ∧ RegsBut [Bar.NMU_CMD_REC.key w 8] s.dev e := by
  have hsame := issueSame_set_record s.dev 0 w 8 hf.1 (by decide)
  have hs2 : (s.dev.set Bar.NMU_CMD_REC_WORD 0 w 8).nothingShared (s.dev.nmuDesc w) := by
    rw [Dev.nothingShared, hsame.nmuLines, hsame.shared]
    exact hs
  have hissue : s.dev.nmuWindow w op =
      (s.dev.set Bar.NMU_CMD_REC_WORD 0 w 8).entered (s.dev.nmuCmd w 0 0 0 (s.dev.nmuDesc w)) := by
    rw [nmuWindow_issues _ _ _ hf hop hfull, nmuIssue_enters _ _ _ _ _ _ (by omega) (by rw [hsame.nmuRefused, hok]) hs2,
      hsame.nmuCmd]
  refine ⟨_, hi.trans (congrArg _ (window_ready s w (fun d => d.nmuWindow w op) hr)), ?_⟩
  obtain ⟨ep, hep⟩ := windowGuard_eq s.dev (s.dev.nmuWindow w op) w
  rw [hep, hissue]
  refine ⟨⟨rfl, rfl, rfl, rfl, rfl, rfl⟩, get_record_same s.dev 0 w 8, ?_⟩
  exact ((regsBut_refl _ s.dev).set Bar.NMU_CMD_REC_WORD 0 w 8 (List.mem_singleton.2 rfl)).of_regs_eq rfl

/-- A refused command is reported at once with its status. -/
theorem window_refused (s : State) (w op st : Nat) (i : Instr) (hi : exec i s = .next (s.nmu (.window w) op))
    (hrange : 1 ≤ op ∧ op ≤ 5) (hr : s.isReady) (hf : s.dev.nmuFree w) (hop : nmuOp (s.dev.nmuDesc w) = op)
    (hfull : s.dev.nmuFull w = false) (hno : s.dev.nmuRefused w (s.dev.nmuDesc w) = some st) :
    Completes i s fun e =>
      e.nmus = s.dev.nmus ∧ MemorySame s.dev e ∧ e.get Bar.NMU_CMD_REC_WORD w 8 = 0x80000000 ∧
        e.get Bar.NMU_CMD_REC_WORD w 0 = (st * 2 ^ 24 + op * 65536 + nmuAllot (s.dev.nmuDesc w) * 256) % 2 ^ 32 := by
  have hsame := issueSame_set_record s.dev 0 w 8 hf.1 (by decide)
  have hissue : s.dev.nmuWindow w op =
      (s.dev.set Bar.NMU_CMD_REC_WORD 0 w 8).nmuReport (s.dev.nmuCmd w 0 0 0 (s.dev.nmuDesc w)) st 0 := by
    rw [nmuWindow_issues _ _ _ hf hop hfull, nmuIssue_refused _ _ _ _ _ st _ (by omega) (by rw [hsame.nmuRefused, hno]),
      hsame.nmuCmd]
  refine ⟨_, hi.trans (congrArg _ (window_ready s w (fun d => d.nmuWindow w op) hr)), ?_⟩
  obtain ⟨ep, hep⟩ := windowGuard_eq s.dev (s.dev.nmuWindow w op) w
  have h8 := done_nmuReport (s.dev.set Bar.NMU_CMD_REC_WORD 0 w 8) (s.dev.nmuCmd w 0 0 0 (s.dev.nmuDesc w)) st 0 hf.1
  have h0 := get_nmuReport (s.dev.set Bar.NMU_CMD_REC_WORD 0 w 8) (s.dev.nmuCmd w 0 0 0 (s.dev.nmuDesc w)) st 0 0 hf.1
    (by decide)
  obtain ⟨_, regs, hregs⟩ := nmuReport_frame (s.dev.set Bar.NMU_CMD_REC_WORD 0 w 8)
    (s.dev.nmuCmd w 0 0 0 (s.dev.nmuDesc w)) st 0 hf.1
  rw [hep, hissue]
  rw [← hop]
  refine ⟨?_, ?_, h8, h0⟩
  · rw [hregs]; rfl
  · rw [hregs]; exact ⟨rfl, rfl, rfl, rfl⟩

/-! ## Commands of the tier and region logic -/

theorem nmuCommand_logic_idle (d : Dev) (ws : List Nat) (op : Nat) (h : nmuOp ws ≠ op ∨ d.nmuFull 1000 = true) :
    d.nmuCommand (.logic ws) op = d := by
  rw [Dev.nmuCommand, if_neg]
  rintro ⟨hop, hfull⟩
  rcases h with h | h
  · exact h hop
  · exact hfull h

theorem live_unchanged (s : State) (f : Dev → Dev) (h : f s.dev = s.dev) : s.live f = s := by
  unfold State.live State.onDev
  rw [h, ite_self]

theorem logic_enters (s : State) (ws : List Nat) (op : Nat) (i : Instr) (hi : exec i s = .next (s.nmu (.logic ws) op))
    (hrange : 1 ≤ op ∧ op ≤ 5) (hr : s.isRunning) (hop : nmuOp ws = op) (hfull : s.dev.nmuFull 1000 = false)
    (hok : s.dev.nmuRefused 1000 ws = none) (hs : s.dev.nothingShared ws) :
    Completes i s fun e =>
      (e.nmus.cmds = kvPut s.dev.nmus.cmds s.dev.nmus.next (s.dev.nmuCmd 1000 0 0 0 ws) ∧
        e.nmus.next = s.dev.nmus.next + 1 ∧ MemorySame s.dev e) ∧ e.regs = s.dev.regs := by
  have hissue : s.dev.nmuCommand (.logic ws) op = s.dev.entered (s.dev.nmuCmd 1000 0 0 0 ws) := by
    rw [Dev.nmuCommand, if_pos ⟨hop, by simp [hfull]⟩, nmuIssue_enters _ _ _ _ _ _ (by omega) hok hs]
  refine ⟨s.dev.nmuCommand (.logic ws) op,
    hi.trans (congrArg _ (live_running s (fun d => d.nmuCommand (.logic ws) op) hr)), ?_⟩
  rw [hissue]
  exact ⟨⟨rfl, rfl, rfl, rfl, rfl, rfl⟩, rfl⟩

end Sys2Proof.Machine
end

section
/-! SUPPORT. Near-memory units: the end of a burst, refreshes (R176) and completion (R180-R183) while nothing waits at the homes,
and O48. -/

namespace Sys2Proof.Machine

/-! ## What is tried again after a burst, when nothing waits -/

/-- No page copy, no request and no walk is in progress or waits. -/
def Dev.nothingPends (d : Dev) : Prop :=
  d.pool.copies = [] ∧ d.coh.txns = [] ∧ d.coh.waiting = [] ∧ d.coh.walks = []

theorem settleCopies_none (d : Dev) (h : d.pool.copies = []) : d.settleCopies = d := by
  rw [Dev.settleCopies, h]
  rfl

theorem retry_nothingPends (d : Dev) (h : d.nothingPends) : d.retry = d := by
  obtain ⟨_, ht, hw, hk⟩ := h
  have hsame : ({ d with coh := { d.coh with waiting := [] } } : Dev) = d := by rw [← hw]
  have hfirst : (kvKeys d.coh.txns).foldl Dev.finishIfDone d = d := by rw [ht]; rfl
  rw [Dev.retry, hfirst, hw, List.foldl_nil, hsame, hk, List.foldl_nil]

theorem settleLeaving_none (d : Dev) (h : d.pool.leaving = []) : d.settleLeaving = d := by
  have hsame : ({ d with pool := { d.pool with leaving := [] } } : Dev) = d := by rw [← h]
  have hall {α : Type} (l : List α) : l.filter (fun _ => true) = l := List.filter_eq_self.2 fun _ _ => rfl
  simp only [Dev.settleLeaving, h, List.filter_nil, List.foldl_nil, List.any_nil, Bool.not_false, hall, hsame,
    List.filterMap_nil, List.eraseDups_nil]

theorem lowWater_high (d : Dev) (hl : d.pool.lowering = false) (hw : d.get Bar.MEM_TIER_CFG_LOW_WATER ≤ d.t1Free) :
    d.lowWater = d := by
  have hsame : ({ d with pool := { d.pool with lowering := false } } : Dev) = d := by rw [← hl]
  have hn : ¬d.t1Free < d.get Bar.MEM_TIER_CFG_LOW_WATER := by omega
  simp only [Dev.lowWater, if_neg hn, hl, Bool.false_and, hsame, Bool.false_eq_true, if_false]

theorem pump_poolQuiet (d : Dev) (h : d.poolQuiet) : d.pump = d := by
  obtain ⟨hj, hl, hlow, hw⟩ := h
  have hsame : ({ d with pool := { d.pool with jobs := [] } } : Dev) = d := by rw [← hj]
  simp only [Dev.pump, settleLeaving_none d hl, hj, hsame, List.foldl_nil, lowWater_high d hlow hw]

/-! ## The end of a burst -/

/-- The channel is released and the refreshes owed are paid. -/
def Dev.released (d : Dev) (n : Nat) : Dev :=
  { d with nmus := { d.nmus with burst := kvDel d.nmus.burst n, owed := kvDel d.nmus.owed n } }

theorem burstClose_nothingPends (d : Dev) (n : Nat) (h : d.nothingPends) : d.burstClose n = d.released n := by
  have hp : (d.released n).nothingPends := h
  obtain ⟨hc, _⟩ := h
  change (d.released n).settleCopies.retry = _
  rw [settleCopies_none (d.released n) hc, retry_nothingPends _ hp]

theorem released_frees (d : Dev) (n : Nat) :
    kvGet? (d.released n).nmus.burst n = none ∧ kvGetD (d.released n).nmus.owed n 0 = 0 := by
  constructor
  · exact kvGet?_kvDel_same _ _
  · change (kvGet? (kvDel d.nmus.owed n) n).getD 0 = 0
    rw [kvGet?_kvDel_same, Option.getD_none]

/-- A burst without a line to process writes its command and itself back. -/
theorem burstDo_nil (d : Dev) (n : Nat) (b : Burst) :
    ∃ cmds burst, d.burstDo n b [] = { d with nmus := { d.nmus with cmds := cmds, burst := burst } } := by
  unfold Dev.burstDo
  split
  · exact ⟨_, _, rfl⟩
  · exact ⟨_, _, rfl⟩

/-- A burst whose lines are done ends: its channel is free, and nothing but the tables of the NMUs has changed. -/
theorem burstDo_nil_close (d : Dev) (n : Nat) (b : Burst) (h : d.nothingPends) :
    kvGet? ((d.burstDo n b []).burstClose n).nmus.burst n = none ∧
      kvGetD ((d.burstDo n b []).burstClose n).nmus.owed n 0 = 0 ∧
      ∃ nm, (d.burstDo n b []).burstClose n = { d with nmus := nm } := by
  obtain ⟨cmds, burst, hb⟩ := burstDo_nil d n b
  have hp : (d.burstDo n b []).nothingPends := by rw [hb]; exact h
  obtain ⟨hfree, howed⟩ := released_frees (d.burstDo n b []) n
  rw [burstClose_nothingPends _ _ hp]
  exact ⟨hfree, howed, _, by rw [Dev.released, hb]⟩

theorem exec_nmuBurstEnd (s : State) (n : Nat) (b : Burst) (hr : s.isRunning) (hb : kvGet? s.dev.nmus.burst n = some b) :
    exec (.nmuBurstEnd n) s = .next { s with dev := (s.dev.burstDo n b b.todo).burstClose n } := by
  have he : s.dev.burstEnd n = (s.dev.burstDo n b b.todo).burstClose n := by rw [Dev.burstEnd, hb]
  change Host.Outcome.next (s.live _) = _
  rw [live_running _ _ hr, State.onDev, he]

theorem burstEnd_completes (s : State) (n : Nat) (b : Burst) (hr : s.isRunning)
    (hb : kvGet? s.dev.nmus.burst n = some b) (htodo : b.todo = []) (hp : s.dev.nothingPends) :
    Completes (.nmuBurstEnd n) s fun e =>
      (kvGet? e.nmus.burst n = none ∧ kvGetD e.nmus.owed n 0 = 0) ∧ MemorySame s.dev e ∧ e.regs = s.dev.regs := by
  refine ⟨_, exec_nmuBurstEnd s n b hr hb, ?_⟩
  obtain ⟨hfree, howed, nm, hnm⟩ := burstDo_nil_close s.dev n b hp
  rw [htodo]
  exact ⟨⟨hfree, howed⟩, by rw [hnm]; exact ⟨rfl, rfl, rfl, rfl⟩, by rw [hnm]⟩

theorem exec_burst_commands_free (s : State) (n : Nat) (hb : kvGet? s.dev.nmus.burst n = none) :
    exec (.nmuBurstEnd n) s = .next s ∧ exec (.refreshDue n) s = .next s := by
  have he : s.dev.burstEnd n = s.dev := by rw [Dev.burstEnd, hb]
  have hf : s.dev.refreshDue n = s.dev := by rw [Dev.refreshDue, hb]
  constructor
  · exact congrArg _ (live_unchanged s (fun d => d.burstEnd n) he)
  · exact congrArg _ (live_unchanged s (fun d => if n < 384 then d.refreshDue n else d) (by rw [hf, ite_self]))

/-! ## Refreshes (R176) -/

/-- A refresh is owed, and the most ever owed is kept. -/
def Dev.refreshOwed (d : Dev) (n o : Nat) : Dev :=
  ({ d with nmus := { d.nmus with owed := kvPut d.nmus.owed n o } }).set Bar.NMU_STAT_REF_OWED_MAX
    (max (d.get Bar.NMU_STAT_REF_OWED_MAX n) (min 4 o)) n

theorem refreshDue_burst (d : Dev) (n : Nat) (b : Burst) (hb : kvGet? d.nmus.burst n = some b) :
    d.refreshDue n =
      if 4 ≤ kvGetD d.nmus.owed n 0 + 1 then
        ((d.refreshOwed n (kvGetD d.nmus.owed n 0 + 1)).burstDo n b (d.burstDue b)).burstClose n
      else d.refreshOwed n (kvGetD d.nmus.owed n 0 + 1) := by
  rw [Dev.refreshDue, hb]
  rfl

theorem get_refreshOwed (d : Dev) (n o : Nat) :
    (d.refreshOwed n o).get Bar.NMU_STAT_REF_OWED_MAX n = max (d.get Bar.NMU_STAT_REF_OWED_MAX n) (min 4 o) := by
  have hlt : d.get Bar.NMU_STAT_REF_OWED_MAX n < 256 := get_lt d Bar.NMU_STAT_REF_OWED_MAX n 0
  rw [Dev.refreshOwed, get_set_same]
  exact Nat.mod_eq_of_lt (by change _ < 256; omega)

theorem refreshOwed_regsBut (d : Dev) (n o : Nat) : RegsBut [Bar.NMU_STAT.key n 0] d (d.refreshOwed n o) := by
  have hset := (regsBut_refl [Bar.NMU_STAT.key n 0] d).set Bar.NMU_STAT_REF_OWED_MAX
    (max (d.get Bar.NMU_STAT_REF_OWED_MAX n) (min 4 o)) n 0 (List.mem_singleton.2 rfl)
  exact hset.of_regs_eq rfl

theorem exec_refreshDue (s : State) (n : Nat) (hr : s.isRunning) (hn : n < 384) :
    exec (.refreshDue n) s = .next { s with dev := s.dev.refreshDue n } := by
  change Host.Outcome.next (s.live _) = _
  rw [live_running _ _ hr, State.onDev, if_pos hn]

theorem refreshDue_completes (s : State) (n : Nat) (b : Burst) (hr : s.isRunning) (hn : n < 384)
    (hb : kvGet? s.dev.nmus.burst n = some b)
    (hend : 4 ≤ kvGetD s.dev.nmus.owed n 0 + 1 → s.dev.burstDue b = [] ∧ s.dev.nothingPends) :
    Completes (.refreshDue n) s fun e =>
      e.get Bar.NMU_STAT_REF_OWED_MAX n =
        max (s.dev.get Bar.NMU_STAT_REF_OWED_MAX n) (min 4 (kvGetD s.dev.nmus.owed n 0 + 1)) ∧
      (4 ≤ kvGetD s.dev.nmus.owed n 0 + 1 → kvGet? e.nmus.burst n = none ∧ kvGetD e.nmus.owed n 0 = 0) ∧
      (kvGetD s.dev.nmus.owed n 0 + 1 < 4 →
        kvGet? e.nmus.burst n = some b ∧ kvGetD e.nmus.owed n 0 = kvGetD s.dev.nmus.owed n 0 + 1) ∧
      RegsBut [Bar.NMU_STAT.key n 0] s.dev e ∧ MemorySame s.dev e := by
  refine ⟨_, exec_refreshDue s n hr hn, ?_⟩
  rw [refreshDue_burst _ _ _ hb]
  generalize kvGetD s.dev.nmus.owed n 0 + 1 = o at hend ⊢
  have hget := get_refreshOwed s.dev n o
  have hregs := refreshOwed_regsBut s.dev n o
  by_cases ho : 4 ≤ o
  · obtain ⟨hdue, hp⟩ := hend ho
    obtain ⟨hfree, howed, nm, hnm⟩ := burstDo_nil_close (s.dev.refreshOwed n o) n b hp
    rw [if_pos ho, hdue]
    refine ⟨?_, fun _ => ⟨hfree, howed⟩, fun hlt => absurd ho (by omega), ?_, ?_⟩
    · rw [hnm]; exact hget
    · rw [hnm]; exact hregs.of_regs_eq rfl
    · rw [hnm]; exact ⟨rfl, rfl, rfl, rfl⟩
  · rw [if_neg ho]
    exact ⟨hget, fun h => absurd h ho, fun _ => ⟨hb, kvGetD_kvPut_same _ _ _ _⟩, hregs, rfl, rfl, rfl, rfl⟩

/-! ## Grants that come to nothing -/

/-- A grant that leaves the device alone, or of no NMU. -/
theorem exec_nmuBurstGrant_same (s : State) (n id : Nat) (h : n < 384 → s.dev.burstGrant n id = s.dev) :
    exec (.nmuBurstGrant n id) s = .next s := by
  refine congrArg _ (live_unchanged s (fun d => if n < 384 then d.burstGrant n id else d) ?_)
  by_cases hn : n < 384
  · rw [if_pos hn, h hn]
  · rw [if_neg hn]

theorem burstGrant_not_ready (d : Dev) (n id : Nat) (c : NmuCmd) (hc : kvGet? d.nmus.cmds id = some c)
    (h : ¬(d.nmuReady n id c = true ∧ d.nmuTurn n c.src = true)) : d.burstGrant n id = d := by
  have hno : (!d.nmuReady n id c || !d.nmuTurn n c.src) = true := by
    cases hrd : d.nmuReady n id c with
    | false => rfl
    | true =>
      cases ht : d.nmuTurn n c.src with
      | false => rfl
      | true => exact absurd ⟨hrd, ht⟩ h
  simp only [Dev.burstGrant, hc, hno, if_true]

theorem burstGrant_unknown (d : Dev) (n id : Nat) (hc : kvGet? d.nmus.cmds id = none) : d.burstGrant n id = d := by
  simp only [Dev.burstGrant, hc]

/-! ## Completion -/

theorem exec_nmuCommandComplete (s : State) (id : Nat) (hr : s.isRunning) :
    exec (.nmuCommandComplete id) s = .next { s with dev := s.dev.nmuComplete id } :=
  congrArg _ (live_running s (fun d => d.nmuComplete id) hr)

theorem exec_nmuCommandComplete_same (s : State) (id : Nat) (h : s.dev.nmuComplete id = s.dev) :
    exec (.nmuCommandComplete id) s = .next s :=
  congrArg _ (live_unchanged s (fun d => d.nmuComplete id) h)

theorem nmuComplete_unknown (d : Dev) (id : Nat) (hc : kvGet? d.nmus.cmds id = none) : d.nmuComplete id = d := by
  simp only [Dev.nmuComplete, hc]

/-- A command with a burst in progress does not end. -/
theorem nmuComplete_in_burst (d : Dev) (id : Nat) (h : d.nmus.burst.any (fun e => e.2.cmd == id) = true) :
    d.nmuComplete id = d := by
  cases hc : kvGet? d.nmus.cmds id with
  | none => exact nmuComplete_unknown d id hc
  | some c => simp only [Dev.nmuComplete, hc, h, Bool.true_or, if_true]

/-- The status of a command that has done its lines (R180). -/
def NmuCmd.endStatus (c : NmuCmd) : Nat := if c.poison = 0 ∧ c.hit = false then Code.ok else Code.poison

/-- The only command, none of whose lines is left, is reported and leaves the dispatcher. -/
theorem nmuComplete_only (d : Dev) (id : Nat) (c : NmuCmd) (hcmds : d.nmus.cmds = [(id, c)]) (hburst : d.nmus.burst = [])
    (hleft : c.left = []) (hreset : d.inReset (nmuAllot c.words) = false) (h4 : nmuOp c.words ≠ 4)
    (h5 : nmuOp c.words ≠ 5) :
    d.nmuComplete id = (({ d with nmus := { d.nmus with cmds := [] } } : Dev).nmuReport c c.endStatus
      0).settleCopies.pump.retry := by
  have hget : kvGet? d.nmus.cmds id = some c := by rw [hcmds, kvGet?, if_pos rfl]
  have hdel : kvDel d.nmus.cmds id = [] := by simp [kvDel, hcmds]
  have hres : d.nmuResult c = (0, d) := by rw [Dev.nmuResult, if_neg h4, if_neg h5]
  have hst : (if c.hit || c.poison != 0 || !c.left.isEmpty then Code.poison else Code.ok) = c.endStatus := by
    rw [hleft, NmuCmd.endStatus]
    cases c.hit <;> by_cases hp : c.poison = 0 <;> simp [hp]
  simp only [Dev.nmuComplete, hget]
  simp only [hburst, hreset, hres, hdel, Bool.and_false, Bool.false_eq_true, if_false, hst]
  simp [hleft]

theorem nmuOp_lt (ws : List Nat) : nmuOp ws < 256 := by
  have h : nmuWord ws 0 < 2 ^ 32 := Nat.mod_lt _ (by decide)
  simp only [nmuOp]
  omega

theorem nmuAllot_lt (ws : List Nat) : nmuAllot ws < 256 := Nat.mod_lt _ (by decide)

theorem endStatus_le (c : NmuCmd) : c.endStatus ≤ 1 := by
  unfold NmuCmd.endStatus
  split <;> decide

/-- Registers of the tiers lie below the records of the windows, so a report leaves the pool quiet. -/
theorem poolQuiet_nmuReport (d : Dev) (c : NmuCmd) (st r : Nat) (hw : c.src < 3) (h : d.poolQuiet) :
    (d.nmuReport c st r).poolQuiet := by
  obtain ⟨hb, regs, hregs⟩ := nmuReport_frame d c st r hw
  obtain ⟨hj, hl, hlow, hwater⟩ := h
  have hpool : (d.nmuReport c st r).pool = d.pool := by rw [hregs]
  have hcfg : (d.nmuReport c st r).get Bar.MEM_TIER_CFG_LOW_WATER = d.get Bar.MEM_TIER_CFG_LOW_WATER :=
    hb.get _ _ _ (not_mem_recordKeys _ _ hw (.inl (by decide)))
  have hfail : ∀ i ∈ List.range 12, (d.nmuReport c st r).stackFree i = d.stackFree i := by
    intro i hi
    have hi12 := List.mem_range.1 hi
    have hkey : Bar.MEM_STACK_STATUS.key i 0 < 0xA00080 := by
      change 0x890000 + 8 * i + 0 * 0 < _
      omega
    have hf : (d.nmuReport c st r).flag Bar.MEM_STACK_STATUS_FAILED i = d.flag Bar.MEM_STACK_STATUS_FAILED i := by
      rw [Dev.flag, Dev.flag, hb.get _ _ _ (not_mem_recordKeys _ _ hw (.inl hkey))]
    simp only [Dev.stackFree, hf, Dev.stackUsed, hpool]
  have hfree : (d.nmuReport c st r).t1Free = d.t1Free := by
    rw [Dev.t1Free, Dev.t1Free, List.map_congr_left hfail]
  exact ⟨by rw [hpool, hj], by rw [hpool, hl], by rw [hpool, hlow], by rw [hcfg, hfree]; exact hwater⟩

theorem nmuComplete_completes (s : State) (w id : Nat) (c : NmuCmd) (hr : s.isRunning)
    (hcmds : s.dev.nmus.cmds = [(id, c)]) (hburst : s.dev.nmus.burst = []) (hleft : c.left = []) (hsrc : c.src = w)
    (hw : w < 3) (hreset : s.dev.inReset (nmuAllot c.words) = false) (h4 : nmuOp c.words ≠ 4) (h5 : nmuOp c.words ≠ 5)
    (hq : s.dev.poolQuiet) (hp : s.dev.nothingPends) :
    Completes (.nmuCommandComplete id) s fun e =>
      e.nmus.cmds = [] ∧ e.get Bar.NMU_CMD_REC_WORD w 8 = 0x80000000 ∧
        e.get Bar.NMU_CMD_REC_WORD w 1 = c.done % 2 ^ 32 ∧ e.get Bar.NMU_CMD_REC_WORD w 3 = c.poison % 2 ^ 32 ∧
        e.get Bar.NMU_CMD_REC_WORD w 0 = c.endStatus * 2 ^ 24 + nmuOp c.words * 65536 + nmuAllot c.words * 256 ∧
        MemorySame s.dev e := by
  subst hsrc
  refine ⟨_, exec_nmuCommandComplete s id hr, ?_⟩
  rw [nmuComplete_only _ _ _ hcmds hburst hleft hreset h4 h5]
  generalize hd : ({ s.dev with nmus := { s.dev.nmus with cmds := [] } } : Dev) = d
  have hquiet : d.poolQuiet := by subst hd; exact hq
  have hpend : d.nothingPends := by subst hd; exact hp
  obtain ⟨_, regs, hregs⟩ := nmuReport_frame d c c.endStatus 0 hw
  have hpend2 : (d.nmuReport c c.endStatus 0).nothingPends := by rw [hregs]; exact hpend
  rw [settleCopies_none _ hpend2.1, pump_poolQuiet _ (poolQuiet_nmuReport d c _ 0 hw hquiet), retry_nothingPends _ hpend2]
  have hword := get_nmuReport d c c.endStatus 0
  refine ⟨?_, done_nmuReport d c _ 0 hw, hword 1 hw (by decide), hword 3 hw (by decide), ?_, ?_⟩
  · rw [hregs, ← hd]
  · rw [hword 0 hw (by decide)]
    have hst := endStatus_le c
    have hop := nmuOp_lt c.words
    have hal := nmuAllot_lt c.words
    exact Nat.mod_eq_of_lt (by change _ * 2 ^ 24 + _ * 65536 + _ * 256 < 2 ^ 32; omega)
  · rw [hregs, ← hd]; exact ⟨rfl, rfl, rfl, rfl⟩

end Sys2Proof.Machine

section
open Sys2Proof Sys2Proof.Machine

/-- Settles O48: each clause is the lemma of its command. -/
theorem nearMemoryCommandsRunInBursts : Obligations.NearMemoryCommandsRunInBursts := by
  intro s w n id fr st ws c b d desc doneKey isDone fits enters rec8 byWindow byLogic ready bursts cell size old behind owed
    idle freed
  have hwindow : ∀ (op : Nat) (i : Instr), 1 ≤ op ∧ op ≤ 5 → exec i s = .next (s.nmu (.window w) op) → byWindow op i := by
    intro op i hrange hi
    refine ⟨fun hr => ?_, fun h => ?_, ?_, ?_⟩
    · exact hi.trans (congrArg _ (window_ready s w (fun d => d.nmuWindow w op) hr))
    · exact hi.trans (congrArg _ (window_unchanged s w (fun d => d.nmuWindow w op) (nmuWindow_idle d w op h)))
    · rintro hr hdone hop ⟨hfull, hok, hshared⟩
      exact window_enters s w op i hi hrange hr hdone hop hfull hok hshared
    · exact fun hr hdone hop hfull hno => window_refused s w op st i hi hrange hr hdone hop hfull hno
  have hlogic : ∀ (op : Nat) (i : Instr), 1 ≤ op ∧ op ≤ 5 → exec i s = .next (s.nmu (.logic ws) op) → byLogic op i := by
    intro op i hrange hi
    refine ⟨fun hr => ?_, fun h => ?_, ?_⟩
    · exact hi.trans (congrArg _ (live_running s (fun d => d.nmuCommand (.logic ws) op) hr))
    · exact hi.trans (congrArg _ (live_unchanged s (fun d => d.nmuCommand (.logic ws) op) (nmuCommand_logic_idle d ws op h)))
    · rintro hr hop ⟨hfull, hok, hshared⟩
      exact logic_enters s ws op i hi hrange hr hop hfull hok hshared
  refine ⟨hwindow 1 _ (by decide) rfl, hwindow 2 _ (by decide) rfl, hwindow 3 _ (by decide) rfl, hwindow 4 _ (by decide) rfl,
    hwindow 5 _ (by decide) rfl, hlogic 1 _ (by decide) rfl, hlogic 2 _ (by decide) rfl, hlogic 3 _ (by decide) rfl,
    hlogic 4 _ (by decide) rfl, hlogic 5 _ (by decide) rfl, ?_, ?_, ?_, ?_, ?_, ?_, ?_, ?_, ?_, ?_, ?_, ?_, ?_, ?_, ?_⟩
  · exact fun hr hn => exec_nmuBurstGrant s n id hr hn
  · exact fun hc hno => exec_nmuBurstGrant_same s n id fun hn =>
      burstGrant_not_ready d n id c hc fun h => hno ⟨hn, h⟩
  · exact fun hc => ⟨exec_nmuBurstGrant_same s n id fun _ => burstGrant_unknown d n id hc,
      exec_nmuCommandComplete_same s id (nmuComplete_unknown d id hc)⟩
  · exact fun h hop => grant_fill_completes s n id fr c h hop
  · exact fun h hop hfl hs => grant_compare_completes s n id fr c h hop hfl hs
  · exact fun h hop _ hs => grant_atomic_completes s n id fr c h hop hs
  · exact fun hr hb => exec_nmuBurstEnd s n b hr hb
  · exact fun hr hb htodo hp _ => burstEnd_completes s n b hr hb htodo hp
  · exact fun hb => exec_burst_commands_free s n hb
  · exact fun hn => ⟨exec_nmuBurstGrant_same s n id fun h => absurd h (by omega),
      congrArg _ (live_unchanged s (fun d => if n < 384 then d.refreshDue n else d) (if_neg (by omega)))⟩
  · exact fun hr hn => exec_refreshDue s n hr hn
  · exact fun hr hn hb hend => refreshDue_completes s n b hr hn hb hend
  · exact fun hr => exec_nmuCommandComplete s id hr
  · exact fun h => exec_nmuCommandComplete_same s id (nmuComplete_in_burst d id h)
  · exact fun hr hcmds hburst hleft hsrc hw hreset h4 h5 hq hp =>
      nmuComplete_completes s w id c hr hcmds hburst hleft hsrc hw hreset h4 h5 hq hp
end
end

section
/-! SUPPORT. TRL_PORT_LL (R101): the die's lossless limits as a sum over its ports, and the clamp of a write. -/

namespace Sys2Proof.Machine

/-! ## The limits of a die as a sum -/

/-- The lossless cells per lane of a port, over its four classes. -/
def Dev.llPerLane (d : Dev) (p : Nat) : Nat :=
  d.get Bar.TRL_PORT_LL_TC4 p + d.get Bar.TRL_PORT_LL_TC5 p + d.get Bar.TRL_PORT_LL_TC6 p + d.get Bar.TRL_PORT_LL_TC7 p

/-- What a lane adds to the lossless limits of its die: nothing, unless it leads a port. -/
def Dev.llShare (d : Dev) (p : Nat) : Nat := if d.isLeader p then d.layoutWidth p * d.llPerLane p else 0

/-- The lossless limits of a die without the share of one lane. -/
def Dev.llElsewhere (d : Dev) (die p : Nat) : Nat :=
  20480 + (((List.range 96).erase (p - 96 * die)).map fun i => d.llShare (i + 96 * die)).sum

theorem foldl_filter_add (l : List Nat) (sel : Nat → Bool) (f : Nat → Nat) (n : Nat) :
    (l.filter sel).foldl (fun m q => m + f q) n = n + (l.map fun q => if sel q then f q else 0).sum := by
  induction l generalizing n with
  | nil => rfl
  | cons q l ih =>
    by_cases hq : sel q
    · rw [List.filter_cons_of_pos hq, List.foldl_cons, ih, List.map_cons, List.sum_cons, if_pos hq, Nat.add_assoc]
    · rw [List.filter_cons_of_neg hq, ih, List.map_cons, List.sum_cons, if_neg hq, Nat.zero_add]

theorem llLimits_eq_sum (d : Dev) (die : Nat) :
    d.llLimits die = 20480 + ((List.range 96).map fun i => d.llShare (i + 96 * die)).sum := by
  have hclasses (p : Nat) : [4, 5, 6, 7].foldl (fun m c => m + d.get (llField c) p) 0 = d.llPerLane p := by
    simp [llField, Dev.llPerLane]
  simp only [Dev.llLimits, hclasses]
  rw [foldl_filter_add, Nat.zero_add, List.map_map]
  rfl

/-- The lossless limits of a lane's die: the lane's share and the rest. -/
theorem llLimits_split (d : Dev) (die p : Nat) (h : 96 * die ≤ p ∧ p < 96 * die + 96) :
    d.llLimits die = d.llElsewhere die p + d.llShare p := by
  have hp : p - 96 * die + 96 * die = p := by omega
  have hmem : p - 96 * die ∈ List.range 96 := List.mem_range.2 (by omega)
  have hsum := ((List.perm_cons_erase hmem).map fun i => d.llShare (i + 96 * die)).sum_nat
  rw [List.map_cons, List.sum_cons, hp] at hsum
  rw [llLimits_eq_sum, Dev.llElsewhere, hsum, Nat.add_assoc, Nat.add_comm (d.llShare p)]

theorem le_layoutWidth_go (d : Dev) (p n fuel : Nat) : n ≤ Dev.layoutWidth.go d p n fuel := by
  induction fuel generalizing n with
  | zero => exact Nat.le_refl n
  | succ fuel ih =>
    rw [Dev.layoutWidth.go]
    split
    · exact Nat.le_of_succ_le (ih (n + 1))
    · exact Nat.le_refl n

theorem layoutWidth_pos (d : Dev) (p : Nat) : 0 < d.layoutWidth p := le_layoutWidth_go d p 1 8

/-! ## What a change of TRL_PORT_LL leaves alone -/

theorem key_portLl (p : Nat) : Bar.TRL_PORT_LL.key p 0 = 0x410000 + 0x40 * p := rfl

section
variable {d e : Dev} {p : Nat} (h : RegsBut [Bar.TRL_PORT_LL.key p 0] d e)
include h

theorem role_of_llWrite (hp : p < 192) (q : Nat) (hq : q < 192) :
    e.flag Bar.LNK_PORT_CFG_ROLE q = d.flag Bar.LNK_PORT_CFG_ROLE q := by
  rw [Dev.flag, Dev.flag, h.get]
  rw [List.mem_singleton, key_portLl]
  change ¬ 0x210000 + 0x40 * q + 0 * 0 = _
  omega

theorem isLeader_of_llWrite (hp : p < 192) (q : Nat) : e.isLeader q = d.isLeader q := by
  by_cases hq : q < 192
  · rw [Dev.isLeader, Dev.isLeader, role_of_llWrite h hp q hq]
  · simp [Dev.isLeader, hq]

theorem layoutWidth_of_llWrite (hp : p < 192) (q : Nat) : e.layoutWidth q = d.layoutWidth q := by
  have hgo (fuel n : Nat) : Dev.layoutWidth.go e q n fuel = Dev.layoutWidth.go d q n fuel := by
    induction fuel generalizing n with
    | zero => rfl
    | succ fuel ih =>
      rw [Dev.layoutWidth.go, Dev.layoutWidth.go, ih]
      by_cases hq : q + n < 192
      · rw [role_of_llWrite h hp _ hq]
      · simp [hq]
  exact hgo 8 1

theorem llBudget_of_llWrite (die : Nat) (hdie : die < 2) : e.llBudget die = d.llBudget die := by
  rw [Dev.llBudget, Dev.llBudget, h.get, h.get]
  · rw [List.mem_singleton, key_portLl]
    change ¬ 0x400010 = _
    omega
  · rw [List.mem_singleton, key_portLl]
    change ¬ 0x400000 + 0x8 * die + 0 * 0 = _
    omega

theorem llShare_of_llWrite (hp : p < 192) (q : Nat) (hq : q ≠ p) : e.llShare q = d.llShare q := by
  have hget (f : Fld) (hf : f.reg = Bar.TRL_PORT_LL) : e.get f q = d.get f q := by
    apply h.get
    rw [List.mem_singleton, hf, key_portLl, key_portLl]
    omega
  rw [Dev.llShare, Dev.llShare, isLeader_of_llWrite h hp, layoutWidth_of_llWrite h hp, Dev.llPerLane, Dev.llPerLane,
    hget _ rfl, hget _ rfl, hget _ rfl, hget _ rfl]

theorem llElsewhere_of_llWrite (hp : p < 192) (die : Nat) (hdie : 96 * die ≤ p) :
    e.llElsewhere die p = d.llElsewhere die p := by
  rw [Dev.llElsewhere, Dev.llElsewhere, List.map_congr_left fun i hi => ?_]
  obtain ⟨hne, _⟩ := (List.nodup_range.mem_erase_iff).1 hi
  exact llShare_of_llWrite h hp _ (by omega)

end

/-! ## The four fields of TRL_PORT_LL -/

/-- TRL_PORT_LL of a port with its four values stored. -/
def Dev.putLl (d : Dev) (p x4 x5 x6 x7 : Nat) : Dev :=
  (((d.set Bar.TRL_PORT_LL_TC4 x4 p).set Bar.TRL_PORT_LL_TC5 x5 p).set Bar.TRL_PORT_LL_TC6 x6 p).set Bar.TRL_PORT_LL_TC7 x7 p

/-- TRL_PORT_LL of a port holds these four values. -/
def Dev.LlIs (d : Dev) (p x4 x5 x6 x7 : Nat) : Prop :=
  d.get Bar.TRL_PORT_LL_TC4 p = x4 ∧ d.get Bar.TRL_PORT_LL_TC5 p = x5 ∧ d.get Bar.TRL_PORT_LL_TC6 p = x6 ∧
    d.get Bar.TRL_PORT_LL_TC7 p = x7

theorem llIs_putLl (d : Dev) (p x4 x5 x6 x7 : Nat) (h4 : x4 ≤ 4095) (h5 : x5 ≤ 4095) (h6 : x6 ≤ 4095) (h7 : x7 ≤ 4095) :
    (d.putLl p x4 x5 x6 x7).LlIs p x4 x5 x6 x7 := by
  have hkeep (d : Dev) (f g : Fld) (x : Nat) (hfg : f.reg = g.reg ∧ g.hi < f.lo) : (d.set f x p).get g p = d.get g p :=
    get_set_disjoint d f g x p 0 hfg.1 (.inl hfg.2)
  have hread (d : Dev) (f : Fld) (x : Nat) (hx : x ≤ 4095) (hw : f.hi + 1 - f.lo = 12) : (d.set f x p).get f p = x := by
    rw [get_set_same, hw]
    exact Nat.mod_eq_of_lt (by omega)
  refine ⟨?_, ?_, ?_, ?_⟩
  · rw [Dev.putLl, hkeep, hkeep, hkeep, hread _ _ _ h4] <;> decide
  · rw [Dev.putLl, hkeep, hkeep, hread _ _ _ h5] <;> decide
  · rw [Dev.putLl, hkeep, hread _ _ _ h6] <;> decide
  · rw [Dev.putLl, hread _ _ _ h7]; decide

theorem regsBut_putLl {d e : Dev} {p : Nat} (h : RegsBut [Bar.TRL_PORT_LL.key p 0] d e) (x4 x5 x6 x7 : Nat) :
    RegsBut [Bar.TRL_PORT_LL.key p 0] d (e.putLl p x4 x5 x6 x7) := by
  have hmem : Bar.TRL_PORT_LL.key p 0 ∈ [Bar.TRL_PORT_LL.key p 0] := List.mem_singleton_self _
  exact (((h.set Bar.TRL_PORT_LL_TC4 x4 p 0 hmem).set Bar.TRL_PORT_LL_TC5 x5 p 0 hmem).set
    Bar.TRL_PORT_LL_TC6 x6 p 0 hmem).set Bar.TRL_PORT_LL_TC7 x7 p 0 hmem

/-! ## The clamp -/

theorem lowerBy_zero (x w : Nat) : lowerBy x 0 w = (x, 0) := by
  have hcut : (0 + (w - 1)) / w = 0 := by
    rw [Nat.zero_add, Nat.div_eq_zero_iff]
    omega
  rw [lowerBy, hcut, Nat.min_zero, Nat.zero_mul]
  rfl

/-- One class: either the whole excess is gone, or the value is down to 1. -/
theorem lowerBy_spec (x excess w : Nat) (hx : 1 ≤ x) (hw : 0 < w) :
    (lowerBy x excess w).1 ≤ x ∧ (lowerBy x excess w).2 ≤ excess ∧
      w * (lowerBy x excess w).1 + excess ≤ w * x + (lowerBy x excess w).2 ∧
      ((lowerBy x excess w).2 = 0 ∨ (lowerBy x excess w).1 = 1) := by
  rw [lowerBy]
  generalize hq : (excess + (w - 1)) / w = q
  have hceil : excess ≤ q * w := by
    have hdiv := Nat.div_add_mod (excess + (w - 1)) w
    have hmod := Nat.mod_lt (excess + (w - 1)) hw
    rw [hq, Nat.mul_comm] at hdiv
    omega
  generalize hcut : min (x - 1) q = cut
  have hsplit : w * x = w * (x - cut) + cut * w := by
    rw [Nat.mul_comm cut w, ← Nat.mul_add]
    congr 1
    omega
  dsimp only
  refine ⟨Nat.sub_le x cut, Nat.sub_le excess (cut * w), by omega, ?_⟩
  rcases Nat.le_total (x - 1) q with hle | hle
  · right
    omega
  · left
    rw [Nat.min_eq_right hle] at hcut
    subst hcut
    exact Nat.sub_eq_zero_of_le hceil

theorem portDie_fabric (p : Nat) (hp : p < 192) :
    portDie (.fabric p) < 2 ∧ 96 * portDie (.fabric p) ≤ p ∧ p < 96 * portDie (.fabric p) + 96 := by
  rw [portDie]
  split
  · omega
  · omega

/-- By how much the limits of a leader's die exceed their budget. -/
def Dev.llExcess (d : Dev) (p : Nat) : Nat :=
  if d.isLeader p then d.llLimits (portDie (.fabric p)) - d.llBudget (portDie (.fabric p)) else 0

/-- Without an excess the clamp stores the values that stand. -/
theorem clampLl_fitting {d : Dev} {p x4 x5 x6 x7 : Nat} (hx : d.LlIs p x4 x5 x6 x7) (h : d.llExcess p = 0) :
    d.clampLl p = d.putLl p x4 x5 x6 x7 := by
  obtain ⟨h4, h5, h6, h7⟩ := hx
  have he : (if d.isLeader p then
      d.llLimits (if p < 96 then 0 else 1) - d.llBudget (if p < 96 then 0 else 1) else 0) = 0 := h
  simp only [Dev.clampLl, he, h4, h5, h6, h7, lowerBy_zero]
  rfl

/-- The clamp lowers the four values by the whole excess, or else every one of them to 1. -/
theorem clampLl_lowered {d : Dev} {p x4 x5 x6 x7 : Nat} (hx : d.LlIs p x4 x5 x6 x7) (h4 : 1 ≤ x4) (h5 : 1 ≤ x5)
    (h6 : 1 ≤ x6) (h7 : 1 ≤ x7) :
    ∃ y4 y5 y6 y7, d.clampLl p = d.putLl p y4 y5 y6 y7 ∧ (y4 ≤ x4 ∧ y5 ≤ x5 ∧ y6 ≤ x6 ∧ y7 ≤ x7) ∧
      (d.layoutWidth p * (y4 + y5 + y6 + y7) + d.llExcess p ≤ d.layoutWidth p * (x4 + x5 + x6 + x7) ∨
        y4 = 1 ∧ y5 = 1 ∧ y6 = 1 ∧ y7 = 1) := by
  obtain ⟨g4, g5, g6, g7⟩ := hx
  have hw := layoutWidth_pos d p
  obtain ⟨le4, rest4, sum4, end4⟩ := lowerBy_spec x4 (d.llExcess p) (d.layoutWidth p) h4 hw
  generalize hr4 : lowerBy x4 (d.llExcess p) (d.layoutWidth p) = r4 at *
  obtain ⟨le5, rest5, sum5, end5⟩ := lowerBy_spec x5 r4.2 (d.layoutWidth p) h5 hw
  generalize hr5 : lowerBy x5 r4.2 (d.layoutWidth p) = r5 at *
  obtain ⟨le6, rest6, sum6, end6⟩ := lowerBy_spec x6 r5.2 (d.layoutWidth p) h6 hw
  generalize hr6 : lowerBy x6 r5.2 (d.layoutWidth p) = r6 at *
  obtain ⟨le7, rest7, sum7, end7⟩ := lowerBy_spec x7 r6.2 (d.layoutWidth p) h7 hw
  generalize hr7 : lowerBy x7 r6.2 (d.layoutWidth p) = r7 at *
  refine ⟨r4.1, r5.1, r6.1, r7.1, ?_, ⟨le4, le5, le6, le7⟩, ?_⟩
  · rw [← hr7, ← hr6, ← hr5, ← hr4, ← g4, ← g5, ← g6, ← g7]
    rfl
  · simp only [Nat.mul_add]
    by_cases hdone : r7.2 = 0
    · left
      omega
    · right
      omega

/-! ## The write -/

theorem clampTo_bounds (lo hi x : Nat) (h : lo ≤ hi) : lo ≤ clampTo lo hi x ∧ clampTo lo hi x ≤ hi := by
  unfold clampTo
  split
  · omega
  · split
    · omega
    · omega

theorem llShare_of_llIs {d : Dev} {p x4 x5 x6 x7 : Nat} (hx : d.LlIs p x4 x5 x6 x7) (hl : d.isLeader p = true) :
    d.llShare p = d.layoutWidth p * (x4 + x5 + x6 + x7) := by
  obtain ⟨h4, h5, h6, h7⟩ := hx
  rw [Dev.llShare, if_pos hl, Dev.llPerLane, h4, h5, h6, h7]

/-- A lane that leads no port has no share in the limits, whatever its registers hold. -/
theorem llLimits_of_notLeader {d e : Dev} {p : Nat} (h : RegsBut [Bar.TRL_PORT_LL.key p 0] d e) (hp : p < 192)
    (hl : d.isLeader p = false) : e.llLimits (portDie (.fabric p)) = d.llLimits (portDie (.fabric p)) := by
  obtain ⟨_, hlane⟩ := portDie_fabric p hp
  have hle : e.isLeader p = false := (isLeader_of_llWrite h hp p).trans hl
  rw [llLimits_split e _ p hlane, llLimits_split d _ p hlane, llElsewhere_of_llWrite h hp _ hlane.1, Dev.llShare, hle,
    Dev.llShare, hl]
  rfl

/-- The limits after a change of a leader's TRL_PORT_LL: the rest of the die, and the share of the new values. -/
theorem llLimits_of_leader {d e : Dev} {p x4 x5 x6 x7 : Nat} (h : RegsBut [Bar.TRL_PORT_LL.key p 0] d e) (hp : p < 192)
    (hl : d.isLeader p = true) (hx : e.LlIs p x4 x5 x6 x7) :
    e.llLimits (portDie (.fabric p)) = d.llElsewhere (portDie (.fabric p)) p + d.layoutWidth p * (x4 + x5 + x6 + x7) := by
  obtain ⟨_, hlane⟩ := portDie_fabric p hp
  have hle : e.isLeader p = true := (isLeader_of_llWrite h hp p).trans hl
  rw [llLimits_split e _ p hlane, llElsewhere_of_llWrite h hp _ hlane.1, llShare_of_llIs hx hle,
    layoutWidth_of_llWrite h hp]

/-- Limits that fitted the budget fit it after values in range were stored and clamped. -/
theorem clampLl_fits {d e : Dev} {p x4 x5 x6 x7 : Nat} (h : RegsBut [Bar.TRL_PORT_LL.key p 0] d e) (hp : p < 192)
    (hx : e.LlIs p x4 x5 x6 x7) (h4 : 1 ≤ x4 ∧ x4 ≤ 4095) (h5 : 1 ≤ x5 ∧ x5 ≤ 4095) (h6 : 1 ≤ x6 ∧ x6 ≤ 4095)
    (h7 : 1 ≤ x7 ∧ x7 ≤ 4095) (hfit : d.llLimits (portDie (.fabric p)) ≤ d.llBudget (portDie (.fabric p)))
    (hold : ∀ c, 4 ≤ c → c < 8 → 1 ≤ d.get (llField c) p) :
    (e.clampLl p).llLimits (portDie (.fabric p)) ≤ (e.clampLl p).llBudget (portDie (.fabric p)) := by
  obtain ⟨hdie, _⟩ := portDie_fabric p hp
  obtain ⟨y4, y5, y6, y7, hclamp, ⟨le4, le5, le6, le7⟩, hlow⟩ := clampLl_lowered hx h4.1 h5.1 h6.1 h7.1
  have hregs := regsBut_putLl h y4 y5 y6 y7
  have hy := llIs_putLl e p y4 y5 y6 y7 (Nat.le_trans le4 h4.2) (Nat.le_trans le5 h5.2) (Nat.le_trans le6 h6.2) (Nat.le_trans le7 h7.2)
  rw [hclamp, llBudget_of_llWrite hregs _ hdie]
  cases hl : d.isLeader p with
  | false => rwa [llLimits_of_notLeader hregs hp hl]
  | true =>
    rw [llLimits_of_leader hregs hp hl hy]
    rcases hlow with hsum | ⟨rfl, rfl, rfl, rfl⟩
    · have hexcess : e.llExcess p = e.llLimits (portDie (.fabric p)) - e.llBudget (portDie (.fabric p)) :=
        if_pos ((isLeader_of_llWrite h hp p).trans hl)
      rw [hexcess, llLimits_of_leader h hp hl hx, llBudget_of_llWrite h _ hdie, layoutWidth_of_llWrite h hp] at hsum
      omega
    · have hone : d.layoutWidth p * (1 + 1 + 1 + 1) ≤ d.layoutWidth p * d.llPerLane p := by
        have o4 : 1 ≤ d.get Bar.TRL_PORT_LL_TC4 p := hold 4 (by decide) (by decide)
        have o5 : 1 ≤ d.get Bar.TRL_PORT_LL_TC5 p := hold 5 (by decide) (by decide)
        have o6 : 1 ≤ d.get Bar.TRL_PORT_LL_TC6 p := hold 6 (by decide) (by decide)
        have o7 : 1 ≤ d.get Bar.TRL_PORT_LL_TC7 p := hold 7 (by decide) (by decide)
        exact Nat.mul_le_mul_left _ (by rw [Dev.llPerLane]; omega)
      have hbefore := llLimits_of_leader (regsBut_refl _ d) hp hl ⟨rfl, rfl, rfl, rfl⟩
      rw [← Dev.llPerLane] at hbefore
      omega

/-- Values that fit the budget, or that count for no port, leave no excess. -/
theorem llExcess_of_llWrite {d e : Dev} {p : Nat} (h : RegsBut [Bar.TRL_PORT_LL.key p 0] d e) (hp : p < 192)
    (hfree : d.isLeader p = false ∨ e.llLimits (portDie (.fabric p)) ≤ d.llBudget (portDie (.fabric p))) :
    e.llExcess p = 0 := by
  obtain ⟨hdie, _⟩ := portDie_fabric p hp
  rw [Dev.llExcess, isLeader_of_llWrite h hp, llBudget_of_llWrite h _ hdie]
  rcases hfree with hl | hle
  · rw [hl]
    rfl
  · rw [Nat.sub_eq_zero_of_le hle, ite_self]

/-- A write whose values leave no excess stores them. -/
theorem llIs_clampLl {d : Dev} {p x4 x5 x6 x7 : Nat} (hx : d.LlIs p x4 x5 x6 x7) (h : d.llExcess p = 0) :
    (d.clampLl p).LlIs p x4 x5 x6 x7 := by
  rw [clampLl_fitting hx h]
  obtain ⟨rfl, rfl, rfl, rfl⟩ := hx
  have hle (f : Fld) (hf : f.hi + 1 - f.lo = 12) : d.get f p ≤ 4095 := by
    have hlt := get_lt d f p 0
    rw [hf] at hlt
    omega
  exact llIs_putLl _ _ _ _ _ _ (hle _ rfl) (hle _ rfl) (hle _ rfl) (hle _ rfl)

/-- The write completes; of what TRL_PORT_LL does not hold it moves TDI states alone (R474). -/
theorem exec_trlPortLlWrite (s : State) (p v : Nat) (h : s.isReady) (hp : p < 192) :
    ∃ ep, exec (.trlPortLlWrite p v) s = .next { s with dev := { s.dev.writePortLl p v with ep := ep } } := by
  obtain ⟨ep, hguard⟩ := tdiGuard_eq s.dev (s.dev.writePortLl p v)
  refine ⟨ep, ?_⟩
  have hready : s.dev.ready = true := h
  rw [← hguard]
  change Host.Outcome.next (State.host s fun d => if p < 192 then d.writePortLl p v else d) = _
  simp only [State.host, hready, hp, if_true]
  rfl

/-- The write stores the four clamped values and clamps them to the budget. -/
theorem writePortLl_eq (d : Dev) (p v : Nat) :
    d.writePortLl p v = (d.putLl p (clampTo 1 4095 (slice v 11 0)) (clampTo 1 4095 (slice v 27 16))
      (clampTo 1 4095 (slice v 43 32)) (clampTo 1 4095 (slice v 59 48))).clampLl p := rfl

end Sys2Proof.Machine
end

section
open Sys2Proof Sys2Proof.Machine

/-- Settles O42: values that fit are stored, and the clamp takes away the excess of others unless it brings all four to 1,
the least that the port held before. -/
theorem losslessLimitsStayInBudget : Obligations.LosslessLimitsStayInBudget := by
  intro s p v d die plain hr hp
  have c4 := clampTo_bounds 1 4095 (slice v 11 0) (by decide)
  have c5 := clampTo_bounds 1 4095 (slice v 27 16) (by decide)
  have c6 := clampTo_bounds 1 4095 (slice v 43 32) (by decide)
  have c7 := clampTo_bounds 1 4095 (slice v 59 48) (by decide)
  have hplain : RegsBut [Bar.TRL_PORT_LL.key p 0] d plain := regsBut_putLl (regsBut_refl _ d) _ _ _ _
  have hx : plain.LlIs p _ _ _ _ := llIs_putLl d p _ _ _ _ c4.2 c5.2 c6.2 c7.2
  have hkept (hfree : d.isLeader p = false ∨ plain.llLimits (portDie (.fabric p)) ≤ d.llBudget (portDie (.fabric p))) :=
    llIs_clampLl hx (llExcess_of_llWrite hplain hp hfree)
  have hfits := clampLl_fits hplain hp hx c4 c5 c6 c7
  have hregs : RegsBut [Bar.TRL_PORT_LL.key p 0] d (plain.clampLl p) := regsBut_putLl hplain _ _ _ _
  have htrl : (plain.clampLl p).trl = d.trl := rfl
  obtain ⟨ep, hexec⟩ := exec_trlPortLlWrite s p v hr hp
  have hwrite : s.dev.writePortLl p v = plain.clampLl p := writePortLl_eq d p v
  rw [hwrite] at hexec
  generalize plain.clampLl p = e at *
  exact ⟨_, hexec, hkept, hfits, hregs, htrl⟩
end
